-- ==== Sys2Proof/Word.lean ====
section
/-! DEFINITION. The words of the Vyril (00 Notation): bytes, complex samples, and the sparse table in which every
indexed store of the machine is held (memory, on-die stores, per-port and per-channel state). -/

namespace Sys2Proof

/-- One byte; registers, commands, records and memory images are little-endian (00 Notation). -/
abbrev Byte := BitVec 8

/-- A complex sample or weight: signed I and Q (R162, R257). -/
structure IQ where
  i : Int
  q : Int
deriving DecidableEq, Repr, Inhabited

/-- A sparse table: pairs of key and value, keys rising, no value equal to the table's default. -/
abbrev Store (α : Type) := List (Nat × α)

/-- The value at key `k`; the default where the table lists none. -/
def Store.get {α : Type} (dflt : α) : Store α → Nat → α
  | [], _ => dflt
  | (j, v) :: rest, k => if k = j then v else Store.get dflt rest k

/-- Write key `k`, keeping the canonical form: the default value removes the entry. -/
def Store.set {α : Type} [DecidableEq α] (dflt : α) : Store α → Nat → α → Store α
  | [], k, v => if v = dflt then [] else [(k, v)]
  | (j, w) :: rest, k, v =>
    if k < j then (if v = dflt then (j, w) :: rest else (k, v) :: (j, w) :: rest)
    else if k = j then (if v = dflt then rest else (k, v) :: rest)
    else (j, w) :: Store.set dflt rest k v

/-- The canonical form: keys strictly rising from `lo`, no entry equal to the default. -/
def Store.wfFrom {α : Type} [DecidableEq α] (dflt : α) : Nat → Store α → Bool
  | _, [] => true
  | lo, (j, v) :: rest => decide (lo ≤ j) && decide (v ≠ dflt) && Store.wfFrom dflt (j + 1) rest

/-- The canonical form of a table. -/
def Store.wf {α : Type} [DecidableEq α] (dflt : α) (m : Store α) : Bool := Store.wfFrom dflt 0 m

/-- Byte-addressed memory: a byte nothing has written reads as 0 (log entry 6). -/
abbrev Mem := Store Byte

end Sys2Proof
end

