-- ==== Sys2Proof/Syntax.lean ====
section
/-! DEFINITION. The commands of the block: one constructor per row of spec/opcode_table.json, with its operands.
A mailbox command row says that firmware begins that command in a mailbox (R77); a ray or RP instruction row says that
the ray or processor executes its next word; every other row is an access, an event or an instant of the device. -/

namespace Sys2Proof

/-- What the host has done to its own memory before a row that reads it, which host ranges answer with an error, which DDR5 lines hold
an uncorrectable error (log entry 7), and whether firmware detects an internal inconsistency in the row (R86, log entry 88). -/
structure HostSide where
  cells : List (Nat × Byte) := []
  bad : List (Nat × Nat) := []
  ecc : List Nat := []
  broken : Bool := false
deriving DecidableEq, Repr

/-- Samples of acquire ports since the last row that carried such counts, and outside the windows that a STATE_INSTANT counts: per port
index, codes at either end of its converter's range; per channel, samples that GAIN saturated (R250, R253; log entry 100). -/
structure AdcSide where
  ends : List (Nat × Nat) := []
  sats : List (Nat × Nat) := []
deriving DecidableEq, Repr

/-- What the host has set in configuration space, and the correctable errors that AER has seen, since the row before (R34): the codes of the
maximum payload size (128 · 2^n bytes, at most 512) and of the maximum read request size (at most 4,096), ASPM L1, and the AER status bits
cleared by writing 1. -/
structure PcieSet where
  payload : Fin 3 := 0
  readRequest : Fin 6 := 2
  aspmL1 : Bool := false
  corrected : BitVec 32 := 0
  clearUncorrectable : BitVec 32 := 0
  clearCorrectable : BitVec 32 := 0
deriving DecidableEq, Repr

/-- One token of a shadow shot as the standby issues it (R481): its release stage and vertex in the shot, the 64 bytes of its locus, FTW and
Z of its frame, and the operands of a window or marker token. -/
structure ShadowTok where
  stage : Nat
  voff : Nat
  locus : List (BitVec 8)
  ftw : Nat
  z : Nat
  operands : List Nat
deriving DecidableEq, Repr

/-- A host write to the base or size register of a ring (R42: the base takes effect with its high half). -/
inductive CfgWrite where
  | baseLow (v : BitVec 32)
  | baseHigh (v : BitVec 32)
  | base (v : BitVec 64)
  | size (v : BitVec 32)
deriving DecidableEq, Repr

/-- A sensor's reading: 1/16 °C, or a diode that reads open or short (R491, R493). -/
inductive SensorReading where
  | temp (sixteenths : Int)
  | openCircuit
  | shorted
deriving DecidableEq, Repr

/-- One port's error found by a slice against the trims in force (R370, R375): delay in 1/1024 ps, phase as a signed
part of 2^32, gain as a factor times 32,768, the differential DC offset of a drive or probe port in nA. -/
structure SliceMeas where
  port : Nat
  delay : Int
  phase : Int
  gain : Nat
  dcofs : Int
deriving DecidableEq, Repr

/-- One port's measurement by a calibration run (R378, R379): the trims found. -/
structure RunMeas where
  port : Nat
  delay : Int
  phase : Nat
  gain : Nat
  dcofs : Int
  dcgain : Int
deriving DecidableEq, Repr

/-- The 279 rows of the table, nearly all of those without operands last: a compiled term numbers its constructors with operands to 244.
The default of an operand is a shorthand of this text only, and no rule of the spec. -/
inductive Instr where
  /-- SYS_NOP (R90). Command that ends at once when it begins; with FENCE it acts as a barrier across mailboxes. -/
  | sysNop (mb : Fin 32) (h : HostSide)
  /-- SYS_HELLO (R91). Command that pins its mailbox to the highest level common to host and firmware. -/
  | sysHello (mb : Fin 32) (h : HostSide)
  /-- SYS_IDENT (R92). Command that returns the 64-byte identity result. -/
  | sysIdent (mb : Fin 32) (h : HostSide)
  /-- SYS_ABORT (R93). Command that begins at acceptance and ends matching commands that have not begun, with status 0x001C. -/
  | sysAbort (mb : Fin 32) (h : HostSide)
  /-- SYS_LEDGER (R530). Command that returns the shot-token ledger, open intervals and log-loss count. -/
  | sysLedger (mb : Fin 32) (h : HostSide)
  /-- SYS_SHOTS (R531). Command that returns held shot statuses from FIRST onward. -/
  | sysShots (mb : Fin 32) (h : HostSide)
  /-- SYS_RECONCILE (R532). Command that returns reconciliation reports, newest first, with their entries. -/
  | sysReconcile (mb : Fin 32) (h : HostSide)
  /-- LAT_STATUS (R145). Command that returns reference, slack, period and SYNC state sampled at one instant. -/
  | latStatus (mb : Fin 32) (h : HostSide)
  /-- LAT_REF_SELECT (R146). Command that selects the reference source and fallback and ends when the PLL follows the new source. -/
  | latRefSelect (mb : Fin 32) (h : HostSide)
  /-- LAT_SET_PERIOD (R147). Staged command that sets the programmed shot period. -/
  | latSetPeriod (mb : Fin 32) (h : HostSide)
  /-- LAT_SYNC (R148). Staged command that sets SYNC follow mode, polarity and SYNC_LEAD. -/
  | latSync (mb : Fin 32) (h : HostSide)
  /-- LAT_LOAD (R149). Command that loads lattice time now, arms a load on a SYNC edge, or cancels an armed load. -/
  | latLoad (mb : Fin 32) (h : HostSide)
  /-- LAT_SLACK (R150). Command that returns per-ring slack of the active or standby core. -/
  | latSlack (mb : Fin 32) (h : HostSide)
  /-- LAT_DISCARDS (R151). Command that returns per-stage discard counters and optionally clears them. -/
  | latDiscards (mb : Fin 32) (h : HostSide)
  /-- PRT_STATUS (R181). Command that returns port condition, counters and frame or flux state. -/
  | prtStatus (mb : Fin 32) (h : HostSide)
  /-- PRT_DRIVE_CONFIG (R182). Staged command that sets drive port enable and full-scale current. -/
  | prtDriveConfig (mb : Fin 32) (h : HostSide)
  /-- PRT_FRAME_SET (R183). Staged command that sets a frame's FTW, reloading s_f, and/or its Z. -/
  | prtFrameSet (mb : Fin 32) (h : HostSide)
  /-- PRT_ENV_WRITE (R184). Command that writes envelope store words of a port, staged while a program runs. -/
  | prtEnvWrite (mb : Fin 32) (h : HostSide)
  /-- PRT_ENV_READ (R185). Command that reads envelope store words as they stand. -/
  | prtEnvRead (mb : Fin 32) (h : HostSide)
  /-- PRT_STORE_ASSIGN (R186). Command that assigns envelope store pages to ports, zeroing ports whose count changes. -/
  | prtStoreAssign (mb : Fin 32) (h : HostSide)
  /-- PRT_FLUX_CONFIG (R187). Staged command that sets flux enable, safe mode, pulse range and SAFE_DC. -/
  | prtFluxConfig (mb : Fin 32) (h : HostSide)
  /-- PRT_FLUX_DC (R188). Command that starts a linear ramp or step of a flux port's DC level. -/
  | prtFluxDc (mb : Fin 32) (h : HostSide)
  /-- FLUX_RAMP_END (R176). A flux DC ramp reaches its target and its command ends with 0x0300. -/
  | fluxRampEnd (port : Fin 97)
  /-- PRT_PROBE_CONFIG (R267). Staged command that sets probe port enable and full-scale current. -/
  | prtProbeConfig (mb : Fin 32) (h : HostSide)
  /-- PRT_PROBE_TONE (R268). Staged command that sets a probe tone's FTW and/or Z. -/
  | prtProbeTone (mb : Fin 32) (h : HostSide)
  /-- PRT_ACQ_CONFIG (R269). Staged command that sets acquire port enable and ADC range. -/
  | prtAcqConfig (mb : Fin 32) (h : HostSide)
  /-- PRT_ACQ_STATUS (R270). Command that returns acquire port counters and per-channel saturation counts. -/
  | prtAcqStatus (mb : Fin 32) (h : HostSide) (adc : AdcSide := {})
  /-- RAY_STATUS (R213). Command that returns program state, run counters and per-ray state. -/
  | rayStatus (mb : Fin 32) (h : HostSide)
  /-- PROG_LOAD (R214). Command that checks and loads a program image into ray program memory. -/
  | progLoad (mb : Fin 32) (h : HostSide)
  /-- PROG_START (R215). Command that starts a resident program, setting M(0) and opening shot 0. -/
  | progStart (mb : Fin 32) (h : HostSide)
  /-- PROG_STOP (R216). Command that stops the running program gracefully or at once and ends when the program ends. -/
  | progStop (mb : Fin 32) (h : HostSide)
  /-- LOC_WRITE (R217). Command that writes loci, staged and extent-checked while a program runs. -/
  | locWrite (mb : Fin 32) (h : HostSide)
  /-- LOC_READ (R218). Command that returns loci as the table stands. -/
  | locRead (mb : Fin 32) (h : HostSide)
  /-- RO_CH_CONFIG (R271). Staged command that configures a read-out channel's NCO, filter, gain, ring and POSTK. -/
  | roChConfig (mb : Fin 32) (h : HostSide)
  /-- RO_WEIGHTS (R272). Staged command that writes a range of a channel's weight table. -/
  | roWeights (mb : Fin 32) (h : HostSide)
  /-- RO_DISC (R273). Staged command that writes a channel's discriminator boundaries and map. -/
  | roDisc (mb : Fin 32) (h : HostSide)
  /-- RO_CH_READ (R274). Command that returns a channel's held configuration and counters. -/
  | roChRead (mb : Fin 32) (h : HostSide)
  /-- CH_TABLE_WRITE (R329). Staged command that replaces a whole decision table. -/
  | chTableWrite (mb : Fin 32) (h : HostSide)
  /-- CH_TABLE_READ (R330). Command that returns a decision table as held. -/
  | chTableRead (mb : Fin 32) (h : HostSide)
  /-- CH_EXPORT (R331). Staged command that sets a link's chord export masks. -/
  | chExport (mb : Fin 32) (h : HostSide)
  /-- CH_STATUS (R332). Command that returns chord and decision counters. -/
  | chStatus (mb : Fin 32) (h : HostSide)
  /-- RP_STATUS (R308). Command that returns a read-out processor's state and counters. -/
  | rpStatus (mb : Fin 32) (h : HostSide)
  /-- RP_MEM_WRITE (R302). Command that writes RP memory from the payload or from DDR5. -/
  | rpMemWrite (mb : Fin 32) (h : HostSide)
  /-- RP_MEM_READ (R303). Command that reads RP memory using free memory slots. -/
  | rpMemRead (mb : Fin 32) (h : HostSide)
  /-- RP_LOAD (R301). Command that checks and loads a kernel image and reports its latency figures. -/
  | rpLoad (mb : Fin 32) (h : HostSide)
  /-- RP_RUN (R304). Command that runs a standalone kernel until HALT, MAX_US or RP_STOP. -/
  | rpRun (mb : Fin 32) (h : HostSide)
  /-- RP_STOP (R305). Command that stops a standalone kernel or stages detach of a post kernel. -/
  | rpStop (mb : Fin 32) (h : HostSide)
  /-- RP_ATTACH (R306). Staged command that attaches a loaded post kernel with its post ring. -/
  | rpAttach (mb : Fin 32) (h : HostSide)
  /-- RP_APPLY (R307). Command that writes a channel's weights or discriminator from RP memory. -/
  | rpApply (mb : Fin 32) (h : HostSide)
  /-- RP_MAX_US_EXPIRY (R290). A standalone kernel's running time reaches MAX_US and RP_RUN ends with 0x0615. -/
  | rpMaxUsExpiry (p : Fin 12)
  /-- RP_DETACH_COMPLETE (R296). A detaching post kernel drains its queue, waits at WAITR and is detached. -/
  | rpDetachComplete (p : Fin 12)
  /-- ACQ_STATUS (R363). Command that returns a capture unit's state and counters. -/
  | acqStatus (mb : Fin 32) (h : HostSide)
  /-- ACQ_RING_CONFIG (R356). Command that enables, disables or restages the geometry of a ring. -/
  | acqRingConfig (mb : Fin 32) (h : HostSide)
  /-- ACQ_RING_REBASE (R357). Command that rebases a ring, discarding unread entries and applying staged geometry. -/
  | acqRingRebase (mb : Fin 32) (h : HostSide)
  /-- ACQ_UNIT_CONFIG (R358). Command that configures an idle capture unit. -/
  | acqUnitConfig (mb : Fin 32) (h : HostSide)
  /-- ACQ_MASK (R359). Command that writes mask entries of an idle capture unit. -/
  | acqMask (mb : Fin 32) (h : HostSide)
  /-- ACQ_ARM (R360). Command that admits and arms a capture unit. -/
  | acqArm (mb : Fin 32) (h : HostSide)
  /-- ACQ_STOP (R361). Command that ends a capture unit, cutting or completing a capture in progress. -/
  | acqStop (mb : Fin 32) (h : HostSide) (adc : List (BitVec 12))
  /-- ACQ_GROUP_ARM (R362). Command that arms group units on every named member at ARM_AT. -/
  | acqGroupArm (mb : Fin 32) (h : HostSide)
  /-- CAL_STATUS (R389). Command that returns calibration state, run outcome and counters. -/
  | calStatus (mb : Fin 32) (h : HostSide)
  /-- CAL_CONFIG (R390). Command that enables background slices and sets the timed commit interval. -/
  | calConfig (mb : Fin 32) (h : HostSide)
  /-- CAL_RUN (R391). Command that starts a calibration run over the ports in MASK. -/
  | calRun (mb : Fin 32) (h : HostSide)
  /-- CAL_ABORT (R392). Command that ends a calibration run with cause stopped. -/
  | calAbort (mb : Fin 32) (h : HostSide)
  /-- CAL_READ (R393). Command that returns facet, in-force or residual entries. -/
  | calRead (mb : Fin 32) (h : HostSide)
  /-- CAL_WRITE (R394). Command that writes facet entries with SOURCE 3, staged while a program runs. -/
  | calWrite (mb : Fin 32) (h : HostSide)
  /-- CAL_COMMIT (R395). Command that commits the facet table to the calibration store. -/
  | calCommit (mb : Fin 32) (h : HostSide)
  /-- TIM_INPUT_CONFIG (R414). Command that sets an event input's hysteresis, prescaler and hold-off. -/
  | timInputConfig (mb : Fin 32) (h : HostSide)
  /-- TIM_MEASURE (R415). Command that arms a TIM measurement. -/
  | timMeasure (mb : Fin 32) (h : HostSide)
  /-- TIM_READ (R416). Command that returns a stored TIM result. -/
  | timRead (mb : Fin 32) (h : HostSide)
  /-- TIM_ABORT (R416). Command that ends the armed or open measurement with cause stopped. -/
  | timAbort (mb : Fin 32) (h : HostSide)
  /-- WT_STATUS (R417). Command that returns lattice and wall time from one tick with the wall-time parameters. -/
  | wtStatus (mb : Fin 32) (h : HostSide)
  /-- WT_STEP (R418). Command that schedules a wall-time step at a lattice tick. -/
  | wtStep (mb : Fin 32) (h : HostSide)
  /-- WT_RATE (R419). Command that changes the wall-time rate continuously. -/
  | wtRate (mb : Fin 32) (h : HostSide)
  /-- WT_PULSE (R420). Command that configures or stops a wall-time pulse generator. -/
  | wtPulse (mb : Fin 32) (h : HostSide)
  /-- MKV_STATUS (R440). Command that returns marker state, counters and failure records. -/
  | mkvStatus (mb : Fin 32) (h : HostSide) (level : BitVec 32)
  /-- MKV_PIN_CONFIG (R440). Staged command that sets each marker pin's idle and safe states and FAILSHOT. -/
  | mkvPinConfig (mb : Fin 32) (h : HostSide)
  /-- MKV_TSET_WRITE (R426). Command that writes a timing set when no program or MARK item is active. -/
  | mkvTsetWrite (mb : Fin 32) (h : HostSide)
  /-- MKV_WRITE (R426). Command that writes marker vectors when no program or MARK item is active. -/
  | mkvWrite (mb : Fin 32) (h : HostSide)
  /-- MKV_READ (R427). Command that returns marker vectors. -/
  | mkvRead (mb : Fin 32) (h : HostSide)
  /-- BENCH_STATUS (R440). Command that returns hold state, indicators and plug sense. -/
  | benchStatus (mb : Fin 32) (h : HostSide)
  /-- BENCH_CONFIG (R440). Command that sets hold mode and sense and auto-resume masks. -/
  | benchConfig (mb : Fin 32) (h : HostSide)
  /-- BENCH_RESUME (R435). Command that ends unplug or latched-hold causes of the safe condition. -/
  | benchResume (mb : Fin 32) (h : HostSide)
  /-- IND_CONFIG (R438). Command that sets each indicator's source. -/
  | indConfig (mb : Fin 32) (h : HostSide)
  /-- LNK_STATUS (R465). Command that returns a link's stage, flags and counters. -/
  | lnkStatus (mb : Fin 32) (h : HostSide)
  /-- LNK_CONFIG (R461). Command that enables, idles and sets CTLE codes of a link. -/
  | lnkConfig (mb : Fin 32) (h : HostSide)
  /-- LNK_TRAIN (R462). Command that retrains a link from stage 2. -/
  | lnkTrain (mb : Fin 32) (h : HostSide)
  /-- LNK_DOMAIN (R463). Command that sets domain, device number, parent, ingress and relay tables. -/
  | lnkDomain (mb : Fin 32) (h : HostSide)
  /-- LNK_ALIGN (R464). Command that measures the parent link and slews the lattice into alignment. -/
  | lnkAlign (mb : Fin 32) (h : HostSide) (dPC dCP : Int)
  /-- MIR_STATUS (R485). Command that returns the redundancy health report. -/
  | mirStatus (mb : Fin 32) (h : HostSide)
  /-- MIR_SWITCH (R487). Command that makes a planned switch-over to an eligible standby. -/
  | mirSwitch (mb : Fin 32) (h : HostSide)
  /-- MIR_RESYNC (R488). Command that resynchronises the standby, optionally resetting it first. -/
  | mirResync (mb : Fin 32) (h : HostSide)
  /-- MIR_CONFIG (R489). Command that sets TAKEOVER, SHADOW and AUTO_RECOVER. -/
  | mirConfig (mb : Fin 32) (h : HostSide)
  /-- THM_STATUS (R514). Command that returns band, throttle level and sensor readings. -/
  | thmStatus (mb : Fin 32) (h : HostSide)
  /-- THM_CONFIG (R515). Command that sets EXTEND and remote-diode limits and ideality. -/
  | thmConfig (mb : Fin 32) (h : HostSide)
  /-- HKA_CONVERT (R516). Command that takes a block of housekeeping ADC samples. -/
  | hkaConvert (mb : Fin 32) (h : HostSide)
  /-- HKA_CONFIG (R517). Command that sets continuous or low-power ADC mode. -/
  | hkaConfig (mb : Fin 32) (h : HostSide)
  /-- RAIL_STATUS (R518). Command that returns rail voltages, currents and extremes. -/
  | railStatus (mb : Fin 32) (h : HostSide)
  /-- IMG_STATUS (R109). Command that returns image sources, directory and slot summaries. -/
  | imgStatus (mb : Fin 32) (h : HostSide)
  /-- IMG_STAGE (R110). Command that stages and checks a firmware image. -/
  | imgStage (mb : Fin 32) (h : HostSide)
  /-- IMG_WRITE (R111). Command that writes the staged image to a flash slot and verifies it. -/
  | imgWrite (mb : Fin 32) (h : HostSide)
  /-- IMG_SELECT (R112). Command that writes the flash directory's PREFERRED or NEXT_ONCE. -/
  | imgSelect (mb : Fin 32) (h : HostSide)
  /-- IMG_REBOOT (R113). Command that disables mailboxes, ends waiting commands and schedules a die reset. -/
  | imgReboot (mb : Fin 32) (h : HostSide)
  /-- IMG_LOAD_STANDBY (R114). Command that resets the standby and loads an image into it. -/
  | imgLoadStandby (mb : Fin 32) (h : HostSide)
  /-- IMG_HANDOVER (R115). Command that hands the active role to a resynchronised standby of equal copy format. -/
  | imgHandover (mb : Fin 32) (h : HostSide)
  /-- HALT (R237). Ray instruction that ends the ray for the rest of the run. -/
  | rayHalt (r : Fin 128)
  /-- MERID (R237). Ray instruction that ends the ray's current shot and sets C to 0. -/
  | rayMerid (r : Fin 128)
  /-- BARR (R236). Ray instruction that waits at a barrier, optionally aligning cursors. -/
  | rayBarr (r : Fin 128)
  /-- AT (R223). Ray instruction that sets the time cursor. -/
  | rayAt (r : Fin 128)
  /-- WAIT (R223). Ray instruction that advances the time cursor. -/
  | rayWait (r : Fin 128)
  /-- PLAY (R224). Ray instruction that fetches a locus into a token bound for its release stage. -/
  | rayPlay (r : Fin 128)
  /-- PLAYS (R224). Ray instruction that issues a streamed STREAM locus token. -/
  | rayPlays (r : Fin 128)
  /-- SETF (R225). Ray instruction that issues a frequency-set frame token. -/
  | raySetf (r : Fin 128)
  /-- VZ (R226). Ray instruction that issues a virtual-Z frame token. -/
  | rayVz (r : Fin 128)
  /-- ACQ (R228). Ray instruction that issues an acquisition window item. -/
  | rayAcq (r : Fin 128)
  /-- MARK (R229). Ray instruction that issues a marker vector item. -/
  | rayMark (r : Fin 128)
  /-- LOOP (R230). Ray instruction that opens a counted loop body. -/
  | rayLoop (r : Fin 128)
  /-- ENDL (R230). Ray instruction that decrements the loop count and repeats or exits. -/
  | rayEndl (r : Fin 128)
  /-- JUMP (R231). Ray instruction that continues at TARGET. -/
  | rayJump (r : Fin 128)
  /-- BR (R232). Ray instruction that branches on a register comparison. -/
  | rayBr (r : Fin 128)
  /-- DECIDE (R235). Ray instruction that waits for its shot and chord bits and writes a table entry into GD. -/
  | rayDecide (r : Fin 128)
  /-- SETG (R233). Ray instruction that loads a register. -/
  | raySetg (r : Fin 128)
  /-- ADDG (R234). Ray instruction that adds into a register. -/
  | rayAddg (r : Fin 128)
  /-- DECIDE_RESOLVE (R318). A named chord or missing marker arrives and a waiting DECIDE resolves by entry or fallback. -/
  | decideResolve (r : Fin 128)
  /-- DECIDE_DEADLINE (R318). Lattice time reaches M(k)+DEADLINE and a waiting DECIDE resolves with FALLBACK, chord late. -/
  | decideDeadline (r : Fin 128)
  /-- RP_HALT (R290). RP instruction that ends a standalone kernel. -/
  | rpHalt (p : Fin 12)
  /-- NOP (R287). RP instruction that does nothing. -/
  | rpNop (p : Fin 12)
  /-- REP (R286). RP instruction that repeats the next instruction COUNT times. -/
  | rpRep (p : Fin 12)
  /-- JMP (R287). RP instruction that sets PC to TARGET. -/
  | rpJmp (p : Fin 12)
  /-- DJNZ (R287). RP instruction that decrements a loop counter and jumps. -/
  | rpDjnz (p : Fin 12)
  /-- LDC (R287). RP instruction that loads a loop counter. -/
  | rpLdc (p : Fin 12)
  /-- SETP (R287). RP instruction that sets a pointer address. -/
  | rpSetp (p : Fin 12)
  /-- CFGP (R280). RP instruction that sets a pointer's mode, K and step. -/
  | rpCfgp (p : Fin 12)
  /-- CLR (R287). RP instruction that clears accumulators. -/
  | rpClr (p : Fin 12)
  /-- CLRF (R287). RP instruction that clears sticky flags. -/
  | rpClrf (p : Fin 12)
  /-- MAC (R283). RP instruction that multiply-accumulates with saturation. -/
  | rpMac (p : Fin 12)
  /-- CMAC (R288). RP instruction that complex multiply-accumulates into an accumulator pair. -/
  | rpCmac (p : Fin 12)
  /-- LDA (R287). RP instruction that loads an accumulator from memory shifted. -/
  | rpLda (p : Fin 12)
  /-- ADDA (R287). RP instruction that adds a shifted memory value to an accumulator. -/
  | rpAdda (p : Fin 12)
  /-- ADDAC (R287). RP instruction that adds one accumulator to another. -/
  | rpAddac (p : Fin 12)
  /-- SHRA (R285). RP instruction that shifts an accumulator right with rounding. -/
  | rpShra (p : Fin 12)
  /-- ST (R285). RP instruction that stores a rounded, saturated accumulator. -/
  | rpSt (p : Fin 12)
  /-- STC (R285). RP instruction that stores an accumulator pair as a complex word. -/
  | rpStc (p : Fin 12)
  /-- MOVW (R287). RP instruction that copies one memory word. -/
  | rpMovw (p : Fin 12)
  /-- SGN (R287). RP instruction that sets a STATE bit from an accumulator's sign. -/
  | rpSgn (p : Fin 12)
  /-- WAITR (R291). RP instruction that takes the oldest queued result, waiting if the queue is empty. -/
  | rpWaitr (p : Fin 12)
  /-- EMIT (R292). RP instruction that writes a post record and optionally sends a slow chord. -/
  | rpEmit (p : Fin 12)
  /-- MB_DOORBELL (R62). Host write that posts the command in a free slot and increments IN_USE. -/
  | mbDoorbell (mb : Fin 32) (value : BitVec 32)
  /-- COMMAND_SLOT_WRITE (R63). Host write to a command slot, discarded with an access error while the slot is locked. -/
  | commandSlotWrite (mb : Fin 32) (slot : Fin 16) (off : Nat) (bytes : List Byte)
  /-- COMMAND_ACCEPT (R64). Firmware accepts a doorbelled command, copies the slot and assigns an acceptance number. -/
  | commandAccept (h : HostSide)
  /-- HELD_COMPLETION_POST (R73). A completion held while its ring was full is posted once room appears. -/
  | heldCompletionPost (mb : Fin 32)
  /-- MB_ENABLE (R75). Host write of ENABLE 1 that frees slots, clears the pin and empties the ring. -/
  | mbEnable (mb : Fin 32)
  /-- MB_DISABLE (R75). Host write of ENABLE 0 that stops doorbells and ends unaccepted commands with 0x001D. -/
  | mbDisable (mb : Fin 32)
  /-- MB_CRING_TAIL_WRITE (R73). Host write of the completion ring consumer index, checked against HEAD. -/
  | mbCringTailWrite (mb : Fin 32) (value : BitVec 32)
  /-- MB_CRING_CONFIG_WRITE (R74). Host write of completion ring base or size, ignored unless disabled and idle. -/
  | mbCringConfigWrite (mb : Fin 32) (w : CfgWrite)
  /-- DMA_TAIL_WRITE (R53). Host write of a DMA ring's TAIL, the descriptor doorbell. -/
  | dmaTailWrite (ring : Fin 8) (value : BitVec 32)
  /-- DMA_START (R52). Host write of START that runs a ring from HEAD or sets configuration error. -/
  | dmaStart (ring : Fin 8)
  /-- DMA_STOP (R51). Host write of STOP that stops the ring and writes back owned descriptors with 0x10. -/
  | dmaStop (ring : Fin 8) (h : HostSide) (moved : Nat)
  /-- DMA_CONFIG_WRITE (R52). Host write of a ring's base or size, ignored unless stopped or in error. -/
  | dmaConfigWrite (ring : Fin 8) (w : CfgWrite)
  /-- DMA_DESCRIPTOR_DONE (R49). The device finishes moving a descriptor's data, writes it back and advances HEAD. -/
  | dmaDescriptorDone (ring : Fin 8) (h : HostSide)
  /-- EVT_PEND_CLEAR (R55). Host W1C write that clears event pending bits. -/
  | evtPendClear (k : Fin 8) (mask raisedNow : BitVec 32)
  /-- EVT_LOG_TAIL_WRITE (R57). Host write of the event-log consumer index, checked while enabled. -/
  | evtLogTailWrite (value : BitVec 32)
  /-- EVT_LOG_CONFIG_WRITE (R57). Host write of event-log base or size, ignored while enabled. -/
  | evtLogConfigWrite (w : CfgWrite)
  /-- MSIX_UNMASK (R55). Host unmasking of an MSI-X entry that sends a held message. -/
  | msixUnmask (v : Fin 256)
  /-- HIF_ERR_CLEAR (R44). Host W1C write that clears access error flags. -/
  | hifErrClear (mask setNow : BitVec 32)
  /-- RL_LOW_HALF_READ (R17). Host read of an RL register's low half that latches the high half into the shared shadow. -/
  | rlLowHalfRead (off : Nat)
  /-- RL_8BYTE_READ (R41). Host 8-byte read of an RL register returning both halves and loading the shadow. -/
  | rl8byteRead (off : Nat)
  /-- BAR0_ACCESS_ERROR (R40). A BAR0 access of illegal size or alignment is discarded or reads all ones and flags ACCESS. -/
  | bar0AccessError (isWrite : Bool) (off size : Nat)
  /-- REGISTER_WRITE (R15). Host write to a BAR0 register field with no behaviour of its own. -/
  | registerWrite (off : Nat) (eight : Bool) (value : BitVec 64)
  /-- BAR2_READ (R59). Host read through BAR2 of DDR5, checked whole against range and reserved region. -/
  | bar2Read (off len : Nat) (h : HostSide)
  /-- BAR2_WRITE (R59). Host write through BAR2 to DDR5, merged by read-modify-write, checked whole. -/
  | bar2Write (off : Nat) (bytes : List Byte)
  /-- PCIE_LINK_TRAINED (R36). The PCIe link settles and HIF_LINK is set, flagging degraded training. -/
  | pcieLinkTrained (speed width : Nat) (flit : Bool) (set : Option PcieSet := none)
  /-- POWER_ON_RESET (R94). VDD_CORE or VDD_IO falls below its monitor threshold and resets the whole die; `tear` is how many bytes of the
  directory write in progress, if one is, reach the flash (R99). -/
  | powerOnReset (tear : Option (Fin 16) := none)
  /-- RESET_N (R95). RESET_N held low for at least 1 µs resets the die, keeping flux DC. -/
  | resetN (lowNs : Nat) (tear : Option (Fin 16) := none)
  /-- CORE_RESET (R97). Watchdog or firmware fault resets one control core. -/
  | coreReset (mirror : Bool) (tear : Option (Fin 16) := none)
  /-- DIE_RESET_RELEASE (R102). Release of a die reset; the ROM samples BOOT_RECOV and selects a flash slot. -/
  | dieResetRelease (bootRecovLow flashOk : Bool) (smbAddr : BitVec 2 := 0)
  /-- IMAGE_LOAD_COMPLETE (R103). The image is loaded into the cores and rechecked; firmware starts. `failed` is the check of R101 that the
  loaded copy fails, 0 for none. -/
  | imageLoadComplete (mirror : Bool) (failed : Fin 4 := 0)
  /-- FIRMWARE_READY (R103). Firmware finishes step 5 and declares ready or restricted. -/
  | firmwareReady (ddrGib : BitVec 16) (trained holdLow : Bool)
  /-- REFERENCE_LOST (R118). The selected reference becomes absent and the PLL falls back or enters holdover. -/
  | referenceLost (refPN : Bool)
  /-- REFERENCE_RESTORED (R117). The reference becomes present again and the restored event is raised. -/
  | referenceRestored (refPN : Bool)
  /-- SYNC_EDGE (R130). A conditioned SYNC edge is captured, fixing a meridian, loading lattice time or counting out of window. -/
  | syncEdge (falling : Bool) (beforePs : Nat)
  /-- ITEM_ARRIVAL (R134). An item reaches its release stage and is queued or discarded as late or outside shot. -/
  | itemArrival (n : Nat)
  /-- ITEM_RELEASE (R134). An item's vertex arrives and the release stage plays it, together with up to `more` items of equal vertex that
  follow it in the queue (R133). -/
  | itemRelease (port : Fin 97) (more : Nat)
  /-- JUMP_COMMIT_CHECK (R207). At a jumping item's commit point it is compared with the current segment and cuts or defers. -/
  | jumpCommitCheck (port : Fin 97)
  /-- FRAME_TOKEN_APPLY (R227). A frame token reaches the frame engine and its update is applied. -/
  | frameTokenApply (r : Fin 128)
  /-- STREAM_BLOCK_REFILL (R169). A 1,024-sample block of a streamed segment arrives in the stream buffer. -/
  | streamBlockRefill (port : Fin 97) (h : HostSide)
  /-- SLACK_READING (R138). Every 1 µs each canary ring is read and slack and alarms are updated. -/
  | slackReading (mirror : Bool) (counts : List (BitVec 16))
  /-- STATE_INSTANT (R261). A window's state instant: discrimination, chord, result to write path and post copy. `adc` holds the
  converter's codes from the window's opening on, `tail` those after them that the filter still reaches (R252). -/
  | stateInstant (chan : Fin 192) (adc tail : List (BitVec 12))
  /-- RING_ENTRY_WRITE (R339). An entry offered to a ring is written or dropped and line 0 updated. -/
  | ringEntryWrite (ring : Fin 16)
  /-- RING_READ_POLL (R339). The device reads a ring's READ, validates it and applies a staged geometry on an empty ring. -/
  | ringReadPoll (ring : Fin 16) (h : HostSide)
  /-- TRIGGER_FIRE (R346). An armed EDGE unit's trigger fires and a capture begins. -/
  | triggerFire (unit : Fin 16) (adc : List (BitVec 12))
  /-- CAPTURE_END (R344). A capture ends, its record is written and the unit re-arms or stops. -/
  | captureEnd (unit : Fin 16) (adc : List (BitVec 12))
  /-- UNIT_REARM (R344). A capture unit becomes armed again after re-arm time and hold-off. -/
  | unitRearm (unit : Fin 16)
  /-- GROUP_ARM_MESSAGE (R351). A member receives a group arm control message. -/
  | groupArmMessage (link : Fin 4)
  /-- FIRE_MESSAGE (R351). A member receives a group fire message. -/
  | fireMessage (link : Fin 4)
  /-- SLICE_START (R373). A background calibration slice connects its chosen ports to the loopback bus. -/
  | sliceStart (ports : List Nat)
  /-- SLICE_END (R375). A slice ends, updating residuals, rejecting or writing back to facets. -/
  | sliceEnd (ms : List SliceMeas)
  /-- CAL_GROUP_END (R379). A calibration run's group measurement ends and is assigned or held. -/
  | calGroupEnd (ms : List RunMeas)
  /-- CAL_STARVED (R376). A port has been due for more than 60 s. -/
  | calStarved (port : Fin 97)
  /-- COMMIT_END (R382). A store commit's read-back completes and the slot is in force or the commit fails. -/
  | commitEnd (readBackOk : Bool)
  /-- TIM_SELF_CALIBRATE (R401). Interpolators calibrate during the 1 µs before a measurement window. -/
  | timSelfCalibrate (scales : List Nat)
  /-- EVENT_INPUT_EDGE (R398). A conditioned edge on an event input is captured for its users. -/
  | eventInputEdge (src : Nat) (falling : Bool) (beforePs : Nat)
  /-- WT_PULSE_TARGET (R411). Wall time reaches a generator target and its leading edge is placed. -/
  | wtPulseTarget (g : Fin 4)
  /-- WT_PULSE_TRAILING_EDGE (R411). WIDTH ticks after the leading edge the pulse ends. -/
  | wtPulseTrailingEdge (g : Fin 4)
  /-- MARKER_STROBE (R428). A marker period's strobes are compared and any failure recorded. -/
  | markerStrobe (belowVtl aboveVth : BitVec 32)
  /-- PLUG_SENSE_TEST (R432). Every 10 ms an idle port is sensed with a test current. -/
  | plugSenseTest (port : Fin 97) (code : Fin 5)
  /-- OPEN_LOAD_DETECT (R434). An active port sees an open load and enters the safe condition. -/
  | openLoadDetect (port : Fin 97)
  /-- LINK_FRAME_TRANSMIT (R442). At each 16-tick slot a link sends a frame with chords, messages and a segment. -/
  | linkFrameTransmit (link : Fin 4) (mean : Option (Int × Nat) := none)
  /-- LINK_FRAME_RECEIVE (R446). A link frame arrives, is CRC checked and held or discarded; `offNs` is how far, in ns, its
  release tick falls from the instant its content arrives less the deserialiser delay (R445). -/
  | linkFrameReceive (link : Fin 4) (bytes : List Byte) (offNs : Int)
  /-- LINK_FRAME_RELEASE (R445). A held frame's contents are released to the die at its release tick. -/
  | linkFrameRelease (link : Fin 4)
  /-- LINK_RECEIVER_DETECT (R448). Each millisecond a link lane senses the peer termination. -/
  | linkReceiverDetect (link : Fin 4) (found : Bool)
  /-- LINK_BIT_LOCK (R448). Lanes lock clock recovery and the link moves to marker lock. -/
  | linkBitLock (link : Fin 4)
  /-- LINK_MARKER_LOCK (R449). Lane markers are found and lanes deskewed. -/
  | linkMarkerLock (link : Fin 4) (reversed : Bool) (skewUi : Nat)
  /-- CAPABILITY_EXCHANGE (R450). The capability segment is received and the link becomes active or fails. -/
  | capabilityExchange (link : Fin 4) (delayFs : Int)
  /-- LINK_STAGE_TIMEOUT (R448). A bring-up stage exceeds its limit and the link fails with a reason. -/
  | linkStageTimeout (link : Fin 4)
  /-- LINK_RETRY (R448). 100 ms after a failure the link returns to stage 1. -/
  | linkRetry (link : Fin 4)
  /-- SEGMENT_RECEIVE (R447). A class-2 segment is received, buffered and acknowledged. -/
  | segmentReceive (link : Fin 4)
  /-- SEGMENT_RESEND (R447). A class-2 segment unacknowledged for 64 frames is resent. -/
  | segmentResend (link : Fin 4)
  /-- CTLE_STEP (R451). Every 100 µs the CTLE code steps toward the band preset. -/
  | ctleStep (link : Fin 4)
  /-- LINK_IDLE_EXIT (R452). An idle link exits with training bursts and becomes active or retrains. -/
  | linkIdleExit (link : Fin 4) (markersFound : Bool)
  /-- ALIGN_TRACK (R457). Every 1 ms an aligned child remeasures and corrects its lattice phase. -/
  | alignTrack (thetaFs : Int)
  /-- EPOCH_APPLY (R467). The standby applies a whole copy epoch whose CRC matches. -/
  | epochApply (intact : Bool)
  /-- HEARTBEAT_SEND (R471). Every 4 µs a core sends a heartbeat on both paths. -/
  | heartbeatSend (mirror : Bool)
  /-- HEARTBEAT_RECEIVE (R471). A core receives an intact heartbeat from the other core. -/
  | heartbeatReceive (byMirror offDie healthy : Bool)
  /-- HEARTBEAT_TIMEOUT (R472). A path has carried no heartbeat for 12 µs, faulting the path or causing takeover. -/
  | heartbeatTimeout (offDie : Bool)
  /-- HEARTBEAT_PATH_RESTORED (R474). A faulted path carries intact heartbeats for 1 s and clears. -/
  | heartbeatPathRestored (offDie : Bool)
  /-- SWITCHOVER_GAP_END (R475). The new active core has restored the epoch and opens shot j. -/
  | switchoverGapEnd (gapNs : Nat)
  /-- SENSOR_SAMPLE (R496). All sensors are sampled and checked; bands, warning and throttle may rise. -/
  | sensorSample (ts : List SensorReading) (td : List SensorReading)
  /-- MR4_POLL (R497). Every 1 ms the DRAM MR4 refresh field is read. -/
  | mr4Poll (channel : Fin 2) (wantsFast : Bool)
  /-- RAIL_SCAN (R509). Every 10 ms the rails are scanned and compared with their windows. -/
  | railScan (volts amps : List Int)
  /-- HKA_SAMPLE (R506). A host housekeeping conversion is taken at its interval. -/
  | hkaSample (code : BitVec 12) (value : Int) (retaken : Bool)
  /-- HARDWARE_SHUTDOWN (R503). Two shutdown comparators trip and the device shuts down. -/
  | hardwareShutdown (trip : BitVec 4) (tear : Option (Fin 16) := none)
  /-- LATTICE_SLEW_END (R456). A child's lattice phase slew of minus theta finishes and the verification measurement decides ALIGNED or
  0x0B17. -/
  | latticeSlewEnd (residualFs : Int)
  /-- SLOT_WRITE_END (R111). The erase, write and read-back of a flash image slot finishes, ending IMG_WRITE with success or 0x0E15. -/
  | slotWriteEnd (ok : Bool)
  /-- LANE_MARKERS_MISSING (R446). Lane markers are missing on a lane for 4 consecutive frames, so the link loses its footing and retrains
  from stage 2. -/
  | laneMarkersMissing (link : Fin 4)
  /-- SMBUS_TRANSACTION (R510). An SMBus master issues a PMBus-style command, such as a PAGE write or a READ_VOUT, and the device answers
  or stores PAGE. -/
  | smbusTransaction (code : BitVec 8) (write : Option (BitVec 8)) (addr : BitVec 7 := 0x58)
  /-- TAP_INSTRUCTION_UPDATE (R550). A new IEEE 1149.1 instruction takes effect in the TAP; under EXTEST-class instructions the ports are
  seen as safe and open shots fail with cause hold. -/
  | tapInstructionUpdate (ir : BitVec 8)
  /-- WT_STEP_APPLY (R418). At the step's tick the FORCE check is made and wall time is stepped or the command fails. -/
  | wtStepApply
  /-- IMG_REBOOT_RESET (R113). One millisecond after the IMG_REBOOT completion the die reset takes place. -/
  | imgRebootReset
  /-- EVT_LOG_ENABLE (R57). Host write of ENABLE 1 that starts the event-log ring empty. -/
  | evtLogEnable
  /-- EVT_LOG_DISABLE (R57). Host write of ENABLE 0 that stops log records. -/
  | evtLogDisable
  /-- PCIE_LINK_DOWN (R30). The host link goes down; programs run on and completions wait. -/
  | pcieLinkDown
  /-- FUNCTION_LEVEL_RESET (R38). Resets BAR0, stops rings, fails owned descriptors and disables mailboxes and log. -/
  | functionLevelReset
  /-- PCIE_CONVENTIONAL_RESET (R94). PERST_N, hot reset or link disable resets the PCIe controller and BAR0 as for FLR. -/
  | pcieConventionalReset
  /-- REF_PULL_IN (R119). After REF_P/N has been present 100 ms the PLL slews onto it. -/
  | refPullIn
  /-- PLL_LOCK (R123). The PLL locks; lattice time starts or the lattice-unlock safe cause ends. -/
  | pllLock
  /-- PLL_UNLOCK (R30). The PLL loses lock; outputs go safe, the program halts and open shots fail. -/
  | pllUnlock
  /-- ORF_WARM_SET (R11). The oven has held 85 °C within 0.02 K for 60 s and ORF_WARM sets. -/
  | orfWarmSet
  /-- OVEN_WARM_LOST (R120). The oven leaves its setpoint band for over 1 s and ORF_WARM clears. -/
  | ovenWarmLost
  /-- OVEN_FAULT (R120). The oven fails to reach setpoint within 600 s or VDD_OVEN is absent. -/
  | ovenFault
  /-- MERIDIAN (R28). A meridian occurs and the ordered meridian actions run. -/
  | meridian (adc : AdcSide := {}) (failed : Bool := false)
  /-- EPOCH_TIMER_CLOSE (R467). 64 µs pass without a meridian close and a copy epoch is closed. -/
  | epochTimerClose
  /-- SHOT_OPEN (R25). Every ray has passed the MERID of the previous shot and the next shot token is issued. -/
  | shotOpen
  /-- SYNC_WINDOW_CLOSE (R130). A SYNC window closes without an edge and the meridian is fixed on schedule. -/
  | syncWindowClose
  /-- LAT_LOAD_TIMEOUT (R149). An armed load reaches TIMEOUT_MS without an edge and fails with 0x0215. -/
  | latLoadTimeout
  /-- ENV_COPY_END (R166). A staged envelope copy ends, releasing held reads and starting the next copy. -/
  | envCopyEnd
  /-- DEADLOCK_DETECT (R206). The fabric detects that no barrier or MERID can complete and stops the program. -/
  | deadlockDetect
  /-- GROUP_ARM_AT (R351). At ARM_AT members arm their group units and the master completes. -/
  | groupArmAt
  /-- GROUP_FIRE_DECIDE (R352). At T+FIRE_DELAY the earliest fire wins and every group unit records. -/
  | groupFireDecide
  /-- TRIM_RECOMPUTE (R366). Trims in force are recomputed from facets and residuals. -/
  | trimRecompute
  /-- CAL_RUN_END (R380). A calibration run ends, applies its results and commits. -/
  | calRunEnd
  /-- CAL_TIMED_COMMIT (R382). COMMIT_S seconds pass with a changed entry and a commit begins. -/
  | calTimedCommit
  /-- TIM_WINDOW_OPEN (R402). A measurement window opens and starts looking for its start. -/
  | timWindowOpen
  /-- TIM_WINDOW_CLOSE (R403). A measurement window closes with edges missing and fails with timeout. -/
  | timWindowClose
  /-- HOLD_PRESSED (R436). HOLD_N has been low for 5 ms and the hold begins. -/
  | holdPressed
  /-- HOLD_RELEASED (R436). HOLD_N has been high for 5 ms and the hold ends or stays latched. -/
  | holdReleased
  /-- CORE_RESIGN (R472). The active core resigns and the standby takes over at once. -/
  | coreResign
  /-- DEPOSED_LATCH_SEEN (R473). A deposed core sees the latch, abandons its work and is held in reset. -/
  | deposedLatchSeen
  /-- RESYNC_COMPLETE (R480). Resynchronisation completes and the standby enters state 4, 5 or 6. -/
  | resyncComplete
  /-- SHADOW_MISMATCH (R481). The comparator finds a standby token differing from the release stream. The operand names the tokens, by their
  place in its run, that an error of the standby has changed. -/
  | shadowMismatch (faults : List (Nat × ShadowTok) := [])
  /-- BIST_ERROR (R482). The standby memory BIST detects an error and resynchronisation starts. -/
  | bistError
  /-- BAND_FALL (R497). T_down stays 2 K below the band for 1 s and the band falls by one. -/
  | bandFall
  /-- THERMAL_WARNING_CLEAR (R498). T_down stays below 93 °C for 1 s and the warning clears. -/
  | thermalWarningClear
  /-- THROTTLE_RELEASE (R499). T_down stays below the release level for 100 ms. -/
  | throttleRelease
  /-- THERMAL_RESTART (R504). Comparators stay below 85 °C for 10 s and the die restarts. -/
  | thermalRestart
  /-- LEDGER_CHECK (R526). Every 1 ms each ledger identity is checked. -/
  | ledgerCheck
  /-- LOG_RECORD_WRITE (R521). Firmware takes an event interrupt and writes its log record. -/
  | logRecordWrite
  /-- PULL_IN_COMPLETE (R119). The PLL finishes slewing onto the new reference and now follows it, ending LAT_REF_SELECT. -/
  | pullInComplete
  /-- TIM_LATTICE_START (R402). With START_SRC 64, the start of a TIM measurement is taken at the instant START_AT inside the open window. -/
  | timLatticeStart
  /-- FAULT_HALT (R472). Firmware fault-halts, HIF_STATE.STATE becomes 4, doorbells stop being accepted and the core resigns. -/
  | faultHalt
deriving DecidableEq, Repr

end Sys2Proof
end

