-- ==== Sys2Proof/Decode.lean ====
section
/-! DEFINITION. Decoding of table words. The Vyril is a block whose commands arrive as accesses and events: no row of
spec/opcode_table.json gives bits, so no word spells a command. -/

namespace Sys2Proof

/-- The command a word spells by the table's bits: the table gives none of its 279 rows any bits (log entry 16). -/
def decodeTableWord (_nbits _w : Nat) : Option Instr := none

end Sys2Proof
end

