-- ==== Sys2Proof/Config.lean ====
section
/-! DEFINITION. What the spec leaves open or fixes by reference: free values (no body, so no proof can see one) and the
constants of the release this manual describes (R5, R43, R104). -/

namespace Sys2Proof

/-- The n-th free value: any natural number (log entry 11). Applied to the counter that State holds. -/
opaque Config.free : Nat → Nat

/-- SHA-384 of FIPS 180-4, which R101 names and does not spell out (log entry 10). -/
opaque Config.sha384 : List Byte → List Byte

/-- Verification of an ECDSA P-384 signature (FIPS 186-5): key, message, signature (log entry 10). -/
opaque Config.ecdsaOk : List Byte → List Byte → List Byte → Bool

/-- The digest held by fused key entry 0 to 3; `none` for an unprogrammed entry (R101, log entry 10). -/
opaque Config.fusedKey : Nat → Option (List Byte)

/-- The sensor cell that contains a port index (R365): a fact of the die that the manual does not list (log entry 40). -/
opaque Config.cellOf : Nat → Nat

/-- e^(j2πW/2^32) of a phase word W, real part and imaginary part in 1/2^30 (R155, R251); the manual gives no word width (log entry 99). -/
opaque Config.carrier : Nat → IQ

/-- The fractional-delay interpolator of R153 and R155: the envelope at `pos` 1/4096 ns after the vertex, or before it where `pos` is
negative, parts in 1/2^30, from the samples of the template; the manual gives no coefficients (log entry 99). -/
opaque Config.interpolate : List IQ → Int → IQ

/-- Sample `n` of a signal after a DELAY trim (R153, R249); the manual gives no filter for it (log entry 99). -/
opaque Config.delayed : Int → List Int → Nat → Int

/-- The decimating filter of R249 and R252: output sample `n` in 1/128 of an output step, from FILTER and the mixed ADC samples; the
manual gives no coefficients (log entry 99). -/
opaque Config.decimate : Nat → List IQ → Nat → IQ

/-- The codes through which a calibration run steps a flux port's DC DAC; the manual gives none of the five (R378, log entry 110). -/
opaque Config.dcStep : Nat → Int

/-- How far the blinking of an indicator source is into its period when the raw counter stands at 0, in ns (R438 gives no phase, log
entry 47). -/
opaque Config.blinkPhase : Nat → Nat

/-- The seed of lane m's PRBS-31 sequence in stage 2, and the 32 UI of the lane marker, UI 0 in bit 0 (R442, R448); the manual gives
neither (log entry 114). -/
opaque Config.laneSeed : Nat → Nat
opaque Config.laneMarker : Nat

/-- How far beyond 2 hops a member of a domain lies that is no direct peer (R455, log entry 48): by DOMAIN_ID and DEV. -/
opaque Config.farHops : Nat → Nat → Nat

/-- Stepping B0, as HIF_STEP reads it (R43). -/
def Config.step : Nat := 0xB0
/-- ROM revision of stepping B0 (R104). -/
def Config.romRevision : Nat := 0x0B03
/-- IL_LOW and IL_HIGH of recovery firmware and of release 4.1 (R43, R104). -/
def Config.ilLow : Nat := 7
def Config.ilHigh : Nat := 9
/-- The firmware-reserved region at the top of DDR5 for release 4.1, in MiB (R44). -/
def Config.reservedMiB : Nat := 256
/-- Period of the lattice after reset (R127) and SYNC_LEAD after reset (R148). -/
def Config.resetPeriod : Nat := 100000
def Config.resetSyncLead : Nat := 2096

end Sys2Proof
end

