-- ==== Sys2Proof/Machine/State.lean ====
section
/-! DEFINITION. Everything the spec gives the Vyril to hold, as plain data, and the state after a reset.
Counters and times are natural numbers kept below their width by the operations that write them; registers the manual
numbers are bit vectors. A `Store` lists only what differs from its reset value. INVENTORY.md lists each field's rule. -/

namespace Sys2Proof.Machine

/-- Port count of the part (R8). -/
inductive PortCount where
  | vy96 | vy64 | vy32
deriving DecidableEq, Repr

/-- The fused configuration (R7, R11, R43). -/
structure Fuse where
  ports : PortCount := .vy96
  duplex : Bool := true
  oven : Bool := true
  serial : BitVec 64 := 1
deriving DecidableEq, Repr

/-- HIF_STATE.STATE (R43). -/
inductive DevState where
  | bootRom | imageLoading | ready | restricted | faultHalted
deriving DecidableEq, Repr

/-- Identity, link, window, error and shadow registers of BAR0 (R17, R42, R43, R44). `rlShadow` holds each RL register's shadow at the
offset of its low half. -/
structure Hif where
  state : DevState := .bootRom
  restrict : Nat := 0
  lock : Bool := false
  orfWarm : Bool := false
  redund : Nat := 0
  core : Bool := false
  fwMajor : Nat := 0
  fwMinor : Nat := 0
  fwBuild : Nat := 0
  ilLow : Nat := 0
  ilHigh : Nat := 0
  scratch : BitVec 32 := 0
  linkUp : Bool := false
  linkSpeed : Nat := 0
  linkWidth : Nat := 0
  linkFlit : Bool := false
  linkDegraded : Bool := false
  bar2Win : BitVec 3 := 0
  ddrGib : BitVec 16 := 0
  ddrResv : BitVec 16 := 0
  err : BitVec 4 := 0
  errAddr : BitVec 64 := 0
  rlShadow : Store (BitVec 32) := []
  lowHalf : Store (BitVec 32) := []
deriving DecidableEq, Repr

/-- A wall-time pulse generator (R411, R420); `pulsePin` is the pin of the pulse in progress, which ends at `pulseEnd`. -/
structure WallGen where
  on : Bool := false
  pin : Nat := 0
  continuous : Bool := false
  lowPulse : Bool := false
  width : Nat := 0
  target : Nat := 0
  period : Nat := 0
  left : Nat := 0
  pulseEnd : Option Nat := none
  pulsePin : Nat := 0
  stopping : Bool := false
deriving DecidableEq, Repr

/-- Lattice time and wall time (R45, R123, R124, R408, R409). -/
structure Time where
  lat : Nat := 0
  counting : Bool := false
  suspect : Bool := false
  merid : Nat := 0
  loads : Nat := 0
  raw : Nat := 0
  w0 : Nat := 0
  r0 : Nat := 0
  rate : Int := 0
  stepped : Bool := false
  steps : Nat := 0
  pulsesSkipped : Nat := 0
  gens : Store WallGen := []
deriving DecidableEq, Repr

/-- A finished command on its way to the completion ring (R70 to R73). `after` names the commands whose entries go out first (R93). -/
structure Completion where
  tag : Nat := 0
  op : Nat := 0
  status : Nat := 0
  slot : Nat := 0
  staged : Bool := false
  detail : Nat := 0xFFFF
  seq : Nat := 0
  imm : Nat := 0
  lt : Nat := 0
  raddr : Nat := 0
  rlen : Nat := 0
  result : List Byte := []
  waitsEpoch : Bool := false
  acceptEpoch : Nat := 0
  after : List Nat := []
deriving DecidableEq, Repr

/-- The registers of one mailbox, its posted slots (IN_USE counts them) and its held completions (R46, R62, R73). -/
structure Mailbox where
  base : BitVec 64 := 0
  log2 : BitVec 5 := 0
  head : BitVec 16 := 0
  tail : BitVec 16 := 0
  enable : Bool := false
  posted : BitVec 64 := 0
  done : BitVec 64 := 0
  busy : List Nat := []
  held : List Completion := []
deriving DecidableEq, Repr

/-- A command accepted and not ended: its slot bytes, bulk payload and progress (R64, R77, R80). `noSlot`: a Function Level
Reset freed its slot (R38); `dead`: a switch-over will end it with 0x001E (R85). -/
structure Cmd where
  mb : Nat := 0
  slot : Nat := 0
  seq : Nat := 0
  epoch : Nat := 0
  bytes : List Byte := []
  payload : List Byte := []
  begun : Bool := false
  staged : Bool := false
  noSlot : Bool := false
  dead : Bool := false
  aux : Nat := 0
deriving DecidableEq, Repr

/-- The pin of a mailbox and its HOST_ID (R82, R91). -/
structure Pin where
  level : Nat := 0
  hostId : Nat := 0
deriving DecidableEq, Repr

/-- DMA ring states (R48). -/
inductive DmaState where
  | stopped | running | stopping | configError
deriving DecidableEq, Repr

/-- The registers of one DMA ring (R48). `cut`: STOP found the descriptor at HEAD in progress, with so many bytes moved (R51);
`owns` counts the descriptors that the device owns (R525). -/
structure DmaRing where
  base : BitVec 64 := 0
  log2 : BitVec 5 := 0
  tail : BitVec 32 := 0
  head : BitVec 32 := 0
  stat : DmaState := .stopped
  done : BitVec 64 := 0
  fail : BitVec 64 := 0
  cut : Option Nat := none
  owns : BitVec 32 := 0
deriving DecidableEq, Repr

/-- What configuration space holds beside its identification (R34): the codes of the maximum payload and read-request sizes, ASPM L1, and the
status and header log of AER (log entry 90). -/
structure Pcie where
  payload : Fin 3 := 0
  readRequest : Fin 6 := 2
  aspmL1 : Bool := false
  uncorrectable : BitVec 32 := 0
  correctable : BitVec 32 := 0
  headerLog : BitVec 128 := 0
deriving DecidableEq, Repr

/-- One MSI-X table entry (R39). -/
structure Msix where
  addr : BitVec 64 := 0
  data : BitVec 32 := 0
  mask : Bool := true
deriving DecidableEq, Repr

/-- A raise whose log record firmware has still to write (R520, R521). `msg`: a message waits for the record (R55). -/
structure Raise where
  src : Nat := 0
  inst : Nat := 0xFFFF
  cause : Nat := 0
  shot : Nat := 0xFFFFFFFFFFFF
  lat : Nat := 0
  arg : Nat := 0
  flags : Nat := 0
  msg : Bool := false
deriving DecidableEq, Repr

/-- Event registers, event log and MSI-X (R54 to R57). -/
structure Evt where
  pend : BitVec 256 := 0
  en : BitVec 256 := 0
  pba : BitVec 256 := 0
  base : BitVec 64 := 0
  log2 : BitVec 5 := 0
  head : BitVec 32 := 0
  tail : BitVec 32 := 0
  enable : Bool := false
  lost : BitVec 64 := 0
  raised : List Raise := []
  msix : Store Msix := []
deriving DecidableEq, Repr

/-- An armed LAT_LOAD WHEN 1 (R149). -/
structure ArmedLoad where
  value : Nat
  falling : Bool
  deadline : Nat
  seq : Nat
deriving DecidableEq, Repr

/-- Reference, oven, PLL, SYNC following and the programmed period (R117 to R131, R145); `restoredAt` is the raw tick at which REF_P/N last
became present again (R119). -/
structure Lattice where
  refPN : Bool := false
  presentPN : Bool := true
  presentOsc : Bool := true
  holdover : Bool := false
  fallback : Bool := false
  pullIn : Bool := false
  pullSeqs : List Nat := []
  restoredAt : Nat := 0
  ovenFault : Bool := false
  warmAt : Nat := 0
  everLocked : Bool := false
  period : Nat := Config.resetPeriod
  ext : Nat := 0
  follow : Bool := false
  falling : Bool := false
  lead : Nat := Config.resetSyncLead
  followFrom : Nat := 0
  syncIn : Nat := 0
  syncOut : Nat := 0
  syncMissing : Nat := 0
  lastDelta : Int := 0
  armed : Option ArmedLoad := none
deriving DecidableEq, Repr

/-- One canary ring (R138, R142). -/
structure Canary where
  slack : Nat := 332
  failed : Bool := false
  good : Nat := 0
deriving DecidableEq, Repr

/-- The canary rings and slack alarms of one core (R138 to R142). -/
structure Slack where
  rings : Store Canary := []
  low : Bool := false
  lowRun : Nat := 0
  critical : Bool := false
  critRun : Nat := 0
  throttled : Bool := false
deriving DecidableEq, Repr

/-- Late and other discards of one release stage (R151). -/
structure Discards where
  late : Nat := 0
  other : Nat := 0
deriving DecidableEq, Repr

/-- Configuration of a port: drive and probe (R182, R267), flux (R187), acquire (R269). -/
structure PortCfg where
  enable : Bool := false
  fsCode : Nat := 96
  range : Bool := false
  safeMode : Bool := false
  pulseRange : Bool := false
  safeDc : Int := 0
deriving DecidableEq, Repr

/-- What keeps a port in the safe condition (R172). -/
inductive SafeCause where
  | disabled | hold | unplug | unlock | coreFault | restricted | tap
deriving DecidableEq, Repr

/-- A running DC ramp (R176): start level, raw tick of the start, length, and its command's ACCEPT_SEQ. -/
structure Ramp where
  start : Int
  raw : Nat
  ns : Nat
  seq : Nat
deriving DecidableEq, Repr

/-- One port, index of R151 (R172, R175, R176, R181, R270, R433 to R435). `prev` holds earlier configurations, oldest first, each with
the last shot it governs (R165); `entered` is the cause by which the port became safe; `summedTo` the instant, in 1/16 ns of lattice
time, up to which samples have been counted (R168); `heldCode` the code a held port shows (R174); `zeroed` when an acquire
port delivered zeros, in eighths of a nanosecond (R374, R378); `lastBusy` the last raw tick at which it had an item queued or playing
(R432). -/
structure Port where
  cfg : PortCfg := {}
  prev : List (Nat × PortCfg) := []
  off : Bool := true
  held : Bool := false
  safe : Bool := true
  causes : List SafeCause := [.disabled]
  entered : SafeCause := .disabled
  summedTo : Nat := 0
  heldCode : Int := 0
  zeroed : List (Nat × Nat) := []
  lastBusy : Option Nat := none
  released : Nat := 0
  clipped : Nat := 0
  underrun : Nat := 0
  windows : Nat := 0
  discarded : Nat := 0
  overRange : Nat := 0
  endsSeen : List (Nat × Nat) := []
  dc : Int := 0
  target : Int := 0
  ramp : Option Ramp := none
  sense : Nat := 0
  lastSense : Nat := 0
  resumed : Bool := false
deriving DecidableEq, Repr

/-- A frame or tone (R156, R246): frame sample count s_f is s0 + 16 × (R − r0). `epoch` counts LAT_LOADs. -/
structure Frame where
  ftw : Nat := 0
  z : Nat := 0
  s0 : Nat := 0
  r0 : Nat := 0
  epoch : Nat := 0
deriving DecidableEq, Repr

/-- A locus (R198). -/
structure Locus where
  port : Nat := 0
  frame : Nat := 0
  flags : BitVec 16 := 0
  envAddr : Nat := 0
  envLen : Nat := 0
  duration : Nat := 0
  amp : Nat := 0
  theta : Nat := 0
  ftw : Nat := 0
  vz : Nat := 0
  streamAddr : Nat := 0
  label : Nat := 0
deriving DecidableEq, Repr

/-- Trims in force of a port (R364, R365). -/
structure Trim where
  delay : Int := 0
  phase : Nat := 0
  gain : Nat := 32768
  dcofs : Int := 0
  dcgain : Int := 0
  dflt : Bool := true
deriving DecidableEq, Repr

/-- What a token is: a frame update, or an item bound for a release stage (R221). -/
inductive TokKind where
  | setf | vz | play | window | mark
deriving DecidableEq, Repr

/-- A token of the fabric, and the item it becomes at a release stage (R23, R125, R133, R159, R201, R207). `data` holds the envelope
samples that the engine has read for it (R153, R169); `trim` a window's trims, those in force as it opens (R366); `ordinal` its
`place` among the run's windows (R310). -/
structure Tok where
  kind : TokKind
  ray : Nat := 0
  shot : Nat := 0
  stage : Nat := 0
  frame : Nat := 0
  voff : Nat := 0
  locusIx : Nat := 0
  locus : Locus := {}
  operand : Nat := 0
  badLocus : Bool := false
  framed : Bool := false
  car : Frame := {}
  len : Nat := 0
  chan : Nat := 0
  trace : Bool := false
  addr : Nat := 0
  count : Nat := 0
  arrival : Option Nat := none
  vertex : Option Nat := none
  held : Bool := false
  deferred : Bool := false
  jumpDone : Bool := false
  got : Nat := 0
  played : Nat := 0
  data : List IQ := []
  zeros : List (Nat × Nat) := []
  trim : Trim := {}
  ordinal : Nat := 0
  traced : Bool := false
deriving DecidableEq, Repr

/-- One release stage (R133): its queue in vertex order, the items playing, the windows open or awaiting their state; `tails` are items
that have ended, while the interpolator's filter may still ring (R155). -/
structure Stage where
  queue : List Tok := []
  playing : List Tok := []
  tails : List Tok := []
  lastWindow : Option Nat := none
deriving DecidableEq, Repr

/-- A ray's activity, as RAY_STATUS reports it (R213). -/
inductive RayState where
  | idle | running | blocked | chord (gd table : Nat) | barrier (b : Nat) (align : Bool) | merid | opening | halted
deriving DecidableEq, Repr

/-- One ray (R189). -/
structure Ray where
  st : RayState := .idle
  pc : Nat := 0
  g : Store (BitVec 64) := []
  loops : List (Nat × Nat) := []
  c : BitVec 64 := 0
  shot : Nat := 0
deriving DecidableEq, Repr

/-- A resident program (R194, R196). -/
structure Prog where
  base : Nat
  words : Nat
  margin : Nat
  rays : List (Nat × Nat)
  barriers : List (BitVec 128)
deriving DecidableEq, Repr

/-- A failure of a shot (R27, R523): instant in 1/4096 ns, INSTANCE, cause, DETAIL of the shot status, and whether an item failed (R524). -/
structure ShotFail where
  at4096 : Nat
  inst : Nat
  cause : Nat
  detail : Nat
  item : Bool := true
deriving DecidableEq, Repr

/-- A shot not yet decided: what it has collected (R25 to R27, R168, R170, R293, R319, R428). -/
structure Shot where
  num : Nat
  opened : Bool := true
  period : Nat := 0
  fails : List ShotFail := []
  failures : Nat := 0
  deferred : Nat := 0
  clip : Store Nat := []
  under : Store Nat := []
  overRange : List Nat := []
  sat : Store (BitVec 16) := []
  fallbacks : List (Nat × Nat × Nat) := []
  comparePeriods : Nat := 0
  postDrop : Store Nat := []
  rpOverflow : Store Nat := []
deriving DecidableEq, Repr

/-- The status of a decided shot (R524). -/
structure ShotStatus where
  shot : Nat
  cause : Nat
  inst : Nat
  failures : Nat
  deferred : Nat
  detail : Nat
  decided : Nat
deriving DecidableEq, Repr

/-- A window of the run: its shot, channel, vertex, and its place among those of equal vertex (R133, R310). -/
structure RunWindow where
  shot : Nat
  chan : Nat
  voff : Nat
  place : Nat
deriving DecidableEq, Repr

/-- The run of a program (R127, R130, R208 to R213): `k` numbers the next meridian to occur, `next` is its instant; `mers` the meridians
that have occurred, with their instants, newest first; `windows` every window issued (R310); `absent`
the rings found absent, per shot (R262); `endAt` the instant at which the program ended. -/
structure Run where
  active : Bool := false
  progId : Nat := 0
  everRun : Bool := false
  continuous : Bool := false
  shots : Nat := 0
  stopping : Option Nat := none
  stopSeqs : List Nat := []
  endReason : Nat := 0
  shotNext : Nat := 0
  issued : Nat := 0
  completed : Nat := 0
  failed : Nat := 0
  deferred : Nat := 0
  m0 : Nat := 0
  k : Nat := 0
  next : Nat := 0
  fixed : Bool := false
  delta : Int := 0
  period : Nat := 0
  lost : Nat := 0
  lastHalt : Nat := 0
  switching : Bool := false
  mers : List (Nat × Nat) := []
  windows : List RunWindow := []
  absent : List (Nat × Nat) := []
  endAt : Nat := 0
  before : List (Nat × Nat) := []
  beforeEnd : Nat := 0
deriving DecidableEq, Repr

/-- A chord selector (R316), kept as its 32-bit word; a decision table (R316 to R318, R329). -/
structure Table where
  deadline : Nat := 0
  fallback : Nat := 0
  sel : Store (BitVec 32) := []
  entries : Store (BitVec 32) := []
deriving DecidableEq, Repr

/-- Read-out processor kernel as loaded (R295, R301). -/
structure Kernel where
  post : Bool
  tag : Nat
  base : Nat
  words : Nat
  entry : Nat
  cycles : Nat := 0
  cyclesLoop : Nat := 0
  slowNs : Nat := 0
deriving DecidableEq, Repr

/-- An address pointer of an RP (R275, R280). -/
structure Ptr where
  addr : Nat := 0
  mode : Nat := 0
  k : Nat := 0
  step : Int := 1
deriving DecidableEq, Repr

/-- A result passed to a read-out processor (R261, R291); `lat` its state instant on the lattice time now in force. -/
structure RpResult where
  shot : Nat := 0
  chan : Nat := 0
  state : Nat := 0
  cause : Nat := 0
  i : Int := 0
  q : Int := 0
  lat : Int := 0
  ordinal : Nat := 0
deriving DecidableEq, Repr

/-- What a read-out processor is doing (R308). -/
inductive RpMode where
  | none | idle | running | attached | paused
deriving DecidableEq, Repr

/-- One read-out processor (R275, R276, R290 to R296, R308). -/
structure Rp where
  acc : Store Int := []
  ovf : BitVec 4 := 0
  satst : Bool := false
  codew : Bool := false
  ptr : Store Ptr := []
  c : Store Nat := []
  state : BitVec 2 := 0
  res : RpResult := {}
  pc : Nat := 0
  mem : Store (BitVec 32) := []
  kernel : Option Kernel := none
  mode : RpMode := .none
  maxUs : Nat := 0
  seq : Nat := 0
  startLat : Nat := 0
  pausedNs : Nat := 0
  pausedAt : Nat := 0
  cycles : Nat := 0
  queue : List RpResult := []
  detaching : Bool := false
  detachSeqs : List Nat := []
  postRing : Nat := 0
  waiting : Bool := false
  taken : Nat := 0
  dropped : Nat := 0
  emitted : Nat := 0
deriving DecidableEq, Repr

/-- A calibration entry (R364, R368). -/
structure Entry where
  delay : Int := 0
  phase : Nat := 0
  gain : Nat := 0
  temp : Int := 0
  dcofs : Int := 0
  dcgain : Int := 0
  valid : Bool := false
  source : Nat := 0
  wt : Nat := 0
deriving DecidableEq, Repr

/-- Live residuals of a port (R365, R375). -/
structure Resid where
  delay : Int := 0
  phase : Nat := 0
  gain : Nat := 32768
deriving DecidableEq, Repr

/-- Due state of a port (R371, R375, R376); `markedAt` is the raw tick of the last FS_CODE change, relock or load. -/
structure Due where
  markedAt : Option Nat := none
  due : Bool := false
  urgent : Bool := false
  since : Nat := 0
  lastTemp : Int := 400
  lastAt : Nat := 0
  rejects : Nat := 0
  fault : Bool := false
  starved : Bool := false
deriving DecidableEq, Repr

/-- Per-core state: what copy epochs carry (R466). `frameDefer`: frame changes with the meridian they were applied at (R227); `frameDone`:
those that have taken their place lately (R477); `tablesPrev` and `exportsPrev`: earlier decision tables and export masks, oldest first,
each with the last shot they govern (R320, R328). -/
structure Core where
  progMem : Store (BitVec 64) := []
  progs : Store (Option Prog) := []
  loci : Store Locus := []
  rays : Store Ray := []
  frames : Store Frame := []
  fabric : List Tok := []
  frameDefer : List (Nat × List Byte) := []
  frameDone : List (Nat × List Byte) := []
  run : Run := {}
  shots : List Shot := []
  statuses : List ShotStatus := []
  tables : Store Table := []
  tablesPrev : List (Nat × Store Table) := []
  exports : Store (BitVec 192 × BitVec 192) := []
  exportsPrev : List (Nat × Store (BitVec 192 × BitVec 192)) := []
  rps : Store Rp := []
  cmds : List Cmd := []
  nextSeq : Nat := 1
  pins : Store Pin := []
  facets : Store Entry := []
  resid : Store Resid := []
  due : Store Due := []
deriving DecidableEq, Repr

/-- Configuration of a read-out channel (R260, R271 to R274). `lag` is what lattice time was set back by since the channel was set (R158). -/
structure ChanCfg where
  enable : Bool := false
  postk : Bool := false
  filter : Nat := 0
  gain : Nat := 0
  ring : Nat := 0
  ftw : Nat := 0
  z : Nat := 0
  epoch : Nat := 0
  lag : Int := 0
  nb : Nat := 0
  map : Nat := 0
  bnd : Store (Int × Int × Int) := []
  stride : Nat := 0
  weights : Store IQ := []
deriving DecidableEq, Repr

/-- One read-out channel (R253, R254, R258, R274). `prev` as of a port; `invalid` holds the intervals of invalid samples (R254). -/
structure Chan where
  cfg : ChanCfg := {}
  prev : List (Nat × ChanCfg) := []
  invalid : List (Nat × Nat) := []
  saturated : Nat := 0
  windows : Nat := 0
  states : Store Nat := []
  lastClose : Nat := 0
deriving DecidableEq, Repr

/-- A chord (R309, R310). `state` none is a missing marker. -/
structure Chord where
  dev : Nat := 0
  slow : Bool := false
  chan : Nat := 0
  ord : Nat := 0
  shot : Nat := 0
  state : Option (BitVec 2) := none
deriving DecidableEq, Repr

/-- The chord store, chords waiting for link slots, and the counters of CH_STATUS (R312, R313, R332). -/
structure Chords where
  store : List Chord := []
  fastSent : Nat := 0
  slowSent : Nat := 0
  missingSent : Nat := 0
  remoteRecv : Nat := 0
  decisions : Nat := 0
  fbMissing : Nat := 0
  fbLate : Nat := 0
  slotDefer : Nat := 0
deriving DecidableEq, Repr

/-- An entry offered to a ring, waiting to be written (R336, R339, R262). -/
structure Offer where
  bytes : List Byte
  kind : Bool
  shot : Option Nat := none
  inst : Nat := 0
  at4096 : Nat := 0
  unit : Option Nat := none
  cause : Nat := 0
deriving DecidableEq, Repr

/-- Geometry of a ring (R337, R342). -/
structure Geometry where
  length : Nat := 0
  slot : Nat := 0
  base : Nat := 0
deriving DecidableEq, Repr

/-- One ring (R336 to R342). -/
structure AcqRing where
  enabled : Bool := false
  everEnabled : Bool := false
  kind : Bool := false
  geo : Geometry := {}
  ctrl : Nat := 0
  staged : Option Geometry := none
  written : Nat := 0
  idx0 : Nat := 0
  gen : Nat := 0
  dropped : Nat := 0
  offered : Nat := 0
  rebased : Nat := 0
  read : Nat := 0
  fullRaised : Bool := false
  badRead : Bool := false
  offers : List Offer := []
deriving DecidableEq, Repr

/-- Configuration of a capture unit (R358). -/
structure UnitCfg where
  edge : Bool := false
  demod : Bool := false
  ring : Nat := 0
  aport : Nat := 0
  ch : Nat := 0
  tsrc : Nat := 0
  tflags : BitVec 8 := 0
  level : Int := 0
  hyst : Nat := 0
  pre : Nat := 0
  len : Nat := 64
  holdoff : Nat := 0
  mask : BitVec 8 := 0
deriving DecidableEq, Repr

/-- States of a capture unit (R344). -/
inductive UnitState where
  | idle | armed | capturing | rearming | waitingGroup
deriving DecidableEq, Repr

/-- One capture unit (R343 to R350, R363). Instants in eighths of a nanosecond on the lattice time now in force, below 0 where a LAT_LOAD has
set it back: `seen` is that of the next value of its source, `history` the values before it, one for every eighth, as long as 8,192
samples (R256), and `primed` the priming of a rising and of a falling trigger. -/
structure CapUnit where
  cfg : UnitCfg := {}
  maskTab : Store (Int × Int) := []
  st : UnitState := .idle
  continuous : Bool := false
  left : Nat := 0
  seq : Nat := 0
  trig : Int := 0
  trigShot : Nat := 0
  trigRemote : Bool := false
  history : List IQ := []
  seen : Int := 0
  primed : Bool × Bool := (false, false)
  origin : Nat := 0
  lastEnd : Int := 0
  armedAt : Int := 0
  first : Bool := true
  missedNow : Nat := 0
  violRaised : Bool := false
  absentRaised : Bool := false
  missedRec : Nat := 0
  stopSeqs : List Nat := []
  deadMax : Nat := 0
  records : Nat := 0
  failed : Nat := 0
  missed : Nat := 0
  violating : Nat := 0
  lateFires : Nat := 0
deriving DecidableEq, Repr

/-- A group capture this device takes part in (R351 to R353). Instants of fires in eighths. -/
structure GroupCap where
  armed : Bool := false
  waiting : Bool := false
  continuous : Bool := false
  count : Nat := 0
  armAt : Nat := 0
  fireDelay : Nat := 0
  cycle : Nat := 0
  fires : List (Nat × Nat) := []
  busyUntil : Nat := 0
  prevBusy : Nat := 0
  lastT : Nat := 0
  lastOrigin : Nat := 0
deriving DecidableEq, Repr

/-- An ACQ_GROUP_ARM of this device, the master, that waits for ARM_AT (R351): its command, the members named, those that have armed and
those that have answered. -/
structure MasterArm where
  seq : Nat
  armAt : Nat
  members : BitVec 16
  acks : BitVec 16
  replied : BitVec 16
deriving DecidableEq, Repr

/-- The acquisition engine (12). -/
structure Acq where
  rings : Store AcqRing := []
  units : Store CapUnit := []
  group : GroupCap := {}
  masters : List MasterArm := []
deriving DecidableEq, Repr

/-- One measurement of a run in progress (R379): its temperature, the facet it goes to, if any, and when it was made. -/
structure RunDone where
  meas : RunMeas
  temp : Int
  facet : Option Nat
  wt : Nat
  raw : Nat
deriving DecidableEq, Repr

/-- A slot of the calibration store (R381): its 64-byte header, and how many bytes of the table have been programmed; what has not been is
erased. The entries of the table are in `Cal.stores`. -/
structure CalSlot where
  header : List Byte := List.replicate 64 0xFF
  written : Nat := 0
deriving DecidableEq, Repr

/-- Background slices, runs, commits and the calibration store (R370 to R383, R389). `errors` are those the last slice found (R370);
`runTemps` sums and counts each cell's readings in the interval of the group being measured (R379); `commitAt` is the raw tick at
which the interval of timed commits began (R382). -/
structure Cal where
  trims : Store Trim := []
  background : Bool := true
  commitS : Nat := 600
  trimsWaiting : List (Nat × Nat × Trim) := []
  slice : List Nat := []
  sliceAt : Option Nat := none
  sliceAcq : Bool := false
  sliceRaw : Nat := 0
  errors : List SliceMeas := []
  slices : Nat := 0
  skips : Nat := 0
  runOn : Bool := false
  runState : Nat := 0
  runCause : Nat := 0
  runPorts : List Nat := []
  runFluxDc : Bool := false
  runDone : List RunDone := []
  runTemps : Store (Int × Nat) := []
  runNext : Nat := 0
  runStart : Nat := 0
  runEnd : Nat := 0
  assigned : Store Nat := []
  unassigned : Nat := 0
  changed : Bool := false
  committing : Option (Store Entry) := none
  commitSeq : Option Nat := none
  commitQueue : List (Option Nat) := []
  commitWt : Nat := 0
  commitAt : Nat := 0
  slot : Nat := 0
  gen : Nat := 0
  slots : CalSlot × CalSlot := ({}, {})
  stores : Store Entry := []
  empty : Bool := false
deriving DecidableEq, Repr

/-- Conditioning of an event input (R396 to R398, R414); `phase` counts rising and falling edges for the prescaler, `last` is
the instant of the edge passed last, in ps of the raw counter. -/
structure EvIn where
  hyst : Nat := 0
  prescale : Nat := 0
  holdoff : Nat := 2
  phase : Nat × Nat := (0, 0)
  last : Option Int := none
deriving DecidableEq, Repr

/-- One edge of a TIM result (R406). -/
structure TimEdge where
  tick : Nat := 0
  before : Nat := 0
  src : Nat := 0
  status : Nat := 2
deriving DecidableEq, Repr

/-- A TIM measurement (R400 to R407, R415). -/
structure Meas where
  id : Nat := 0
  startSrc : Nat := 0
  startFalling : Bool := false
  stopSrcs : List Nat := []
  window : Nat := 0
  openAt : Nat := 0
  startAt : Nat := 0
  isOpen : Bool := false
  calibrated : Bool := false
  calOk : Bool := true
  start : Option TimEdge := none
  stops : Store (Option TimEdge) := []
  warming : Bool := false
  scale : Nat := 0
  early : List (TimEdge × Bool) := []
  orphans : Nat := 0
  orphan : Option TimEdge := none
  held : Nat := 0
  ended : Nat := 0
  cause : Nat := 0
deriving DecidableEq, Repr

/-- The time-interval unit (R400, R416). -/
structure Tim where
  inputs : Store EvIn := []
  meas : Option Meas := none
  nextId : Nat := 1
  results : List Meas := []
deriving DecidableEq, Repr

/-- A marker vector (R421). -/
structure MkVector where
  states : BitVec 128 := 0
  tset : Nat := 0
  rep : Nat := 0
deriving DecidableEq, Repr

/-- A timing set (R423); key 2i is DRIVE_OFS of pin i, key 2i + 1 its STROBE_OFS. -/
structure TSet where
  period : Nat := 10
  ofs : Store Nat := []
deriving DecidableEq, Repr

/-- A compare failure record (R428). -/
structure CompareFail where
  shot : Nat
  addr : Nat
  strobe : Nat
  mask : BitVec 32
  rep : Nat
  observed : BitVec 32
deriving DecidableEq, Repr

/-- The MARK item playing: periods already strobed (R424, R428); pins have taken the states due before `drivenTo`. Instants in 1/128 ns of
the lattice time now in force, below 0 where a LAT_LOAD has set it back; `trim128` is by how much the DELAY trim has moved the item from its
place on the vertex timeline (log entry 125). -/
structure MarkPlay where
  item : Tok
  start128 : Int
  vec : Nat
  rep : Nat
  at128 : Int
  drivenTo : Int := 0
  trim128 : Int := 0
  fails : Nat := 0
deriving DecidableEq, Repr

/-- Marker pins, vectors and compares (15): `entered` as of a port; `idle`, `safeSt` and `pins` hold 0 driven low, 1 driven high, 2 high
impedance, 2 where not listed (R440); `owned` marks the pins of the pulse generators (R411). -/
structure Marker where
  vectors : Store MkVector := []
  tsets : Store TSet := []
  idle : Store Nat := []
  safeSt : Store Nat := []
  failShot : Bool := false
  pins : Store Nat := []
  play : Option MarkPlay := none
  safe : Bool := false
  causes : List SafeCause := []
  entered : SafeCause := .restricted
  owned : BitVec 32 := 0
  items : Nat := 0
  failPeriods : Nat := 0
  failStrobes : Nat := 0
  fails : List CompareFail := []
deriving DecidableEq, Repr

/-- HOLD_STATE (R440). -/
inductive HoldState where
  | released | waiting | inForce | latched
deriving DecidableEq, Repr

/-- HOLD_N, plug sense configuration, indicators, TAP, SMBus page (15, R510, R550). -/
structure Bench where
  hard : Bool := false
  latch : Bool := false
  pressed : Bool := false
  pressHard : Bool := false
  pressLatch : Bool := false
  hold : HoldState := .released
  gapOpens : List Nat := []
  resumeHold : Bool := false
  senseOff : BitVec 96 := 0
  auto : BitVec 96 := 0
  ind : Store Nat := []
  tap : BitVec 8 := 0x01
  smbAddr : Nat := 0x58
  page : Nat := 0
  lowSince : Option Nat := none
deriving DecidableEq, Repr

/-- A fire message (R443). -/
structure FireMsg where
  origin : Nat
  t : Nat
  copy : Bool := false
deriving DecidableEq, Repr

/-- A control message: TYPE 2 arm, 3 armed, 4 refused (R443). -/
structure CtrlMsg where
  type : Nat
  origin : Nat
  members : Nat := 0
  continuous : Bool := false
  copy : Bool := false
  fireDelay : Nat := 0
  armAt : Nat := 0
  count : Nat := 0
  cycle : Nat := 0
deriving DecidableEq, Repr

/-- A class-2 segment with its SEG_SEQ, the frames since it was sent, whether it goes out again, and whether a retrain has taken the credit
it held, so that it takes one anew, or gives none back (R447). -/
structure Segment where
  seq : Nat
  bytes : List Byte
  age : Nat := 0
  again : Bool := false
  lost : Bool := false
deriving DecidableEq, Repr

/-- One link frame as R442 lays it out. -/
structure LinkFrame where
  seq : Nat := 0
  slot : Nat := 0
  shotBase : Nat := 0
  timed : Bool := false
  ack : Nat := 0
  chords : List Chord := []
  fire : Option FireMsg := none
  ctrl : Option CtrlMsg := none
  creditRet : Nat := 0
  seg : Option Segment := none
deriving DecidableEq, Repr

/-- One device link (16). `chordQ` pairs a chord with the tick at which it is ready to leave; `sending` are new class-2
segments, `unacked` those sent; `held` are intact frames awaiting their release tick; `fires` and `ctrls` go out, `fireIn` and
`ctrlIn` have been released to the die; `lanes` is the last frame as its four lanes carried it and `scramble` where each lane's
PRBS-31 sequence stands (R442); `ackAtLock` is the last segment received before the bring-up in force, and `regained` are those of
them that have come again since (R447); stage times count the raw counter. -/
structure Link where
  enable : Bool := false
  idle : Bool := false
  ctleCodes : List Nat := [6, 7, 8, 9]
  ctle : Nat := 6
  stage : Nat := 0
  stageAt : Nat := 0
  failAt : Option Nat := none
  exitAt : Option Nat := none
  timed : Bool := false
  isIdle : Bool := false
  reversed : Bool := false
  reason : Nat := 0
  wasActive : Bool := false
  peerDev : Nat := 0
  peerDomain : Nat := 0
  peerDepth : Nat := 0
  peerSerial : Nat := 0
  peerMean : Option Int := none
  peerMeanSeq : Nat := 0
  delayFs : Int := 0
  crcErrors : Nat := 0
  crcWindow : Nat := 0
  crcWindowAt : Nat := 0
  crcTimes : List Nat := []
  retrains : Nat := 0
  misrouted : Nat := 0
  credits : Nat := 0
  outstanding : Nat := 0
  toReturn : Nat := 0
  seq : Nat := 0
  lastSlot : Option Nat := none
  segSeq : Nat := 0
  ack : Nat := 0
  sending : List (List Byte) := []
  unacked : List Segment := []
  segIn : List Segment := []
  held : List LinkFrame := []
  chordQ : List (Nat × Chord) := []
  fires : List FireMsg := []
  ctrls : List CtrlMsg := []
  fireAgain : Option FireMsg := none
  ctrlAgain : Option CtrlMsg := none
  fireIn : List FireMsg := []
  ctrlIn : List CtrlMsg := []
  seenFires : List (Nat × Nat) := []
  seenCtrls : List (Nat × Nat × Nat) := []
  lastTx : List Byte := []
  scramble : List Nat := [0, 0, 0, 0]
  lanes : List (BitVec 512) := []
  trainSeqs : List Nat := []
  retrainAt : Option Nat := none
  ackAtLock : Nat := 0
  regained : List Nat := []
  lostSegs : Nat := 0
  resent : Nat := 0
  markedMissing : Nat := 0
deriving DecidableEq, Repr

/-- The timing domain of this device (R453, R454, R456, R463). -/
structure Domain where
  id : Nat := 0
  dev : Nat := 0
  parent : Nat := 0
  ingress : Store Nat := []
  relay : Store (BitVec 16) := []
  depth : Nat := 0xFF
  aligned : Bool := false
  theta : Int := 0
  phaseFs : Int := 0
  alignSeq : Option Nat := none
  alignDelay : Int := 0
  alignTheta : Int := 0
  alignEnd : Nat := 0
  corr : Int := 0
deriving DecidableEq, Repr

/-- The image a core runs (R109, R485). -/
structure RunImage where
  src : Nat := 0xFF
  copyFormat : Nat := 0
  hash : List Byte := []
  fwMajor : Nat := 0
  fwMinor : Nat := 0
  build : Nat := 0
  ilLow : Nat := 0
  ilHigh : Nat := 0
  stepOk : Bool := true
deriving DecidableEq, Repr

/-- A resume point (R468): the rays and frames at the opening of a shot. -/
structure Resume where
  shot : Nat := 0
  rays : Store Ray := []
  frames : Store Frame := []
deriving DecidableEq, Repr

/-- One on-die sensor (R493, R494). -/
structure Sensor where
  value : Int := 400
  state : Nat := 0
  accepted : Option (Int × Nat) := none
  good : Nat := 0
deriving DecidableEq, Repr

/-- One remote diode (R491, R515). -/
structure Remote where
  value : Int := 400
  state : Nat := 0
  excursion : Bool := false
  limit : Int := 1360
  ideal : Nat := 10080
deriving DecidableEq, Repr

/-- Temperature, bands, warning, throttling and shutdown (18). `bandCool`, `warnCool` and `levelCool` hold the raw tick from
which T_down has stayed below each threshold; `shutNs` is what the always-on logic has counted since the shutdown (R503). -/
structure Thermal where
  sensors : Store Sensor := []
  remotes : Store Remote := []
  tUp : Int := 400
  tUpSrc : Nat := 0
  tDown : Int := 400
  band : Nat := 0
  warning : Bool := false
  level : Nat := 0
  release : Bool := false
  bandCool : Store (Option Nat) := []
  warnCool : Option Nat := none
  levelCool : Store (Option Nat) := []
  extend : Bool := true
  extendNext : Option Bool := none
  periodUs : Nat := 10000
  throttleMs : Nat := 0
  throttleSince : Nat := 0
  mr4 : BitVec 2 := 0
  shutdowns : Nat := 0
  shutTrip : BitVec 4 := 0
  isShut : Bool := false
  shutNs : Nat := 0
deriving DecidableEq, Repr

/-- An image in flash, in DDR5 or in the envelope store, as its header describes it (R100, R109). -/
structure Image where
  valid : Nat := 0
  stepOk : Bool := false
  fwMajor : Nat := 0
  fwMinor : Nat := 0
  build : Nat := 0
  copyFormat : Nat := 0
  ilLow : Nat := 0
  ilHigh : Nat := 0
  bodyLen : Nat := 0
  hash : List Byte := []
deriving DecidableEq, Repr

/-- What commands set of a port: its configuration, its DC level, target and ramp, its causes of the safe condition, with `safe`, `entered`
and `resumed`, its plug sense, and its counters. -/
structure PortSet where
  cfg : PortCfg
  level : Int × Int × Option Ramp
  causes : List SafeCause
  cond : Bool × SafeCause × Bool
  sense : Nat × Nat
  counts : List Nat
deriving DecidableEq, Repr

/-- What commands set of a read-out channel: its configuration and its counters. -/
structure ChanSet where
  cfg : ChanCfg
  counts : Nat × Nat
  states : Store Nat
deriving DecidableEq, Repr

/-- What commands set of a capture unit: its configuration and mask, whether it is armed and for how many records, and its counters. -/
structure UnitSet where
  cfg : UnitCfg
  maskTab : Store (Int × Int)
  arm : UnitState × Bool × Nat
  counts : List Nat
deriving DecidableEq, Repr

/-- What commands set of a device link: ENABLE, IDLE and the CTLE codes, the delay of its alignment, and its counters. -/
structure LinkSet where
  enable : Bool
  idle : Bool
  ctleCodes : List Nat
  delayFs : Int
  counts : List Nat
deriving DecidableEq, Repr

/-- What commands set of the shared blocks of R466. A takeover undoes what a command that it ends, or has done again, has changed of it
(R80, R85; log entry 106). `loaded` are the LAT_LOADs so far and how far lattice time stands from the raw counter. -/
structure Shared where
  ports : Store PortSet
  chans : Store ChanSet
  env : Store (BitVec 32)
  pages : Store (Option (List Nat))
  vectors : Store MkVector
  tsets : Store TSet
  pinStates : Store Nat × Store Nat × Bool
  owned : BitVec 32
  markCauses : List SafeCause
  markCond : Bool × SafeCause
  markCounts : List Nat
  markFails : List CompareFail
  period : Nat
  sync : Bool × Bool × Nat
  refSel : Bool × Bool
  armed : Option ArmedLoad
  loaded : Nat × Nat
  wall : Nat × Nat × Int
  steps : Bool × Nat
  gens : Store WallGen
  rings : Store AcqRing
  units : Store UnitSet
  group : GroupCap
  cal : Bool × Nat × Nat
  inputs : Store (Nat × Nat × Nat)
  bench : Bool × Bool × BitVec 96 × BitVec 96
  ind : Store Nat
  hold : HoldState × Bool
  links : Store LinkSet
  domain : Domain
  extend : Bool × Option Bool
  diodes : Store (Int × Nat)
  lowPower : Bool
  rails : Store (Int × Int)
  chords : List Nat
  discards : Store Discards
  discardTotal : Nat
  mirror : Bool × Bool × Bool
  staged : Option Image × Bool
deriving DecidableEq, Repr

/-- What the command of an acceptance number has changed of the shared blocks in one go: what stood before and after it. -/
structure Undo where
  seq : Nat
  before : Shared
  after : Shared
deriving DecidableEq, Repr

/-- A heartbeat (R471): its sender, its sequence number, the active core's last closed epoch and the health bit. -/
structure Heartbeat where
  mirror : Bool
  seq : Nat
  epoch : Nat
  healthy : Bool
deriving DecidableEq, Repr

/-- A switch-over in progress (R475 to R478); `hadRun` says that a program ran at T. -/
structure SwitchOver where
  t : Nat
  reason : Nat
  gapOver : Bool := false
  firstShot : Nat := 0
  shotJ : Nat := 0
  discarded : Nat := 0
  aborted : Nat := 0
  hadRun : Bool := false
deriving DecidableEq, Repr

/-- The standby core, copy epochs, heartbeats and switch-over (17). `standby` is the state of R479; `seen` and `sick` hold, at key
2 × path + receiving core, the raw tick of the last intact heartbeat and whether its health bit was 0, `heard` that heartbeat; `planned` is
the LAST_REASON of a requested switch-over; `failed` says that the active core has failed and no core has replaced it yet (R475);
`undo` holds what commands that have not ended, or whose entry is not posted, have changed of the shared blocks, newest first (R80, R85);
`shadowFrom` is the copy with which the standby reached the resume point, and `shadowStream` holds the tokens of a shadow shot that have
reached their stages (R481); self-test passes are counted up to the raw tick
`bistFrom`, with `bistRest` ns towards the next one (R482). -/
structure Mirror where
  standby : Nat := 1
  takeover : Bool := true
  shadow : Bool := true
  autoRecover : Bool := true
  copy : Core := {}
  resume : Resume := {}
  point : Resume := {}
  copyResume : Resume := {}
  closed : Option (Nat × Core × Resume) := none
  undo : List Undo := []
  failed : Bool := false
  epochs : Nat := 0
  copyEpoch : Nat := 0
  epochLt : Nat := 0
  seen : Store Nat := []
  sick : Store Nat := []
  heardFrom : Store Nat := []
  heard : Store (Option Heartbeat) := []
  onDieFault : Bool := false
  offDieFault : Bool := false
  beats : Nat × Nat := (0, 0)
  shadowShots : Nat := 0
  shadowFrom : Core := {}
  shadowStream : List Tok := []
  mismatches : Nat := 0
  bistFrom : Nat := 0
  bistRest : Nat := 0
  bistPasses : Nat := 0
  bistErrors : Nat := 0
  recentErrors : Nat := 0
  errLatched : Bool := false
  resyncEnd : Nat := 0
  switchovers : Nat := 0
  lastT : Nat := 0
  lastGap : Nat := 0
  lastReason : Nat := 0
  lastResume : Nat := 0
  lastFailed : Nat := 0
  lastAborted : Nat := 0
  sw : Option SwitchOver := none
  planned : Option Nat := none
  planSeq : Option Nat := none
  loadSrc : Nat := 0
  resyncSeq : Option Nat := none
  deposedRunning : Bool := false
  imgActive : RunImage := {}
  imgStandby : RunImage := {}
deriving DecidableEq, Repr

/-- A host conversion in progress (R505, R506, R516). -/
structure Convert where
  channel : Nat
  sub : Nat
  gain : Nat
  count : Nat
  interval : Nat
  seq : Nat
  due : Nat
  taken : List Byte := []
  n : Nat := 0
  settle : Nat := 0
deriving DecidableEq, Repr

/-- One rail (R509, R518). -/
structure Rail where
  v : Int := 0
  i : Int := 0
  vMin : Int := 0
  vMax : Int := 0
  out : Nat := 0
  inside : Nat := 0
  flagged : Bool := false
  scanned : Bool := false
deriving DecidableEq, Repr

/-- The housekeeping ADC and the rails (R505 to R509, R517); `lastSettle` results of the selection `lastSel` still carry the settling bit. -/
structure House where
  lowPower : Bool := false
  conv : Option Convert := none
  lastSel : Nat × Nat × Nat := (0, 0, 0)
  lastSettle : Nat := 0
  rails : Store Rail := []
deriving DecidableEq, Repr

/-- What a directory copy says (R99); as it stands, what holds where no copy is valid. -/
structure DirCopy where
  gen : Nat := 0
  preferred : Nat := 0
  nextOnce : Nat := 0xFF
deriving DecidableEq, Repr

/-- Flash, staged image and boot progress (04). `dirA` and `dirB` are the 16 bytes of each directory copy, at reset one of GEN 1 and one
erased (log entry 5); `romWrote` names the copy that the ROM has written in this boot (`true` for B); `rejected` are the slots this
boot has rejected; `writeSlot` is the slot that the IMG_WRITE of `writeSeq` writes. -/
structure Images where
  flashOk : Bool := true
  dirA : List Byte := [0x56, 0x44, 0x49, 0x52, 0x01, 0x00, 0x00, 0x00, 0x00, 0xFF, 0x00, 0x00, 0x94, 0x47, 0x99, 0xF5]
  dirB : List Byte := List.replicate 16 0xFF
  romWrote : Option Bool := none
  rejected : List Nat := []
  slot0 : Image := { valid := 3, stepOk := true, fwMajor := 4, fwMinor := 1, build := 0x0213, copyFormat := 1,
                     ilLow := 7, ilHigh := 9, bodyLen := 4, hash := List.replicate 16 0 }
  slot1 : Image := {}
  staged : Option Image := none
  stagedInEnv : Bool := false
  rebootSrc : Option Nat := none
  bootStaged : Bool := false
  bootSrc : Option Nat := none
  writeSeq : Option Nat := none
  writeSlot : Nat := 0
  loadSeq : Option Nat := none
  reloading : Bool := false
  thermalBoot : Bool := false
  inReset : Bool := true
deriving DecidableEq, Repr

/-- A reconciliation report (R527, R528). -/
structure Report where
  kind : Nat
  inst : Nat
  seq : Nat
  start : Nat
  finish : Nat
  a : Nat
  b : Nat
  c : Nat
  d : Nat
  e : Nat
  entries : List (List Byte) := []
deriving DecidableEq, Repr

/-- A Function Level Reset's report in preparation (R38, R529). -/
structure FlrReport where
  start : Nat
  descriptors : Nat
  waiting : List Nat
  entries : List (Nat × List Byte)
  completed : Nat := 0
  failed : Nat := 0
  total : Nat := 0
deriving DecidableEq, Repr

/-- Ledger checks and reports (R525 to R530); `suspects` are the identities found out of balance, by row of R525 and instance, with the
raw tick of the check that first found each so. -/
structure Ledger where
  reports : List Report := []
  seq : Nat := 0
  faults : Nat := 0
  suspects : List ((Nat × Nat) × Nat) := []
  flrs : List FlrReport := []
deriving DecidableEq, Repr

/-- An envelope copy waiting for or using the copy path (R166); `start8` is when it began, in eighths of a tick of the raw counter; `last`
the last shot of the running program that it does not govern (R165). -/
structure EnvCopy where
  port : Nat
  addr : Nat
  data : List (BitVec 32)
  seq : Nat
  start8 : Option Nat := none
  last : Option Nat := none
deriving DecidableEq, Repr

/-- A memory write a command makes: to DDR5, to host memory, or the loss of DDR5's contents at a die reset (R94). -/
inductive MemWrite where
  | ddr (addr : Nat) (bytes : List Byte)
  | host (addr : Nat) (bytes : List Byte)
  | ddrLost
deriving DecidableEq, Repr

/-- The processes that run at a period of their own (R138, R366, R432, R448, R451, R457, R471, R496, R497, R506, R526). -/
inductive Pace where
  | slack (mirror : Bool)
  | heartbeat (mirror : Bool)
  | sensors
  | rails
  | align
  | ledger
  | mr4 (channel : Nat)
  | ctle (link : Nat)
  | detect (link : Nat)
  | sense (port : Nat)
  | trims
deriving DecidableEq, Repr

/-- The device: everything of the machine but the fuses, the two byte memories and the command queue. `readData` is what the last
host or SMBus read returned, none where it was poisoned or not acknowledged; `fwBroken` says that firmware finds itself inconsistent
while it carries out the row's command (R86); `last` holds the raw tick at which each process of a period last ran (`Pace.key`); `envPrev`
holds earlier contents of the envelope store, oldest first, each with the last shot that reads them (R165). -/
structure Dev where
  hif : Hif := {}
  pcie : Pcie := {}
  time : Time := {}
  mbs : Store Mailbox := []
  slots : Store Byte := []
  bells : List (Nat × Nat) := []
  dma : Store DmaRing := []
  evt : Evt := {}
  lattice : Lattice := {}
  slack : Store Slack := []
  discards : Store Discards := []
  discardTotal : Nat := 0
  ports : Store Port := []
  pages : Store (Option (List Nat)) := []
  env : Store (BitVec 32) := []
  envPrev : List (Nat × Store (BitVec 32)) := []
  envCopies : List EnvCopy := []
  stages : Store Stage := []
  chans : Store Chan := []
  chords : Chords := {}
  core : Core := {}
  acq : Acq := {}
  cal : Cal := {}
  tim : Tim := {}
  marker : Marker := {}
  bench : Bench := {}
  links : Store Link := []
  domain : Domain := {}
  mirror : Mirror := {}
  thermal : Thermal := {}
  house : House := {}
  images : Images := {}
  ledger : Ledger := {}
  last : Store (Option Nat) := []
  hostBad : List (Nat × Nat) := []
  eccLines : List Nat := []
  fwBroken : Bool := false
  readData : Option (List Byte) := none
  freeCtr : Nat := 0
  wr : List MemWrite := []
deriving DecidableEq, Repr

/-- The block: its waiting commands, fuses, fitted DDR5, host memory as the device sees it, and the device. -/
structure State where
  pending : List Instr := []
  fuse : Fuse := {}
  ddr : Mem := []
  host : Mem := []
  dev : Dev := {}
deriving DecidableEq, Repr

/-- What a meaning may read besides the device: the fuses and the two byte memories. -/
structure Ctx where
  fuse : Fuse
  ddr : Mem
  host : Mem
deriving DecidableEq, Repr

/-- Reasons to stop with a fault. The spec gives every command an effect in every state (R40, R59, R241), so no meaning
raises one; the constructor stands for an access to a store the part lacks. Safe. -/
inductive Fault where
  /-- Raised by nothing: an access outside every store of the spec. Safe. -/
  | noSuchStore (key : Nat)
deriving DecidableEq, Repr

/-- Reasons to refuse. -/
inductive Refusal where
  /-- Raised by a row of `exec` that has no meaning yet. Safe. -/
  | notModelled (mnemonic : String)
deriving DecidableEq, Repr

/-- The factory entries of calibration slot 0 (R368, R381): VALID at every facet for every index, SOURCE 0, TEMP the nominal
temperature (R367); the trims, which the manual does not list, are neutral (log entry 5). Key 97 × facet + index. -/
def factoryTable : Store Entry :=
  (List.range 776).map fun k =>
    (k, { gain := if k % 97 < 84 then 32768 else 0, temp := 16 * ([20, 32, 44, 56, 68, 80, 92, 105].getD (k / 97) 0), valid := true })

/-- The header of the factory slot (R381): GEN 1, the ports of a VY96, WRITTEN_WT 0, and the CRC-32C of header and table. -/
def factoryHeader : List Byte :=
  [0x41, 0x43, 0x54, 0x46, 1, 0, 0, 0, 1, 0, 0x60, 8, 0x00, 0x61, 0, 0] ++ List.replicate 44 0 ++ [0x31, 0x2C, 0x98, 0x1F]

/-- The machine right after a die reset, before its release: a VY96DO (log entry 4), STATE 0, every register at its
reset value, memories with nothing listed (log entries 5, 6, 13, 14). -/
def State.reset : State := { dev := { cal := { slots := ({ header := factoryHeader, written := 24832 }, {}), stores := factoryTable } } }

end Sys2Proof.Machine
end

