-- ==== Sys2Proof/Machine/Ops.lean ====
section
/-! DEFINITION. Shared operations: bytes and fields, the byte memories and the commit of a command's writes, CRC-32C,
the resources of a part (R8, R9, R151), lattice and wall time (R123, R408), free values. -/

namespace Sys2Proof.Machine

/-! Bytes (00 Notation: little-endian). -/

/-- `n` bytes of `v`, least significant first. -/
def le : Nat → Nat → List Byte
  | 0, _ => []
  | n + 1, v => BitVec.ofNat 8 v :: le n (v / 256)

/-- A signed value in `n` bytes. -/
def leI (n : Nat) (v : Int) : List Byte := le n (v % (2 ^ (8 * n) : Int)).toNat

/-- The number a little-endian byte list holds. -/
def fromLe : List Byte → Nat
  | [] => 0
  | b :: bs => b.toNat + 256 * fromLe bs

/-- The `size`-byte field at offset `off`. -/
def fld (bs : List Byte) (off size : Nat) : Nat := fromLe ((bs.drop off).take size)

/-- A number of `n` bits read as signed. -/
def signed (n v : Nat) : Int := if v < 2 ^ (n - 1) then (v : Int) else (v : Int) - 2 ^ n

/-- The signed field at offset `off`. -/
def fldS (bs : List Byte) (off size : Nat) : Int := signed (8 * size) (fld bs off size)

/-- `n` zero bytes. -/
def zeros (n : Nat) : List Byte := List.replicate n 0

/-- Bits [hi:lo] of a number. -/
def bits (v hi lo : Nat) : Nat := (v / 2 ^ lo) % 2 ^ (hi - lo + 1)

/-- Bit `i` of a number. -/
def bitOf (v i : Nat) : Bool := (v / 2 ^ i) % 2 == 1

/-- A flag as a number. -/
def flag (b : Bool) (i : Nat) : Nat := if b then 2 ^ i else 0

/-- Words of `n` bytes of a byte list. -/
def wordsOf (n : Nat) (bs : List Byte) (count : Nat) : List Nat :=
  (List.range count).map fun i => fld bs (n * i) n

/-- Round `num / den` to the nearest integer, halves toward +∞ (R285, R369). -/
def roundHalfUp (num : Int) (den : Nat) : Int := Int.fdiv (2 * num + den) (2 * den)

/-- Add to a counter of `w` bits. -/
def addW (w a b : Nat) : Nat := (a + b) % 2 ^ w

/-- Put `a` before the first element that may follow it. -/
def insertBy {α : Type} (le : α → α → Bool) (a : α) : List α → List α
  | [] => [a]
  | b :: bs => if le a b then a :: b :: bs else b :: insertBy le a bs

/-- A list in ascending order; elements that tie keep their order. -/
def sortBy {α : Type} (le : α → α → Bool) (xs : List α) : List α := xs.foldr (insertBy le) []

/-- Clamp to a signed range. -/
def clampI (lo hi v : Int) : Int := if v < lo then lo else if hi < v then hi else v

/-- CRC-32C of a byte list (log entry 9: reflected 0x82F63B78, initial and final complement). -/
def crcBit (c : Nat) : Nat := if c % 2 = 1 then (c / 2) ^^^ 0x82F63B78 else c / 2
def crcByte (c : Nat) (b : Byte) : Nat :=
  crcBit (crcBit (crcBit (crcBit (crcBit (crcBit (crcBit (crcBit (c ^^^ b.toNat))))))))
def crc32c (bs : List Byte) : Nat := (bs.foldl crcByte 0xFFFFFFFF) ^^^ 0xFFFFFFFF

/-! Byte memories. -/

/-- Write one byte. -/
def Mem.put (m : Mem) (a : Nat) (b : Byte) : Mem := Store.set 0 m a b

/-- Write bytes from address `a` upward. -/
def Mem.write : Mem → Nat → List Byte → Mem
  | m, _, [] => m
  | m, a, b :: bs => Mem.write (Mem.put m a b) (a + 1) bs

/-- Read one byte. -/
def Mem.byte (m : Mem) (a : Nat) : Byte := Store.get 0 m a

/-- Read `n` bytes from address `a`. -/
def Mem.read (m : Mem) (a n : Nat) : List Byte := (List.range n).map fun i => Mem.byte m (a + i)

/-- The canonical form of a byte memory. -/
abbrev Mem.wf (m : Mem) : Bool := Store.wf (0 : Byte) m

/-- The effect of one queued write on DDR5. -/
def ddrAfter (m : Mem) : MemWrite → Mem
  | .ddr a bs => Mem.write m a bs
  | .host _ _ => m
  | .ddrLost => []

/-- The effect of one queued write on host memory. -/
def hostAfter (m : Mem) : MemWrite → Mem
  | .host a bs => Mem.write m a bs
  | .ddr _ _ => m
  | .ddrLost => m

/-- Run a device operation and commit the memory writes it queued, in order. Where writers of R60 share a 64-byte line, the row that
runs later leaves it: DESIGN CHOICE, log entry 91. -/
def State.on (s : State) (f : Ctx → Dev → Dev) : State :=
  let d := f ⟨s.fuse, s.ddr, s.host⟩ s.dev
  { s with ddr := d.wr.foldl ddrAfter s.ddr, host := d.wr.foldl hostAfter s.host, dev := { d with wr := [] } }

/-- The host's own writes to its memory, what of memory now answers with errors (log entry 7), and what firmware finds of itself (R86). -/
def State.sync (s : State) (h : HostSide) : State :=
  { s with host := h.cells.foldl (fun m c => Mem.put m c.1 c.2) s.host,
           dev := { s.dev with hostBad := h.bad, eccLines := h.ecc, fwBroken := h.broken } }

/-- `n` free values in a row, from the counter on (log entry 11). -/
def freeList (d : Dev) (n : Nat) : List Nat := (List.range n).map fun i => Config.free (d.freeCtr + i)

/-- Queue a write to host memory. -/
def hostWrite (a : Nat) (bs : List Byte) (d : Dev) : Dev := { d with wr := d.wr ++ [.host a bs] }

/-- Queue a write to DDR5. -/
def ddrWrite (a : Nat) (bs : List Byte) (d : Dev) : Dev := { d with wr := d.wr ++ [.ddr a bs] }

/-- How many bytes of a host range come before the first that answers with an error; `none` where none does. -/
def hostFault (d : Dev) (a n : Nat) : Option Nat :=
  d.hostBad.foldl (fun acc r =>
    if a < r.1 + r.2 ∧ r.1 < a + n then
      let k := r.1 - a
      match acc with
      | none => some k
      | some j => some (min j k)
    else acc) none

/-- The first failing 64-byte DDR5 line of a range, as its byte offset from `a` (0 where it holds `a`). -/
def eccFault (d : Dev) (a n : Nat) : Option Nat :=
  d.eccLines.foldl (fun acc l =>
    if a < 64 * l + 64 ∧ 64 * l < a + n then
      let k := 64 * l - a
      match acc with
      | none => some k
      | some j => some (min j k)
    else acc) none

/-- Fitted DDR5 in bytes, and where the firmware-reserved region begins (R44). -/
def ddrFitted (d : Dev) : Nat := d.hif.ddrGib.toNat * 2 ^ 30
def ddrReserved (d : Dev) : Nat := ddrFitted d - d.hif.ddrResv.toNat * 2 ^ 20

/-- A DDR5 range lies in fitted DDR5 below the reserved region. -/
def ddrUsable (d : Dev) (a n : Nat) : Bool := decide (a + n ≤ ddrReserved d)

/-! Resources of a part (R8, R9, R151). -/

/-- Port types in the index order of R151. -/
inductive PortKind where
  | drive | flux | probe | acquire | marker | none
deriving DecidableEq, Repr

/-- The type of an index of R151. -/
def portKind (i : Nat) : PortKind :=
  if i < 56 then .drive else if i < 72 then .flux else if i < 84 then .probe
  else if i < 96 then .acquire else if i = 96 then .marker else .none

def Fuse.drives (f : Fuse) : Nat := match f.ports with | .vy96 => 56 | .vy64 => 36 | .vy32 => 18
def Fuse.fluxes (f : Fuse) : Nat := match f.ports with | .vy96 => 16 | .vy64 => 12 | .vy32 => 6
def Fuse.probes (f : Fuse) : Nat := match f.ports with | .vy96 => 12 | .vy64 => 8 | .vy32 => 4
def Fuse.acquires (f : Fuse) : Nat := match f.ports with | .vy96 => 12 | .vy64 => 8 | .vy32 => 4
/-- HIF_VARIANT.PORTS (R43). -/
def Fuse.portsCode (f : Fuse) : Nat := match f.ports with | .vy96 => 0x60 | .vy64 => 0x40 | .vy32 => 0x20

/-- The part has the port of this index (R8, R9, R143). -/
def Fuse.hasPort (f : Fuse) (i : Nat) : Bool :=
  match portKind i with
  | .drive => decide (i < f.drives)
  | .flux => decide (i - 56 < f.fluxes)
  | .probe => decide (i - 72 < f.probes)
  | .acquire => decide (i - 84 < f.acquires)
  | .marker => true
  | .none => false

/-- The indices 0 to 96 the part has. -/
def Fuse.indices (f : Fuse) : List Nat := (List.range 97).filter f.hasPort

/-! Accesses of BAR0 (R40). -/

/-- A write to a command slot: a multiple of 4 bytes, 4-byte aligned, inside the slot's 128 bytes. -/
def slotWriteOk (off len : Nat) : Bool := decide (1 ≤ len) && len % 4 == 0 && off % 4 == 0 && decide (off + len ≤ 128)

/-- A register access: 4 or 8 bytes, naturally aligned. -/
def accessOk (off size : Nat) : Bool := (size == 4 || size == 8) && off % size == 0

/-- A write to the command-slot memory that stays within one slot. -/
def slotAccess (off size : Nat) : Bool := decide (0x10000 ≤ off ∧ off < 0x20000) && slotWriteOk (off % 128) size

/-- An access that keeps R40. -/
def lawfulAccess (isWrite : Bool) (off size : Nat) : Bool := accessOk off size || (isWrite && slotAccess off size)

/-! Accessors of the indexed state. -/

def Dev.mb (d : Dev) (m : Nat) : Mailbox := Store.get {} d.mbs m
def Dev.setMb (d : Dev) (m : Nat) (v : Mailbox) : Dev := { d with mbs := Store.set {} d.mbs m v }
def Dev.ring (d : Dev) (n : Nat) : DmaRing := Store.get {} d.dma n
def Dev.setRing (d : Dev) (n : Nat) (v : DmaRing) : Dev := { d with dma := Store.set {} d.dma n v }
def Dev.port (d : Dev) (p : Nat) : Port := Store.get {} d.ports p
def Dev.setPort (d : Dev) (p : Nat) (v : Port) : Dev := { d with ports := Store.set {} d.ports p v }
def Dev.stage (d : Dev) (p : Nat) : Stage := Store.get {} d.stages p
def Dev.setStage (d : Dev) (p : Nat) (v : Stage) : Dev := { d with stages := Store.set {} d.stages p v }
def Dev.chan (d : Dev) (c : Nat) : Chan := Store.get {} d.chans c
def Dev.setChan (d : Dev) (c : Nat) (v : Chan) : Dev := { d with chans := Store.set {} d.chans c v }
def Dev.ray (d : Dev) (r : Nat) : Ray := Store.get {} d.core.rays r
def Dev.setRay (d : Dev) (r : Nat) (v : Ray) : Dev :=
  { d with core := { d.core with rays := Store.set {} d.core.rays r v } }
def Dev.frame (d : Dev) (k : Nat) : Frame := Store.get {} d.core.frames k
def Dev.setFrame (d : Dev) (k : Nat) (v : Frame) : Dev :=
  { d with core := { d.core with frames := Store.set {} d.core.frames k v } }
def Dev.rp (d : Dev) (p : Nat) : Rp := Store.get {} d.core.rps p
def Dev.setRp (d : Dev) (p : Nat) (v : Rp) : Dev :=
  { d with core := { d.core with rps := Store.set {} d.core.rps p v } }
def Dev.locus (d : Dev) (i : Nat) : Locus := Store.get {} d.core.loci i
def Dev.prog (d : Dev) (i : Nat) : Option Prog := Store.get none d.core.progs i
def Dev.acqRing (d : Dev) (n : Nat) : AcqRing := Store.get {} d.acq.rings n
def Dev.setAcqRing (d : Dev) (n : Nat) (v : AcqRing) : Dev :=
  { d with acq := { d.acq with rings := Store.set {} d.acq.rings n v } }
def Dev.unit (d : Dev) (n : Nat) : CapUnit := Store.get {} d.acq.units n
def Dev.setUnit (d : Dev) (n : Nat) (v : CapUnit) : Dev :=
  { d with acq := { d.acq with units := Store.set {} d.acq.units n v } }
def Dev.link (d : Dev) (n : Nat) : Link := Store.get {} d.links n
def Dev.setLink (d : Dev) (n : Nat) (v : Link) : Dev := { d with links := Store.set {} d.links n v }
def Dev.slackOf (d : Dev) (mirror : Bool) : Slack := Store.get {} d.slack (if mirror then 1 else 0)
def Dev.setSlack (d : Dev) (mirror : Bool) (v : Slack) : Dev :=
  { d with slack := Store.set {} d.slack (if mirror then 1 else 0) v }
def Dev.due (d : Dev) (p : Nat) : Due := Store.get {} d.core.due p
def Dev.setDue (d : Dev) (p : Nat) (v : Due) : Dev := { d with core := { d.core with due := Store.set {} d.core.due p v } }
def Dev.trim (d : Dev) (p : Nat) : Trim := Store.get {} d.cal.trims p
def Dev.resid (d : Dev) (p : Nat) : Resid := Store.get {} d.core.resid p
/-- Facet `f`'s entry for port index `p` (R368, R381). -/
def Dev.facet (d : Dev) (f p : Nat) : Entry := Store.get {} d.core.facets (97 * f + p)
def Dev.setFacet (d : Dev) (f p : Nat) (v : Entry) : Dev :=
  { d with core := { d.core with facets := Store.set {} d.core.facets (97 * f + p) v } }
def Dev.sensor (d : Dev) (n : Nat) : Sensor := Store.get {} d.thermal.sensors n
def Dev.pin (d : Dev) (m : Nat) : Pin := Store.get {} d.core.pins m
def Dev.evIn (d : Dev) (n : Nat) : EvIn := Store.get {} d.tim.inputs n
def Dev.gen (d : Dev) (g : Nat) : WallGen := Store.get {} d.time.gens g
def Dev.setGen (d : Dev) (g : Nat) (v : WallGen) : Dev := { d with time := { d.time with gens := Store.set {} d.time.gens g v } }
def Dev.rail (d : Dev) (r : Nat) : Rail := Store.get {} d.house.rails r
def Dev.setRail (d : Dev) (r : Nat) (v : Rail) : Dev := { d with house := { d.house with rails := Store.set {} d.house.rails r v } }
/-- A remote diode after reset: TD_LIMIT 85, 95, 85, 85 °C (R515). -/
def remoteReset (n : Nat) : Remote := { limit := if n = 1 then 1520 else 1360 }
def Dev.remote (d : Dev) (n : Nat) : Remote := Store.get (remoteReset n) d.thermal.remotes n
def Dev.setRemote (d : Dev) (n : Nat) (v : Remote) : Dev :=
  { d with thermal := { d.thermal with remotes := Store.set (remoteReset n) d.thermal.remotes n v } }

/-- Indices 0 to n − 1 folded over the device. -/
def Dev.forAll (d : Dev) (ks : List Nat) (f : Nat → Dev → Dev) : Dev := ks.foldl (fun d k => f k d) d

/-! Time (R123, R408). -/

/-- `n` lattice ticks pass: lattice time and the raw counter count from the first lock on (R123, R408). -/
def advance (n : Nat) (d : Dev) : Dev :=
  { d with time := { d.time with
      lat := if d.time.counting then addW 64 d.time.lat n else d.time.lat
      raw := if d.time.counting then addW 64 d.time.raw n else d.time.raw } }

/-- Lattice time reaches instant `t`, if it has not yet (log entry 2). -/
def advanceTo (t : Nat) (d : Dev) : Dev := advance (t - d.time.lat) d

/-- The key of a process in `Dev.last`. -/
def Pace.key : Pace → Nat
  | .slack m => if m then 1 else 0
  | .heartbeat m => if m then 3 else 2
  | .sensors => 4
  | .rails => 5
  | .align => 6
  | .ledger => 7
  | .mr4 c => 8 + c
  | .ctle l => 16 + l
  | .detect l => 20 + l
  | .sense p => 32 + p
  | .trims => 24

/-- The period of a process in ns; the sensors' follows T_up (R496). -/
def Pace.ns (d : Dev) : Pace → Nat
  | .slack _ => 1000
  | .heartbeat _ => 4000
  | .sensors => 1000 * d.thermal.periodUs
  | .rails => 10000000
  | .align => 1000000
  | .ledger => 1000000
  | .mr4 _ => 1000000
  | .ctle _ => 100000
  | .detect _ => 1000000
  | .sense _ => 10000000
  | .trims => 1000000

/-- A process of a period runs now: not before its period has passed since it last ran (log entry 117). -/
def paced (p : Pace) (d : Dev) : Dev :=
  let d1 := advance (match Store.get none d.last p.key with | none => 0 | some t => t + p.ns d - d.time.raw) d
  { d1 with last := Store.set none d1.last p.key (some d1.time.raw) }

/-- The always-on logic of a die that is shut down counts its own time (R503). -/
def shutTick (d : Dev) : Dev :=
  if d.thermal.isShut then { d with thermal := { d.thermal with shutNs := d.thermal.shutNs + 1 } } else d

/-- What an idle step does: one lattice tick, or 1 ns of a shutdown (log entry 1). -/
def idleTick (s : State) : State := { s with dev := shutTick (advance 1 s.dev) }

/-- Wall time at raw counter value `r` (R408). -/
def wallAtRaw (t : Time) (r : Nat) : Nat :=
  let dr : Nat := (r + 2 ^ 64 - t.r0) % 2 ^ 64
  let w : Int := (t.w0 : Int) + Int.fdiv ((dr : Int) * ((2 : Int) ^ 40 + t.rate)) ((2 : Int) ^ 40)
  Int.toNat (Int.emod w ((2 : Int) ^ 64))

/-- Wall time now. -/
def wallNow (d : Dev) : Nat := wallAtRaw d.time d.time.raw

/-- Now, in 1/4096 ns. -/
def nowFine (d : Dev) : Nat := d.time.lat * 4096

/-! Frames (R156 to R158). -/

/-- s_f of a frame now: 16 per lattice tick since its reference (R156). -/
def frameCount (d : Dev) (f : Frame) : Nat := (f.s0 + 16 * ((d.time.raw + 2 ^ 64 - f.r0) % 2 ^ 64)) % 2 ^ 48

/-- A frequency set: FTW is written and s_f reloaded from lattice time; Z stays (R158, R160). -/
def setFreq (d : Dev) (ftw : Nat) (f : Frame) : Frame :=
  { f with ftw := ftw % 2 ^ 47, s0 := (16 * d.time.lat) % 2 ^ 48, r0 := d.time.raw, epoch := d.time.loads }

/-- The frame's reference predates the last LAT_LOAD (R158). -/
def isStale (d : Dev) (epoch : Nat) : Bool := decide (epoch < d.time.loads)

/-- The phase word W of an item at frame sample count `s`, θ and phase trim given (R157). -/
def phaseWord (f : Frame) (s theta trim : Nat) : Nat :=
  (((f.ftw * s) % 2 ^ 48) / 2 ^ 16 + f.z + theta + trim) % 2 ^ 32

/-- A free value, and the device with its counter advanced (log entry 11). -/
def freeValue (d : Dev) : Nat := Config.free d.freeCtr
def useFree (d : Dev) : Dev := { d with freeCtr := d.freeCtr + 1 }
def useFrees (n : Nat) (d : Dev) : Dev := { d with freeCtr := d.freeCtr + n }

/-- A program runs (R208, R209). -/
def running (d : Dev) : Bool := d.core.run.active

/-- The number that shot `k` of a program goes on by once a later program has started: each start moves it on by 2^48, and what remains of it
then names no shot of the program that runs. -/
def outliveShot (k : Nat) : Nat := k + 2 ^ 48

/-- Two shot numbers are of one program. -/
def sameProgram (k j : Nat) : Bool := k / 2 ^ 48 == j / 2 ^ 48

/-- What governs shot `k` (R165, R320): the oldest earlier value that reaches it, else the current one. -/
def governs {α : Type} (now : α) (before : List (Nat × α)) (k : Nat) : α :=
  match before.find? (fun g => sameProgram k g.1 && decide (k ≤ g.1)) with
  | some g => g.2
  | none => now

/-- A value that governs no shot after `last` is kept for those it governs, unless an earlier one reaches as far. -/
def retire {α : Type} (last : Nat) (v : α) (before : List (Nat × α)) : List (Nat × α) :=
  if before.any (fun g => sameProgram last g.1 && decide (last ≤ g.1)) then before else before ++ [(last, v)]

/-- What governs the shots of an earlier program once the next has started: the value in force then governs the last of them (R165). -/
def outliveCfgs {α : Type} (now : α) (before : List (Nat × α)) : List (Nat × α) :=
  before.map (fun g => (outliveShot g.1, g.2)) ++ [(2 ^ 49 - 1, now)]

/-- The configuration of a port or channel that governs an item of shot `k` (R165). -/
def cfgFor (p : Port) (k : Nat) : PortCfg := governs p.cfg p.prev k
def chanFor (c : Chan) (k : Nat) : ChanCfg := governs c.cfg c.prev k

/-- The envelope store that an item of shot `k` reads (R165). -/
def envFor (d : Dev) (k : Nat) : Store (BitVec 32) := governs d.env d.envPrev k

/-- Condition of a port: 0 off, 1 released, 2 safe, 3 held (R172, R181). -/
def portCond (p : Port) : Nat := if p.off then 0 else if p.held then 3 else if p.safe then 2 else 1

/-- The pages assigned to a port after reset (R179): drives 16 each, then flux and probe ports in index order. -/
def resetPages (f : Fuse) (i : Nat) : List Nat :=
  if !f.hasPort i then [] else
  match portKind i with
  | .drive => (List.range 16).map (16 * i + ·)
  | .flux =>
    let n := match f.ports with | .vy96 => 0 | .vy64 => 4 | .vy32 => 16
    (List.range n).map (16 * f.drives + n * (i - 56) + ·)
  | .probe =>
    let n := match f.ports with | .vy96 => 0 | .vy64 => 4 | .vy32 => 16
    (List.range n).map (16 * f.drives + n * f.fluxes + n * (i - 72) + ·)
  | _ => []

/-- The pages of a port (R161). -/
def pagesOf (f : Fuse) (d : Dev) (i : Nat) : List Nat :=
  match Store.get none d.pages i with
  | none => resetPages f i
  | some l => l

/-- The envelope-store address of word `a` of port `i` (R161). -/
def envAddr (f : Fuse) (d : Dev) (i a : Nat) : Nat := 4096 * (pagesOf f d i).getD (a / 4096) 0 + a % 4096

/-- Words a port can address (R161). -/
def envWords (f : Fuse) (d : Dev) (i : Nat) : Nat := 4096 * (pagesOf f d i).length

/-- The DC code of a flux port now: a running ramp is linear from its start, cut toward the start (R176). -/
def dcNow (d : Dev) (p : Port) : Int :=
  match p.ramp with
  | none => p.dc
  | some r =>
    let el : Nat := (d.time.raw + 2 ^ 64 - r.raw) % 2 ^ 64
    if r.ns ≤ el then p.target else r.start + Int.tdiv ((p.target - r.start) * el) r.ns

/-- The core that runs the port plane has fast path: HIF_STATE word (R43). -/
def devStateCode : DevState → Nat
  | .bootRom => 0 | .imageLoading => 1 | .ready => 2 | .restricted => 3 | .faultHalted => 4
def hifStateWord (h : Hif) : Nat :=
  flag h.lock 8 + flag h.orfWarm 7 + 32 * (h.redund % 4) + flag h.core 4 + devStateCode h.state
def hifLinkWord (h : Hif) : Nat :=
  flag h.linkDegraded 9 + flag h.linkFlit 8 + 16 * (h.linkWidth % 16) + h.linkSpeed % 16

end Sys2Proof.Machine
end

