-- ==== Sys2Proof/Machine/Flags.lean ====
section
/-! DEFINITION. Flags and events: pending bits, messages, log records waiting to be written (R54 to R57, R519, R520),
and the access-error flags (R44). -/

namespace Sys2Proof.Machine

/-- The 256-bit mask of one source. -/
def srcBit (n : Nat) : BitVec 256 := BitVec.ofNat 256 (2 ^ n)

/-- Send the message of vector `v`, or hold it in the pending bit array while its entry is masked (R55) or the host link is
down (R30). -/
def sendMessage (v : Nat) (d : Dev) : Dev :=
  let e := Store.get {} d.evt.msix v
  let hold := e.mask || !d.hif.linkUp
  { d with
    evt := { d.evt with pba := if hold then d.evt.pba ||| srcBit v else d.evt.pba }
    wr := if hold then d.wr else d.wr ++ [.host e.addr.toNat (le 4 e.data.toNat)] }

/-- Set a source's pending bit; the message goes out at once when the bit changes and is enabled (R55). -/
def raiseQuiet (src : Nat) (d : Dev) : Dev :=
  let wants := !d.evt.pend.getLsbD src && d.evt.en.getLsbD src
  let d1 := { d with evt := { d.evt with pend := d.evt.pend ||| srcBit src } }
  if wants then sendMessage src d1 else d1

/-- The event log can take another record now (R57). -/
def logHasRoom (e : Evt) : Bool := e.enable && decide ((e.head - e.tail).toNat < 2 ^ e.log2.toNat)

/-- A record is lost: EVT_LOG_LOST advances and source 41 is raised (R54, R56). -/
def loseRecord (d : Dev) : Dev :=
  raiseQuiet 41 { d with evt := { d.evt with lost := d.evt.lost + 1 } }

/-- Raise a source (R55, R57, R519). Sources 42 to 255 leave a record for firmware to write; a raise that finds the log
disabled or full is counted as lost. The message of a recorded source waits for its record. -/
def raise (r : Raise) (d : Dev) : Dev :=
  if r.src < 42 then raiseQuiet r.src d
  else if logHasRoom d.evt then
    let wants := !d.evt.pend.getLsbD r.src && d.evt.en.getLsbD r.src
    { d with evt := { d.evt with pend := d.evt.pend ||| srcBit r.src, raised := d.evt.raised ++ [{ r with msg := wants }] } }
  else raiseQuiet r.src (loseRecord d)

/-- Raise a source now with an INSTANCE and an ARG (R519). -/
def event (src inst arg : Nat) (d : Dev) : Dev :=
  raise { src := src, inst := inst, arg := arg % 2 ^ 32, lat := nowFine d } d

/-- Raise a source of a deciding meridian, carrying its shot (R519). -/
def eventShot (src inst arg shot : Nat) (d : Dev) : Dev :=
  raise { src := src, inst := inst, arg := arg % 2 ^ 32, shot := shot, lat := nowFine d } d

/-- Raise a source that carries a cause (R519). -/
def eventCause (src inst arg cause : Nat) (d : Dev) : Dev :=
  raise { src := src, inst := inst, arg := arg % 2 ^ 32, cause := cause, lat := nowFine d } d

/-- HIF_STATE changed: source 47 with its new value (R43, R519). -/
def eventState (d : Dev) : Dev := event 47 0xFFFF (hifStateWord d.hif) d

/-- Set bits of HIF_ERR for the access at `off` (R44): the address of the first error is kept. -/
def flagError (bit : BitVec 4) (bar2 : Bool) (off : Nat) (d : Dev) : Dev :=
  { d with hif := { d.hif with
      err := d.hif.err ||| bit
      errAddr := if d.hif.err = 0 then BitVec.ofNat 64 (off + flag bar2 63) else d.hif.errAddr } }

/-- A BAR0 access broke a rule: HIF_ERR.ACCESS and source 43 (R40, R44). -/
def accessError (off : Nat) (d : Dev) : Dev :=
  let d1 := flagError 1 false off d
  event 43 0xFFFF d1.hif.err.toNat d1

/-- Firmware takes the next raise and writes its record (R520, R521, R57): 32 bytes at HEAD, then source 40. -/
def recordBytes (d : Dev) (r : Raise) : List Byte :=
  [BitVec.ofNat 8 r.src, BitVec.ofNat 8 (r.flags + flag d.hif.core 0 + flag d.time.stepped 1)] ++ le 2 r.inst ++
    le 2 r.cause ++ le 6 r.shot ++ le 8 (wallNow d) ++ le 8 (r.lat % 2 ^ 64) ++ le 4 r.arg

/-- Write one record or lose it, as the log stands (R57). -/
def writeRecord (r : Raise) (d : Dev) : Dev :=
  let d1 :=
    if logHasRoom d.evt then
      let at_ := d.evt.base.toNat + 32 * (d.evt.head.toNat % 2 ^ d.evt.log2.toNat)
      raiseQuiet 40 { hostWrite at_ (recordBytes d r) d with evt := { d.evt with head := d.evt.head + 1 } }
    else loseRecord d
  if r.msg then sendMessage r.src d1 else d1

end Sys2Proof.Machine
end

