-- ==== Sys2Proof/Machine/Finish.lean ====
section
/-! DEFINITION. How a command ends: its completion entry, the ring it is posted to, what holds it back (R70 to R73,
R469, R470), the reports of R527, and the failures a check gives (R89, R555). -/

namespace Sys2Proof.Machine

/-! Fields of a command's slot (R65). -/

def Cmd.op (c : Cmd) : Nat := fld c.bytes 0 2
def Cmd.il (c : Cmd) : Nat := fld c.bytes 2 1
def Cmd.flags (c : Cmd) : Nat := fld c.bytes 3 1
def Cmd.bulk (c : Cmd) : Bool := bitOf c.flags 0
def Cmd.fence (c : Cmd) : Bool := bitOf c.flags 1
def Cmd.tag (c : Cmd) : Nat := fld c.bytes 4 4
def Cmd.length (c : Cmd) : Nat := fld c.bytes 8 4
def Cmd.dcount (c : Cmd) : Nat := fld c.bytes 12 1
def Cmd.raddr (c : Cmd) : Nat := fld c.bytes 16 8
def Cmd.rlen (c : Cmd) : Nat := fld c.bytes 24 4

/-- The payload field at payload offset `off`. -/
def Cmd.arg (c : Cmd) (off size : Nat) : Nat := fld c.payload off size
/-- The signed payload field at payload offset `off`. -/
def Cmd.argS (c : Cmd) (off size : Nat) : Int := fldS c.payload off size

/-- Why a command fails: STATUS, DETAIL and IMM of its completion (R71). -/
structure Fail where
  status : Nat
  detail : Nat := 0xFFFF
  imm : Nat := 0
deriving DecidableEq, Repr

/-- A failure at a slot offset; an offset of 0xFFFF or more goes to IMM (R555). -/
def atOffset (status off : Nat) : Fail :=
  if off < 0xFFFF then { status := status, detail := off } else { status := status, imm := off }

/-- A failure at a payload offset (R555: payload offsets run from 32). -/
def atPayload (status off : Nat) : Fail := atOffset status (32 + off)

/-- The first failure of a list of checks. -/
def firstFail : List (Option Fail) → Option Fail
  | [] => none
  | none :: rest => firstFail rest
  | some f :: _ => some f

/-- Reports (R527): the new report takes the next SEQ; only the newest KIND 4 report keeps its entries (R529). -/
def publish (r : Report) (d : Dev) : Dev :=
  let n := d.ledger.seq + 1
  let old := if r.kind = 4 then d.ledger.reports.map (fun q => { q with entries := [] }) else d.ledger.reports
  event 53 r.kind n { d with ledger := { d.ledger with seq := n, reports := ({ r with seq := n } :: old).take 16 } }

/-! Completions. -/

/-- The 32 bytes of an entry (R71). -/
def entryBytes (core : Bool) (k : Completion) (status len : Nat) : List Byte :=
  le 4 k.tag ++ le 2 k.op ++ le 2 status ++ le 1 k.slot ++ le 1 (flag k.staged 0 + flag core 1) ++ le 2 k.detail ++
    le 4 len ++ le 4 k.seq ++ le 4 k.imm ++ le 8 k.lt

/-- How many bytes of its result a completion writes, before any fault (R70). -/
def Completion.want (k : Completion) : Nat := if k.raddr = 0 then 0 else min k.rlen k.result.length

/-- How many of them reach host memory before a fault (R89, 0x0018). -/
def Completion.wrote (d : Dev) (k : Completion) : Nat :=
  if k.want = 0 then 0 else (hostFault d k.raddr k.want).getD k.want

/-- The status posted: 0x0018 where writing the result met an error, 0x0001 where it was cut (R70, R89). -/
def Completion.posted (d : Dev) (k : Completion) : Nat :=
  if k.wrote d < k.want then 0x0018 else if k.raddr ≠ 0 ∧ k.rlen < k.result.length then 0x0001 else k.status

/-- Post a completion now: result data, entry at HEAD, the register update, then source m (R72). -/
def postNow (m : Nat) (k : Completion) (d : Dev) : Dev :=
  let b := d.mb m
  let slotAt := b.base.toNat + 32 * (b.head.toNat % 2 ^ b.log2.toNat)
  let d1 := if k.wrote d = 0 then d else hostWrite k.raddr (k.result.take (k.wrote d)) d
  let d2 := hostWrite slotAt (entryBytes d.hif.core k (k.posted d) (k.wrote d)) d1
  raiseQuiet m (d2.setMb m { b with head := b.head + 1, done := b.done + 1, busy := b.busy.erase k.slot })

/-- The ring of a mailbox has room (R73). -/
def ringRoom (b : Mailbox) : Bool := decide ((b.head - b.tail).toNat < 2 ^ b.log2.toNat)

/-- A completion can be posted to the mailbox now: the link is up (R30) and the ring is not full (R73). -/
def canPost (d : Dev) (m : Nat) : Bool := d.hif.linkUp && ringRoom (d.mb m)

/-- Every completion not yet posted. -/
def allHeld (d : Dev) : List Completion := (List.range 32).flatMap fun m => (d.mb m).held

/-- No epoch holds the entry back (R470), and none that must go out before it is still held (R93). -/
def readyToPost (d : Dev) (k : Completion) : Bool :=
  !k.waitsEpoch && (allHeld d).all (fun q => !k.after.contains q.seq)

/-- Hold a completion in the order in which entries would be posted (R73): one that waits for its epoch stands behind those that do not. -/
def Mailbox.hold (k : Completion) (b : Mailbox) : Mailbox :=
  if k.waitsEpoch then { b with held := b.held ++ [k] }
  else { b with held := b.held.filter (!·.waitsEpoch) ++ k :: b.held.filter (·.waitsEpoch) }

/-- Post it, or hold it for want of room (R73) or until its epoch closes (R470). -/
def deliver (m : Nat) (k : Completion) (d : Dev) : Dev :=
  if readyToPost d k && canPost d m && (d.mb m).held.all (·.waitsEpoch) then postNow m k d
  else d.setMb m ((d.mb m).hold k)

/-- The first held completion that no epoch holds back. -/
def nextHeld (b : Mailbox) : Option Completion := b.held.find? (fun k => !k.waitsEpoch)

/-- Post the first held completion that may be posted, if the ring has room. -/
def postHeld (m : Nat) (d : Dev) : Dev :=
  match nextHeld (d.mb m) with
  | none => d
  | some k =>
    if readyToPost d k && canPost d m then postNow m k (d.setMb m { d.mb m with held := (d.mb m).held.erase k }) else d

/-- Post held completions of a mailbox while they may be posted. -/
def postAllHeld (m : Nat) (d : Dev) : Dev := (List.range (d.mb m).held.length).foldl (fun d _ => postHeld m d) d

/-- A status of completion: the low byte is below 0x10 (R88). -/
def completed (status : Nat) : Bool := decide (status % 256 < 0x10)

/-- One report in preparation notes the end of one of its commands. -/
def flrNote (core : Bool) (k : Completion) (f : FlrReport) : FlrReport :=
  if f.waiting.contains k.seq then
    { f with
      waiting := f.waiting.erase k.seq
      entries := f.entries ++ [(k.seq, entryBytes core k k.status 0)]
      completed := if completed k.status then f.completed + 1 else f.completed
      failed := if completed k.status then f.failed else f.failed + 1 }
  else f

/-- Publish a Function Level Reset's report (R528, R529). -/
def publishFlr (f : FlrReport) (d : Dev) : Dev :=
  publish { kind := 4, inst := 0xFF, seq := 0, start := f.start, finish := d.time.lat, a := f.descriptors, b := f.total,
            c := f.completed, d := f.failed, e := 0,
            entries := (sortBy (fun p q => decide (p.1 ≤ q.1)) f.entries).map (·.2) } d

/-- Publish the reports that wait for no command (R527). -/
def settleFlrs (d : Dev) : Dev :=
  let fs := d.ledger.flrs
  (fs.filter (·.waiting.isEmpty)).foldl (fun d f => publishFlr f d)
    { d with ledger := { d.ledger with flrs := fs.filter (fun f => !f.waiting.isEmpty) } }

/-- A command without a slot has ended: every reset whose report waits for it takes note (R38, R529). -/
def flrEnded (k : Completion) (d : Dev) : Dev :=
  settleFlrs { d with ledger := { d.ledger with flrs := d.ledger.flrs.map (flrNote d.hif.core k) } }

/-- The standby follows epochs (R470, R479). -/
def followsEpochs (d : Dev) : Bool := d.mirror.standby = 4 || d.mirror.standby = 5

/-- End a command with a whole completion (R77): it leaves the list of unfinished commands and its entry is delivered,
or, after a Function Level Reset, counted in MB_DONE and in the reset's report (R76, R529). -/
def finishWith (c : Cmd) (k : Completion) (d : Dev) : Dev :=
  let d1 := { d with core := { d.core with cmds := d.core.cmds.filter (fun q => q.seq ≠ c.seq) } }
  if c.noSlot then flrEnded k (d1.setMb c.mb { d1.mb c.mb with done := (d1.mb c.mb).done + 1 })
  else deliver c.mb k d1

/-- The completion a command ends with now. -/
def Cmd.completion (c : Cmd) (d : Dev) (status detail imm : Nat) (result : List Byte) (waits : Bool) : Completion :=
  { tag := c.tag, op := c.op, status := status, slot := c.slot, staged := c.staged, detail := detail, seq := c.seq, imm := imm,
    lt := d.time.lat, raddr := c.raddr, rlen := c.rlen, result := result, waitsEpoch := waits, acceptEpoch := c.epoch }

/-- End with a failure, posted at once (R470). -/
def failCmd (c : Cmd) (f : Fail) (d : Dev) : Dev := finishWith c (c.completion d f.status f.detail f.imm [] false) d

/-- End completed with a result and an immediate value; a command that changed state waits for its epoch (R470). -/
def okCmd (c : Cmd) (status imm : Nat) (result : List Byte) (reads : Bool) (d : Dev) : Dev :=
  finishWith c (c.completion d status 0xFFFF imm result (followsEpochs d && !reads)) d

/-- End completed, having changed state and returning nothing. -/
def doneCmd (c : Cmd) (status : Nat) (d : Dev) : Dev := okCmd c status 0 [] false d

/-- End completed with a result, having changed nothing. -/
def replyCmd (c : Cmd) (status : Nat) (result : List Byte) (d : Dev) : Dev := okCmd c status 0 result true d

/-- Replace an unfinished command by its new form (its progress). -/
def putCmd (c : Cmd) (d : Dev) : Dev :=
  { d with core := { d.core with cmds := d.core.cmds.map (fun q => if q.seq = c.seq then c else q) } }

/-- The unfinished command of an acceptance number. -/
def cmdOf (d : Dev) (seq : Nat) : Option Cmd := d.core.cmds.find? (fun q => q.seq = seq)

/-- End the long-lived command of an acceptance number, if it still runs; one that a switch-over or a reload ends is left to it (R85). -/
def endSeq (seq : Option Nat) (f : Cmd → Dev → Dev) (d : Dev) : Dev :=
  match seq with
  | none => d
  | some n => match cmdOf d n with
    | none => d
    | some c => if c.dead then d else f c d

/-- The ramp of port `p` gives way to a new level: its command ends with 0x0301 and the level reached, or with 0x0300 where
the level has reached its target (R176, R188). -/
def leaveRamp (p : Port) (d : Dev) : Dev :=
  match p.ramp with
  | none => d
  | some r =>
    if r.ns ≤ (d.time.raw + 2 ^ 64 - r.raw) % 2 ^ 64 then endSeq (some r.seq) (fun c d => doneCmd c 0x0300 d) d
    else endSeq (some r.seq) (fun c d => okCmd c 0x0301 (dcNow d p % 2 ^ 32).toNat [] false d) d

end Sys2Proof.Machine
end

