-- ==== Sys2Proof/Machine/Items.lean ====
section
/-! DEFINITION. Shots, items and what becomes of them: meridians and vertices (R125, R129), failures of a shot (R27, R523),
discards (R135, R136), chords placed on the fabric (R309 to R313), entries offered to rings (R262, R336), the safe
condition (R172, R173) and the application of frame updates (R137, R159, R201). -/

namespace Sys2Proof.Machine

/-! Cause codes (R522). -/
namespace Cause
def late : Nat := 0x1010
def outside : Nat := 0x1011
def unlock : Nat := 0x1012
def coreFault : Nat := 0x1013
def overrun : Nat := 0x1014
def deadlock : Nat := 0x1015
def stopped : Nat := 0x1016
def badLocus : Nat := 0x1017
def overlap : Nat := 0x1018
def disabled : Nat := 0x1019
def underrun : Nat := 0x101A
def switchOver : Nat := 0x101B
def settling : Nat := 0x101C
def windowOverlap : Nat := 0x101D
def noRing : Nat := 0x101E
def ringFull : Nat := 0x101F
def chordMissing : Nat := 0x1020
def chordLate : Nat := 0x1021
def postOverrun : Nat := 0x1022
def noKernel : Nat := 0x1023
def overflow : Nat := 0x1024
def compare : Nat := 0x1025
def unplugged : Nat := 0x1026
def hold : Nat := 0x1027
def fireLate : Nat := 0x1028
def preempted : Nat := 0x1029
def thermal : Nat := 0x102A
def timeout : Nat := 0x102B
def timCal : Nat := 0x102C
def loaded : Nat := 0x102D
end Cause

/-- The shot is open or due: it has a record that is not yet decided. -/
def shotOf (d : Dev) (k : Nat) : Option Shot := d.core.shots.find? (fun s => s.num = k)

/-- Change the record of an undecided shot. -/
def onShot (k : Nat) (f : Shot → Shot) (d : Dev) : Dev :=
  { d with core := { d.core with shots := d.core.shots.map (fun s => if s.num = k then f s else s) } }

/-- An EXTEST-class instruction is in force in the TAP (R550). -/
def underExtest (d : Dev) : Bool := d.bench.tap = 0x00 || d.bench.tap = 0x03 || d.bench.tap = 0x04

/-- What a shot that opens now has collected: a failure while an EXTEST-class instruction is in force (R550). -/
def firstFails (d : Dev) : List ShotFail :=
  if underExtest d then [{ at4096 := 4096 * d.time.lat, inst := 0xFFFF, cause := Cause.hold, detail := 0, item := false }] else []

/-- Record a failure of a shot; `items` is how many failed items it adds (R524, saturating). -/
def failShot (k : Nat) (f : ShotFail) (items : Nat) (d : Dev) : Dev :=
  onShot k (fun s => { s with fails := s.fails ++ [f], failures := min 0xFFFF (s.failures + items) }) d

/-- The instance of a window, result or chord cause of channel `c` (R524). -/
def chanInst (c : Nat) : Nat := 0x100 + c

/-- The meridian of shot `k`, and whether it is only scheduled (R136). -/
def merOf (d : Dev) (k : Nat) : Option (Nat × Bool) :=
  match d.core.run.mers.find? (fun m => m.1 = k) with
  | some m => some (m.2, false)
  | none => if d.core.run.active ∧ k = d.core.run.k then some (d.core.run.next, !d.core.run.fixed) else none

/-- The meridian of shot `k` once it is fixed. -/
def fixedMer (d : Dev) (k : Nat) : Option Nat :=
  match merOf d k with
  | some (m, false) => some m
  | _ => none

/-- An item's absolute vertex in 1/4096 ns, and whether its meridian is only scheduled (R125, R136). -/
def vertexOf (d : Dev) (t : Tok) : Option (Nat × Bool) :=
  match t.vertex with
  | some v => some (v, false)
  | none => (merOf d t.shot).map (fun m => (4096 * m.1 + t.voff, m.2))

/-- The vertex, or now where no meridian is known (log entry 18). -/
def vertexFine (d : Dev) (t : Tok) : Nat := match vertexOf d t with | some v => v.1 | none => nowFine d

/-- The window opening in eighths of a nanosecond, nearest sample, a tie going to the earlier (R126). -/
def eighths (fine : Nat) : Nat := (fine + 255) / 512

/-- The marker placement in 1/128 ns, a tie going to the earlier (R424). -/
def over128 (fine : Nat) : Nat := (fine + 15) / 32

/-- The nominal interval of an item ends here, in 1/4096 ns (R155, R228). -/
def itemEnd (d : Dev) (t : Tok) : Nat :=
  if t.kind = .window then 512 * eighths (vertexFine d t) + 4096 * t.len else vertexFine d t + 4096 * t.len

/-- The shot has already been decided at its meridian (R192): M(k+1) has occurred. -/
def pastDecision (d : Dev) (k : Nat) : Bool := d.core.run.active && decide (k + 2 ≤ d.core.run.k)

/-- M(k) has occurred. -/
def meridianPassed (d : Dev) (k : Nat) : Bool := d.core.run.active && decide (k + 1 ≤ d.core.run.k)

/-! Frames. -/

/-- A frame's index: 4 per drive port, then 16 tones per probe port (R156, R246). -/
def driveFrame (port f : Nat) : Nat := 4 * port + f
def toneFrame (port f : Nat) : Nat := 1024 + 16 * (port - 72) + f

/-- Apply the frame update a token carries, in issue order, then let the token take its frame (R137, R159, R201). -/
def applyFrame (t : Tok) (d : Dev) : Dev × Tok :=
  let f := d.frame t.frame
  match t.kind with
  | .setf => (d.setFrame t.frame (setFreq d t.operand f), { t with framed := true })
  | .vz => (d.setFrame t.frame { f with z := (f.z + t.operand) % 2 ^ 32 }, { t with framed := true })
  | .play =>
    if t.badLocus ∨ 56 ≤ t.stage then (d, { t with framed := true, car := f })
    else
      let f1 := if t.locus.flags.getLsbD 1 then setFreq d t.locus.ftw f else f
      let f2 := if t.locus.flags.getLsbD 2 then { f1 with z := (f1.z + t.locus.vz) % 2 ^ 32 } else f1
      (d.setFrame t.frame f2, { t with framed := true, car := f2 })
  | _ => (d, { t with framed := true })

/-- A frame token is done once applied; an item stays in the fabric. -/
def TokKind.isItem : TokKind → Bool
  | .setf => false
  | .vz => false
  | .play => true
  | .window => true
  | .mark => true

/-- Apply the frame update of the fabric's tokens that satisfy `p`, in order. -/
def applyFrames (p : Tok → Bool) (d : Dev) : Dev :=
  let step (acc : Dev × List Tok) (t : Tok) : Dev × List Tok :=
    if !t.framed && p t then
      let (d1, t1) := applyFrame t acc.1
      (d1, if t.kind.isItem then acc.2 ++ [t1] else acc.2)
    else (acc.1, acc.2 ++ [t])
  let (d2, toks) := d.core.fabric.foldl step (d, [])
  { d2 with core := { d2.core with fabric := toks } }

/-- Write FTW and Z of a frame or tone as PRT_FRAME_SET and PRT_PROBE_TONE ask (R183, R268). -/
def applyFrameSet (p : List Byte) (d : Dev) : Dev :=
  let port := fld p 0 1
  let k := if port < 56 then driveFrame port (fld p 1 1) else toneFrame port (fld p 1 1)
  let fl := fld p 2 1
  let f1 := if bitOf fl 0 then setFreq d (fld p 8 8) (d.frame k) else d.frame k
  d.setFrame k (if bitOf fl 1 then { f1 with z := fld p 4 4 } else f1)

/-- The frame changes applied at meridians before M(k) take their place, after every frame token issued so far: those of shot `k` are
still to come (R227, R165). -/
def settleFrames (k : Nat) (d : Dev) : Dev :=
  let d1 := applyFrames (fun _ => true) d
  let d2 := (d1.core.frameDefer.filter (fun c => c.1 < k)).foldl (fun d c => applyFrameSet c.2 d) d1
  let done := d2.core.frameDone.filter (fun c => k ≤ c.1 + 3) ++ d2.core.frameDefer.filter (fun c => c.1 < k)
  { d2 with core := { d2.core with frameDefer := d2.core.frameDefer.filter (fun c => k ≤ c.1), frameDone := done } }

/-! Rings (R336): entries offered. -/

/-- The ring takes entries of this kind now. -/
def ringTakes (d : Dev) (ring : Nat) (unitKind : Bool) : Bool := (d.acqRing ring).enabled && (d.acqRing ring).kind == unitKind

/-- Offer an entry to a ring's write path. -/
def pushOffer (ring : Nat) (o : Offer) (d : Dev) : Dev :=
  d.setAcqRing ring { d.acqRing ring with offers := (d.acqRing ring).offers ++ [o], offered := addW 64 (d.acqRing ring).offered 1 }

/-- Offer a result or post record (R262): with no running ring it is not written, its shot fails with "no ring" (unless
the item has already been counted as failed), and ring-absent is raised once per ring per shot, decided or not. -/
def offerResult (ring : Nat) (o : Offer) (d : Dev) : Dev :=
  if ringTakes d ring false then pushOffer ring o d
  else match o.shot with
    | none => event 76 ring 0 d
    | some k =>
      let r := d.core.run
      let d1 := failShot k { at4096 := o.at4096, inst := o.inst, cause := Cause.noRing, detail := 0 } (if o.cause = 0 then 1 else 0) d
      if r.absent.contains (k, ring) then d1
      else event 76 ring 0 { d1 with core := { d1.core with run := { d1.core.run with absent := r.absent ++ [(k, ring)] } } }

/-- A result record (R263). -/
def resultBytes (shot chan flags open8 : Nat) (i q : Int) (cause invalid bound : Nat) : List Byte :=
  le 6 shot ++ le 1 chan ++ le 1 flags ++ le 8 (open8 % 2 ^ 64) ++ leI 6 i ++ leI 6 q ++ le 2 cause ++ le 1 invalid ++ le 1 bound

/-! Chords (R309 to R313). -/

/-- Same source: device, kind and channel. -/
def Chord.sameSource (a b : Chord) : Bool := a.dev == b.dev && a.slow == b.slow && a.chan == b.chan

/-- What a source's chords, in the order of their receipt, leave when one of shot `k` comes: those of shot k − 2 go, and of a new shot number
only the one received last before it stays (R312). -/
def twoShots (k : Nat) (mine : List Chord) : List Chord :=
  let left := mine.filter (fun q => q.shot + 2 ≠ k)
  if left.any (fun q => q.shot = k) then left
  else match left.getLast? with
    | none => []
    | some q => left.filter (fun p => p.shot = q.shot)

/-- Put a chord into the store: of each source the chords of the two most recent shot numbers stay (R312). -/
def storeChord (c : Chord) (d : Dev) : Dev :=
  let others := d.chords.store.filter (fun q => !q.sameSource c)
  { d with chords := { d.chords with store := others ++ twoShots c.shot (d.chords.store.filter (·.sameSource c)) ++ [c] } }

/-- The link carries chords and messages now (R444, R445). -/
def linkTimed (l : Link) : Bool := l.timed && !l.isIdle

/-- Export masks after reset: every bit set (R313). -/
def exportReset : BitVec 192 × BitVec 192 := (BitVec.allOnes 192, BitVec.allOnes 192)

/-- The export mask of a link has this chord's bit (R313, R331), in the mask that governs its shot (R328). -/
def exported (d : Dev) (link : Nat) (c : Chord) : Bool :=
  let m := Store.get exportReset (governs d.core.exports d.core.exportsPrev c.shot) link
  if c.slow then m.2.getLsbD c.chan else m.1.getLsbD c.chan

/-- Queue a chord, ready now, on every timed link whose export mask has its bit (R313, log entry 8). -/
def exportChord (c : Chord) (d : Dev) : Dev :=
  d.forAll [0, 1, 2, 3] fun l d =>
    if linkTimed (d.link l) && exported d l c then d.setLink l { d.link l with chordQ := (d.link l).chordQ ++ [(d.time.lat, c)] } else d

/-- Place a local chord on the fabric (R309): the store, the counters and the links. Ordinals of 4 and more carry none. -/
def sendChord (slow : Bool) (chan ord shot : Nat) (st : Option (BitVec 2)) (d : Dev) : Dev :=
  if 4 ≤ ord then d
  else
    let c : Chord := { dev := d.domain.dev, slow := slow, chan := chan, ord := ord, shot := shot % 2 ^ 48, state := st }
    let n := d.chords
    let d1 := { d with chords := { n with
      fastSent := if slow then n.fastSent else addW 64 n.fastSent 1
      slowSent := if slow then addW 64 n.slowSent 1 else n.slowSent
      missingSent := if st.isNone then addW 64 n.missingSent 1 else n.missingSent } }
    exportChord c (storeChord c d1)

/-- The ordinal of a window: earlier windows on its channel in its shot, in vertex order, those of equal vertex as they arrived
(R133, R258, R310; log entry 19). -/
def ordinalOf (d : Dev) (t : Tok) : Nat :=
  if 2 ^ 48 ≤ t.shot then t.ordinal
  else (d.core.run.windows.filter fun w =>
    w.shot = t.shot && w.chan = t.chan && (decide (w.voff < t.voff) || (w.voff = t.voff && decide (w.place < t.ordinal)))).length

/-- The place of a window issued as the `n`th of its run: behind every window that has arrived. -/
def unarrived (n : Nat) : Nat := 2 ^ 40 + n

/-- A window arrives: it stands behind those of equal vertex that have arrived before it (R133). -/
def placeWindow (t : Tok) (r : Run) : Run × Tok :=
  let n := r.windows.countP (fun w => decide (w.place < unarrived 0))
  ({ r with windows := r.windows.map fun w => if w.place = t.ordinal then { w with place := n } else w }, { t with ordinal := n })

/-- An item that a stage still holds when the next program starts: its shot has been decided and names none of that program, and its
ordinal stands. -/
def outlive (d : Dev) (t : Tok) : Tok := { t with shot := outliveShot t.shot, ordinal := ordinalOf d t }

/-- An entry waiting for its ring outlives its program likewise (R262). -/
def outliveOffer (o : Offer) : Offer := { o with shot := o.shot.map outliveShot }

/-! Discards (R135, R136). -/

/-- The discarded-item record and its counters. `noPort`: a token that names no port (R202). -/
def countDiscard (noPort : Bool) (stage : Nat) (cause : Nat) (d : Dev) : Dev :=
  let c := Store.get {} d.discards stage
  let c1 : Discards := if cause = Cause.late then { c with late := addW 64 c.late 1 } else { c with other := addW 64 c.other 1 }
  { d with
    discards := if noPort then d.discards else Store.set {} d.discards stage c1
    discardTotal := addW 64 d.discardTotal 1 }

/-- What a discarded window leaves: its result record and a missing marker in place of its state (R264). -/
def discardedWindow (t : Tok) (cause : Nat) (d : Dev) : Dev :=
  let c := (d.chan t.chan)
  let cfg := chanFor c t.shot
  let v := vertexOf d t
  let fine := vertexFine d t
  let flags := flag cfg.postk 3 + flag (isStale d cfg.epoch) 4 + flag (match v with | some (_, b) => b | none => false) 5
  let o : Offer := {
    bytes := resultBytes t.shot t.chan flags (eighths fine) 0 0 cause 0 0
    kind := false, shot := some t.shot, inst := chanInst t.chan, at4096 := fine, cause := cause }
  let p := d.port t.stage
  let d1 := d.setPort t.stage { p with discarded := addW 64 p.discarded 1 }
  sendChord false t.chan (ordinalOf d t) t.shot none (offerResult cfg.ring o d1)

/-- The event, counters and shot failure of a discard; the items that leave a record of their own do so. -/
def discardItem (cause : Nat) (t : Tok) (d : Dev) : Dev :=
  let noPort := t.kind = .play && 40959 < t.locusIx
  let v := vertexOf d t
  let fine := vertexFine d t
  let came : Int := ((t.arrival.getD d.time.lat : Nat) : Int)
  let arg : Int := match v with | some _ => came - ((fine / 4096 : Nat) : Int) | none => 0
  let inst := if noPort then 0xFFFF else t.stage
  let failInst := if noPort then 0xFFFF else if t.kind = .window then chanInst t.chan else t.stage
  let d1 := raise { src := 48, inst := inst, cause := cause, shot := t.shot % 2 ^ 48, lat := fine,
                    arg := (arg % 2 ^ 32).toNat, flags := flag (match v with | some (_, b) => b | none => false) 2 } d
  let f : ShotFail := { at4096 := fine, inst := failInst, cause := cause, detail := if cause = Cause.switchOver then d.time.lat else 0 }
  let d2 := failShot t.shot f 1 (countDiscard noPort t.stage cause d1)
  if t.kind = .window then discardedWindow t cause d2 else d2

/-- Discard every token of a list, in order. -/
def discardAll (cause : Nat) (ts : List Tok) (d : Dev) : Dev := ts.foldl (fun d t => discardItem cause t d) d

/-! Streams (R169 to R171). -/

/-- Samples of a playing item whose instant has come. -/
def playedNow (d : Dev) (t : Tok) : Nat :=
  let v := vertexFine d t
  if nowFine d < v then 0 else min t.len ((nowFine d - v) / 4096 + 1)

/-- The first sample from `lo` to `hi` that read 0: not received by its instant, or of a failing line. -/
def firstZero (t : Tok) (lo hi : Nat) : Option Nat :=
  let lateAt := max lo t.got
  let cand := t.zeros.filterMap (fun z => if max lo z.1 < min hi z.2 then some (max lo z.1) else none) ++ (if lateAt < hi then [lateAt] else [])
  match cand with
  | [] => none
  | a :: rest => some (rest.foldl min a)

/-- Samples from `lo` to `hi` that read 0. -/
def countZeros (t : Tok) (lo hi : Nat) : Nat :=
  (hi - max lo t.got) + (t.zeros.map (fun z => min hi z.2 - max lo z.1)).sum

/-! Synthesis (R153, R155, R157, R162, R167, R168, R200, R245). A sample instant is a count of 1/16 ns of lattice time. -/

/-- The sample at `n` ns after the vertex, as the envelope engine has it: 1 with CONST, 0 where a stream's was not there (R162, R170,
R200). -/
def envSample (t : Tok) (n : Nat) : IQ :=
  if t.locus.flags.getLsbD 0 then ⟨32768, 0⟩
  else if t.zeros.any (fun z => decide (z.1 ≤ n) && decide (n < z.2)) then ⟨0, 0⟩
  else t.data.getD n ⟨0, 0⟩

/-- The item's envelope, cut at its length. -/
def envelope (t : Tok) : List IQ := (List.range t.len).map (envSample t)

/-- Sample instants are 16 to the tick on drive and probe ports, 2 on flux ports (R153). -/
def samplesPerTick (i : Nat) : Nat := if portKind i = .flux then 2 else 16

/-- Frame sample count of an item's carrier at an instant (R156). -/
def carrierCount (d : Dev) (f : Frame) (at16 : Nat) : Nat := (frameCount d f + at16 + 2 ^ 48 - 16 * d.time.lat % 2 ^ 48) % 2 ^ 48

/-- How far the interpolator's filter reaches before the vertex and after the last sample, in 1/4096 ns (R155). -/
def filterReach : Nat := 8 * 4096

/-- The item is heard at an instant: from the filter's reach before its vertex to that after its last sample (R155). -/
def heardAt (d : Dev) (at16 : Nat) (t : Tok) : Bool :=
  decide (0 < t.len) && decide (vertexFine d t ≤ 256 * at16 + filterReach) && decide (256 * at16 + 4096 ≤ itemEnd d t + filterReach)

/-- The items of a port that may be heard now: those playing, those whose filter still rings, and queued ones, whose filter begins before
their vertex (R155; log entry 99). -/
def heardItems (d : Dev) (i : Nat) : List Tok :=
  let s := d.stage i
  let coming (t : Tok) : Bool :=
    (cfgFor (d.port i) t.shot).enable && (match vertexOf d t with | some (_, false) => true | _ => false)
  (s.tails ++ s.playing ++ s.queue.filter coming).filter fun t => t.locus.amp ≠ 0 && !t.badLocus

/-- What one item adds at an instant, in 1/2^75 of full scale: amplitude times the real part of envelope and carrier; flux items have
no carrier (R155, R157). -/
def itemValue (d : Dev) (i at16 : Nat) (t : Tok) : Int :=
  if t.locus.amp = 0 ∨ !heardAt d at16 t then 0
  else
    let e := Config.interpolate (envelope t) ((256 * at16 : Nat) - (vertexFine d t : Int))
    let a := signed 16 t.locus.amp
    if portKind i = .flux then a * e.i * 2 ^ 30
    else
      let c := Config.carrier (phaseWord t.car (carrierCount d t.car at16) t.locus.theta (d.trim i).phase)
      a * (e.i * c.i - e.q * c.q)

/-- Every item of a port added at an instant (R155, R167). -/
def itemsAt (d : Dev) (i at16 : Nat) : Int := ((heardItems d i).map (itemValue d i at16)).sum

/-- The summer's output with the port's delay and gain trims, in 1/2^90 of full scale (R153, R155): the delay filter sees the samples
around the instant (log entry 99). -/
def sumAt (d : Dev) (i at16 : Nat) : Int :=
  let w := 16 / samplesPerTick i
  let y := if (d.trim i).delay = 0 then itemsAt d i at16
    else Config.delayed (d.trim i).delay ((List.range 97).map fun n => itemsAt d i (at16 + w * n - w * 48)) 48
  y * (d.trim i).gain

/-- The DAC's code range: 14 bits, or 16 on flux ports (R168). -/
def codeTop (i : Nat) : Int := if portKind i = .flux then 32768 else 8192

/-- The code nearest to a sum, before saturation; a tie goes by the free bit `up` (log entry 99). -/
def codeOf (i : Nat) (up : Nat) (y : Int) : Int :=
  let n := y * codeTop i
  let q := Int.fdiv n (2 ^ 90)
  let r := Int.fmod n (2 ^ 90)
  if r < 2 ^ 89 then q else if 2 ^ 89 < r then q + 1 else q + (up % 2 : Nat)

/-- From a vertex to the instant at which the action it names is at the device ball, on every output port and marker pin: 8.000 ns (R20). -/
def outputOffset : Nat := 8

/-- The code a released port's DAC takes at an instant, and whether it saturated (R168): a sum whose nearest code lies beyond an end code
does (DESIGN CHOICE, log entry 126). -/
def dacCode (d : Dev) (i at16 : Nat) : Int × Bool :=
  let c := codeOf i (Config.free d.freeCtr) (sumAt d i at16)
  let top := codeTop i
  (clampI (-top) (top - 1) c, decide (c < -top) || decide (top ≤ c))

/-- The group a run measures now: 8 ports in ascending index, the marker stage last and alone (R378). -/
def runGroup (ports : List Nat) : List Nat := if (ports.head?).any (· < 96) then (ports.filter (· < 96)).take 8 else ports.take 1

/-- The port is on the loopback bus and off its ball: in a slice, or in the group that a run measures (R374, R378). -/
def onLoopback (d : Dev) (i : Nat) : Bool := d.cal.slice.contains i || (d.cal.runOn && (runGroup d.cal.runPorts).contains i)

/-- What the port's DAC shows now, on the vertex timeline (R172, R174; log entry 149): none with the converter off, mid-scale in the safe
condition, the last code while held; on flux ports the pulse DAC, beside the DC level of `dcNow`. A port on the loopback bus leaves its ball
at the safe level. -/
def portCode (d : Dev) (i : Nat) : Option Int :=
  match portCond (d.port i) with
  | 0 => none
  | 1 => some (if onLoopback d i then 0 else (dacCode d i (16 * d.time.lat)).1)
  | 2 => some 0
  | _ => some (d.port i).heldCode

/-- What the summer of a released port has put at its ball at an instant: the vertex timeline's sample of 8.000 ns before, so that the action
of a vertex appears there at the vertex plus the output offset (R20, R154). -/
def ballCode (d : Dev) (i at16 : Nat) : Int := (dacCode d i (at16 - 16 * outputOffset)).1

/-- The sample instants of a port from `lo` on, before `hi`; both are whole ticks. -/
def instantsBetween (i lo hi : Nat) : List Nat :=
  let w := 16 / samplesPerTick i
  (List.range (hi / w - lo / w)).map fun n => (lo / w + n) * w

/-- The shot that a saturated sample counts for: that of the item with the newest vertex (log entry 99). -/
def heardShot (d : Dev) (i at16 : Nat) : Option Nat :=
  ((heardItems d i).filter (heardAt d at16)).foldl (fun (m : Option Tok) t =>
    match m with | none => some t | some p => if vertexFine d p ≤ vertexFine d t then some t else some p) none |>.map (·.shot)

/-- One saturated sample (R168): the port's counter and the shot's. -/
def countClip (i at16 : Nat) (d : Dev) : Dev :=
  if !(dacCode d i at16).2 then d
  else
    let p := d.port i
    let d1 := d.setPort i { p with clipped := addW 64 p.clipped 1 }
    match heardShot d i at16 with
    | none => d1
    | some k => onShot k (fun h => { h with clip := Store.set 0 h.clip i (Store.get 0 h.clip i + 1) }) d1

/-- The whole ticks, in 1/16 ns, within which an item can be heard, whatever its port's DELAY (R155, R364). -/
def heardSpan (d : Dev) (t : Tok) : Nat × Nat := (16 * ((vertexFine d t - 2 * filterReach) / 4096), 16 * ((itemEnd d t + 2 * filterReach) / 4096 + 1))

/-- Count the saturated samples of a released port before an instant in 1/16 ns (R168). -/
def countClipsTo (to16 i : Nat) (d : Dev) : Dev :=
  let spans := (heardItems d i).map (heardSpan d)
  let from16 := (spans.map (·.1)).foldl min to16
  let until16 := (spans.map (·.2)).foldl max 0
  let d1 := if portCond (d.port i) = 1 then
      (instantsBetween i (max (d.port i).summedTo from16) (min to16 until16)).foldl (fun d n => countClip i n d) d
    else d
  d1.setPort i { d1.port i with summedTo := max (d1.port i).summedTo to16 }

/-! Trims taking effect (R364, R366). -/

/-- Write a port's trims in force; a gain beyond 16 bits is a free value (log entry 41). -/
def putTrim (p : Nat) (t : Trim) (d : Dev) : Dev :=
  let wide := decide (0xFFFF < t.gain)
  let t1 : Trim := { t with gain := if wide then freeValue d % 2 ^ 16 else t.gain }
  let d1 := if wide then useFree d else d
  { d1 with cal := { d1.cal with trims := Store.set {} d1.cal.trims p t1 } }

/-- The items of shots before `k` that a port plays, those of an earlier program among them. -/
def earlierItems (d : Dev) (p k : Nat) : List Tok :=
  (d.stage p).playing.filter (fun t => decide (t.shot < k) || decide (2 ^ 48 ≤ t.shot))

/-- The first sample instant of a port, in 1/16 ns, at which none of some items plays. -/
def clearAt16 (d : Dev) (p : Nat) (ts : List Tok) : Nat :=
  let w := 16 / samplesPerTick p
  let last := ts.foldl (fun m t => max m (itemEnd d t)) 0
  w * ((last + 256 * w - 1) / (256 * w))

/-- The trims waiting for port `p` take effect once no item of an earlier shot plays on it any more; the samples before that instant are
formed with the old ones (R366). -/
def takeTrims (p : Nat) (d : Dev) : Dev :=
  match d.cal.trimsWaiting.find? (fun w => w.1 = p) with
  | none => d
  | some w =>
    let at16 := clearAt16 d p (earlierItems d p w.2.1)
    if 16 * d.time.lat < at16 then d
    else
      let d1 := if p < 84 then countClipsTo at16 p d else d
      putTrim p w.2.2 { d1 with cal := { d1.cal with trimsWaiting := d1.cal.trimsWaiting.filter (fun q => q.1 ≠ p) } }

/-- Count the saturated samples of a released port up to now (R168). -/
def countClips (i : Nat) (d : Dev) : Dev := countClipsTo (16 * d.time.lat) i (takeTrims i d)

/-- Count a stream item's zero-filled samples up to now (R170): the port, the shot, and the shot's failure at the first. -/
def countUnderrun (i : Nat) (t : Tok) (d : Dev) : Dev :=
  let n := playedNow d t
  match (if t.locus.flags.getLsbD 4 then firstZero t t.played n else none) with
  | none => d
  | some j =>
    let z := countZeros t t.played n
    let p := d.port i
    let d1 := d.setPort i { p with underrun := addW 64 p.underrun z }
    let d2 := onShot t.shot (fun s => { s with under := Store.set 0 s.under i (Store.get 0 s.under i + z) }) d1
    failShot t.shot { at4096 := vertexFine d t + 4096 * j, inst := i, cause := Cause.underrun, detail := 0 } 0 d2

/-- A stream item has played up to now: what was not in its buffer then stays 0, whatever arrives later (R170). -/
def playOn (d : Dev) (t : Tok) : Tok :=
  let n := max t.played (playedNow d t)
  let missed := (max t.played t.got, n)
  { t with played := n, zeros := if t.locus.flags.getLsbD 4 && decide (missed.1 < missed.2) then t.zeros ++ [missed] else t.zeros }

/-- Note up to when a port has had an item queued or playing (R432). -/
def noteBusy (i : Nat) (d : Dev) : Dev :=
  let s := d.stage i
  let ago (t : Tok) : Nat := d.time.lat - (itemEnd d t + 4095) / 4096
  let ts := (if s.queue.isEmpty then [] else [d.time.raw]) ++ s.playing.map (fun t => d.time.raw - ago t)
  let p := d.port i
  if ts.isEmpty then d else d.setPort i { p with lastBusy := some (ts.foldl max (p.lastBusy.getD 0)) }

/-- An item that came to a port and was discarded there: it ends a test of the last 20 µs, and leaves the port idle as it was (R432). -/
def noteCut (i : Nat) (d : Dev) : Dev :=
  let p := d.port i
  if 96 ≤ i then d else d.setPort i { p with lastBusy := some (max (d.time.raw - 1000) (p.lastBusy.getD 0)) }

/-- Bring a port's streams and its saturation count up to now, and let items whose nominal interval has passed go (R155). -/
def settlePort (i : Nat) (d : Dev) : Dev :=
  if 84 ≤ i then takeTrims i (noteBusy i d)
  else
    let d1 := (d.stage i).playing.foldl (fun d t => countUnderrun i t d) (noteBusy i d)
    let d2 := countClips i (d1.setStage i { d1.stage i with playing := (d1.stage i).playing.map (playOn d1) })
    let s := d2.stage i
    let ended := s.playing.filter (fun t => itemEnd d2 t ≤ nowFine d2)
    d2.setStage i { s with playing := s.playing.filter (fun t => nowFine d2 < itemEnd d2 t)
                           tails := (s.tails ++ ended).filter (fun t => nowFine d2 < itemEnd d2 t + 2 * filterReach) }

/-- Bring every port up to now. -/
def settlePorts (d : Dev) : Dev := d.forAll (List.range 97) settlePort

/-- Discard what a stage has queued, and what it plays with `playing` (R173); the windows of an acquire stage that are
already integrating count as playing. -/
def flushStage (cause : Nat) (playing : Bool) (stage : Nat) (d0 : Dev) : Dev :=
  let d := settlePort stage d0
  let s := d.stage stage
  let out := if playing then s.playing ++ s.queue else s.queue
  discardAll cause out (d.setStage stage { s with queue := [], playing := if playing then [] else s.playing
                                                  tails := if playing then [] else s.tails })

/-- Discard every token still in the fabric; their frame updates are applied first (R137). -/
def flushFabric (cause : Nat) (d : Dev) : Dev :=
  let d1 := applyFrames (fun _ => true) d
  let ts := d1.core.fabric
  discardAll cause ts { d1 with core := { d1.core with fabric := [] } }

/-! The safe condition (R172, R173). -/

/-- The cause code of items discarded by an entering cause. -/
def SafeCause.code : SafeCause → Nat
  | .disabled => Cause.disabled
  | .hold => Cause.hold
  | .unplug => Cause.unplugged
  | .unlock => Cause.unlock
  | .coreFault => Cause.coreFault
  | .restricted => Cause.coreFault
  | .tap => Cause.hold

/-- What entering the safe condition does to a flux port's DC level: with SAFE_MODE 1 it steps to SAFE_DC (R172, R176);
a running ramp ends with 0x0301. -/
def safeDc (i : Nat) (d : Dev) : Dev :=
  let p := d.port i
  if portKind i = .flux ∧ p.cfg.safeMode then
    leaveRamp p (d.setPort i { p with dc := p.cfg.safeDc, target := p.cfg.safeDc, ramp := none })
  else d

/-- Port `i` (drive, flux or probe) enters the safe condition for a cause, or has one more (R173); what it played until now counts. -/
def enterSafe (cause : SafeCause) (i : Nat) (d0 : Dev) : Dev :=
  let d := settlePort i d0
  let p := d.port i
  let d1 := d.setPort i { p with safe := true, held := false, entered := if p.safe && !p.causes.isEmpty then p.entered else cause,
                                 causes := if p.causes.contains cause then p.causes else p.causes ++ [cause] }
  let d2 := flushStage cause.code true i d1
  if p.safe then d2 else safeDc i d2

/-- Extent of a MARK item in ticks (R424, R425): a vector never written has REPEAT 0. -/
def markExtent (m : Marker) (addr count : Nat) : Nat :=
  (m.vectors.map fun kv =>
    if addr ≤ kv.1 ∧ kv.1 < addr + count then kv.2.rep * (Store.get ({} : TSet) m.tsets kv.2.tset).period else 0).sum

/-- End of the extent of the MARK item playing, in 1/128 ns. -/
def markEnd (m : Marker) (p : MarkPlay) : Int := p.start128 + 128 * markExtent m p.item.addr p.item.count

/-- Vector `i` and timing set `i`. -/
def Marker.vector (m : Marker) (i : Nat) : MkVector := Store.get {} m.vectors i
def Marker.tset (m : Marker) (i : Nat) : TSet := Store.get {} m.tsets i

/-- State code of a pin in a vector (R421). -/
def pinState (v : MkVector) (i : Nat) : Nat := bits v.states.toNat (4 * i + 3) (4 * i)

/-- What a pin's driver does in a state: 0 low, 1 high, 2 high impedance (R422). -/
def driverOf (code : Nat) : Nat := if code < 2 then code else 2

/-- The last instant, in 1/128 ns and up to `now`, at which a pin takes a vector's state: at its DRIVE_OFS in each of the vector's
periods, the first of which begins at `start` (R424). -/
def lastDrive (v : MkVector) (t : TSet) (start now : Int) (i : Nat) : Option Int :=
  let first := start + Store.get 0 t.ofs (2 * i)
  if v.rep = 0 ∨ now < first then none else some (first + 128 * t.period * (min (v.rep - 1) ((now - first) / (128 * t.period)).toNat : Nat))

/-- What pin `i` shows at `now`: the state of the last vector that it has taken, or what it showed before. -/
def pinAt (m : Marker) (p : MarkPlay) (now : Int) (i : Nat) : Nat :=
  ((List.range p.item.count).foldl (fun (acc : Int × Nat) k =>
    let v := m.vector (p.item.addr + k)
    let t := m.tset v.tset
    (acc.1 + 128 * v.rep * t.period,
      match lastDrive v t acc.1 now i with
      | none => acc.2
      | some a => if p.drivenTo ≤ a then driverOf (pinState v i) else acc.2)) (p.start128, Store.get 2 m.pins i)).2

/-- What pin `i` shows at its ball at an instant, in 1/128 ns: its state on the vertex timeline 8.000 ns before (R20, R424). -/
def ballPin (m : Marker) (p : MarkPlay) (at128 : Int) (i : Nat) : Nat := pinAt m p (at128 - 128 * outputOffset) i

/-- The pins of the MARK item playing take the states due by `now`, in 1/128 ns; those of the pulse generators do not (R424, R431). -/
def drivePinsTo (now : Int) (d : Dev) : Dev :=
  match d.marker.play with
  | none => d
  | some p =>
    let m := d.marker
    let pins := (List.range 32).foldl (fun s i => if m.owned.getLsbD i then s else Store.set 2 s i (pinAt m p now i)) m.pins
    { d with marker := { m with pins := pins, play := some { p with drivenTo := now + 1 } } }

/-- The pins are brought up to now. -/
def drivePins (d : Dev) : Dev := drivePinsTo (128 * d.time.lat) d

/-- The MARK item playing is over: its pins keep the last period's states, and with no program its failures are raised
(R425, R428). -/
def finishMark (d : Dev) : Dev :=
  match d.marker.play with
  | none => d
  | some p =>
    let d1 := { d with marker := { d.marker with play := none, items := addW 64 d.marker.items 1 } }
    if p.fails = 0 ∨ running d then d1 else event 120 0xFFFF p.fails d1

/-- The marker pins are brought up to now, and the MARK item playing goes once its extent has passed. -/
def settleMark (d : Dev) : Dev :=
  match d.marker.play with
  | none => d
  | some p => if markEnd d.marker p ≤ 128 * d.time.lat then finishMark (drivePins d) else drivePins d

/-- Every pin that no pulse generator drives takes its code (R430, R411). -/
def takePins (codes : Store Nat) (m : Marker) : Marker :=
  { m with pins := (List.range 32).foldl (fun s i => if m.owned.getLsbD i then s else Store.set 2 s i (Store.get 2 codes i)) m.pins }

/-- The marker pins enter the safe condition (R431). -/
def enterSafeMarker (cause : SafeCause) (d : Dev) : Dev :=
  let d1 := settleMark d
  let d2 := match d1.marker.play with | none => d1 | some p => discardItem cause.code p.item d1
  let m := d2.marker
  flushStage cause.code true 96 { d2 with marker := takePins m.safeSt { m with
    safe := true, play := none, entered := if m.safe && !m.causes.isEmpty then m.entered else cause,
    causes := if m.causes.contains cause then m.causes else m.causes ++ [cause] } }

/-- The output ports of the part: drive, flux and probe. -/
def outputs (f : Fuse) : List Nat := f.indices.filter (fun i => i < 84)

/-- Every output and the marker pins enter the safe condition. -/
def allSafe (f : Fuse) (cause : SafeCause) (d : Dev) : Dev :=
  enterSafeMarker cause (d.forAll (outputs f) (enterSafe cause))

/-- The entering cause that counts once some have ended: where the configuration no longer keeps the output safe, the oldest of the others
that still stand (R173). -/
def enteredAfter (causes : List SafeCause) (entered : SafeCause) : SafeCause :=
  if entered = .disabled ∧ !causes.contains .disabled then causes.headD entered else entered

/-- A port without one of its entering causes. -/
def Port.without (cause : SafeCause) (p : Port) : Port :=
  let left := p.causes.filter (fun c => c ≠ cause)
  { p with causes := left, entered := enteredAfter left p.entered }

/-- An entering cause ends; the port leaves the safe condition when released (R172). -/
def endCause (cause : SafeCause) (i : Nat) (d : Dev) : Dev := d.setPort i ((d.port i).without cause)

/-- Ports whose causes have all ended leave the safe condition, at a meridian or at once when no program runs (R172);
marker pins then take IDLE (R430). -/
def leaveSafe (d : Dev) : Dev :=
  let ports := d.ports.map (fun kv => if kv.2.causes.isEmpty then (kv.1, { kv.2 with safe := false }) else kv)
  let m := d.marker
  { d with
    ports := ports
    marker := if m.safe && m.causes.isEmpty then takePins m.idle { m with safe := false } else m }

/-- An entering cause of every output and of the marker pins ends. -/
def endCauseAll (cause : SafeCause) (d : Dev) : Dev :=
  { d with
    ports := d.ports.map (fun kv => (kv.1, kv.2.without cause))
    marker := { d.marker with causes := d.marker.causes.filter (fun c => c ≠ cause) } }

/-- The cause for which a safe port discards its items: the oldest standing one that is not its configuration; once all have ended,
until the port leaves the condition, the one by which it entered (R165, R173). -/
def safeCode (safe : Bool) (causes : List SafeCause) (entered : SafeCause) : Option Nat :=
  if !safe then none
  else match causes.find? (fun c => c ≠ .disabled) with
    | some c => some c.code
    | none => if causes.isEmpty && entered ≠ .disabled then some entered.code else none

/-- The cause for which a stage discards an item that arrives or meets its vertex now (R173, R431). -/
def arrivalCause (d : Dev) (stage : Nat) : Option Nat :=
  if stage = 96 then safeCode d.marker.safe d.marker.causes d.marker.entered
  else safeCode (d.port stage).safe (d.port stage).causes (d.port stage).entered

/-- An item of a shot before `k` that its configuration enables: it is still to play to its end (R165). -/
def enabledBefore (p : Port) (k : Nat) (t : Tok) : Bool := (decide (t.shot < k) || decide (2 ^ 48 ≤ t.shot)) && (cfgFor p t.shot).enable

/-- The disabled cause follows the configuration that governs shot `k` (R165, R172): one that enables the port ends the cause, one that
disables it is a cause as soon as what plays for earlier shots is over. -/
def followShot (k i : Nat) (d : Dev) : Dev :=
  let p := d.port i
  let s := d.stage i
  if (cfgFor p k).enable then endCause .disabled i d
  else if p.causes.contains .disabled || (s.playing ++ s.queue).any (enabledBefore p k) then d
  else enterSafe .disabled i d

/-- The shot in progress: the one whose meridian was the last to occur; with no program, whatever governs now. -/
def shotNow (d : Dev) : Nat := if running d then d.core.run.k - 1 else d.core.run.k

/-- An output is brought up to now, and its disabled cause with it. -/
def settleOutput (i : Nat) (d : Dev) : Dev :=
  let d1 := settlePort i d
  if i < 84 then followShot (shotNow d1) i d1 else d1

end Sys2Proof.Machine
end

