-- ==== Sys2Proof/Machine/Rays.lean ====
section
/-! DEFINITION. The ray instructions (08), one meaning each: a row says that ray `r` executes the word at its program
counter, if it is that instruction and the ray is not held up; a ray that must wait records what it waits for (R213). -/

namespace Sys2Proof.Machine

/-- The running program. -/
def runProg (d : Dev) : Option Prog := if d.core.run.active then d.prog d.core.run.progId else none

/-- The rays of the running program. -/
def progRays (d : Dev) : List Nat := match runProg d with | none => [] | some p => p.rays.map (·.1)

/-- Shot `k` has opened (R25). -/
def isOpened (d : Dev) (k : Nat) : Bool := decide (1 ≤ d.core.run.issued) && decide (k ≤ d.core.run.shotNext)

/-- The first shot number the run will not reach (R208, R477: shots lost to a switch-over do not count). -/
def shotLimit (d : Dev) : Option Nat :=
  if d.core.run.continuous then none else some (d.core.run.shots + d.core.run.lost)

/-- The word a ray executes next; past the last word it acts as HALT (R237). -/
def rayWord (d : Dev) (p : Prog) (y : Ray) : Nat :=
  if p.words ≤ y.pc then 0x01 * 2 ^ 56 else (Store.get 0 d.core.progMem (p.base + y.pc)).toNat

/-- Tokens travel now: a program runs, was not stopped at once, and no switch-over gap is open. -/
def tokensRun (d : Dev) : Bool := d.core.run.active && d.core.run.stopping ≠ some 1 && firmwareUp d
where
  firmwareUp (d : Dev) : Bool := match d.mirror.sw with | none => true | some g => g.gapOver

/-- Rays execute now: tokens travel, and the core has not failed (R475). -/
def raysRun (d : Dev) : Bool := tokensRun d && !d.mirror.failed

/-- A window item of the ray is held at the gate of its acquire stage (R333). -/
def gateHeld (d : Dev) (r : Nat) : Bool := d.core.fabric.any (fun t => t.ray = r && t.held)

/-- Ray `r` executes its next word if it has opcode `op` (R220): `f` is given the word and the ray. -/
def rayExec (op r : Nat) (f : Nat → Ray → Dev → Dev) (d : Dev) : Dev :=
  match runProg d with
  | none => d
  | some p =>
    let y := d.ray r
    let waiting := match y.st with | .halted => true | .barrier _ _ => true | .chord _ _ => true | .idle => true | _ => false
    let w := rayWord d p y
    if !raysRun d || waiting || gateHeld d r || w / 2 ^ 56 ≠ op then d else f w y d

/-- The ray goes on at the next word. -/
def Ray.next (y : Ray) : Ray := { y with st := .running, pc := y.pc + 1 }

/-- A general register as a number. -/
def Ray.reg (y : Ray) (n : Nat) : Nat := (Store.get 0 y.g n).toNat

/-- Write a general register. -/
def Ray.setReg (y : Ray) (n : Nat) (v : Nat) : Ray := { y with g := Store.set 0 y.g n (BitVec.ofNat 64 v) }

/-- A token-issuing instruction runs once the ray's shot has opened (R191); till then the ray waits. -/
def whenOpen (r : Nat) (y : Ray) (f : Dev → Dev) (d : Dev) : Dev :=
  if isOpened d y.shot then f d else d.setRay r { y with st := .opening }

/-- Put a token into the fabric. -/
def issue (t : Tok) (d : Dev) : Dev := { d with core := { d.core with fabric := d.core.fabric ++ [t] } }

/-- The release queue of a stage holds 64 entries (R24). -/
def stageFull (d : Dev) (i : Nat) : Bool := decide (64 ≤ (d.stage i).queue.length)

/-! Barriers (R205, R236). -/

/-- A member of a barrier has arrived: it waits there in shot `k`, or is halted. -/
def arrived (d : Dev) (b k r : Nat) : Bool :=
  match (d.ray r).st with
  | .halted => true
  | .barrier q _ => q = b && (d.ray r).shot = k
  | _ => false

/-- The members of barrier `b` among the program's rays. -/
def members (p : Prog) (b : Nat) : List Nat := (List.range 128).filter (fun r => (p.barriers.getD b 0).getLsbD r)

/-- Release barrier `b` if every member has arrived in shot `k`: all members continue together; where one asks for ALIGN, every
member's C becomes the largest (R205, R236). -/
def releaseBarrier (p : Prog) (b k : Nat) (d : Dev) : Dev :=
  let ms := members p b
  let waiting := ms.filter (fun r => match (d.ray r).st with | .barrier _ _ => true | _ => false)
  if ms.all (arrived d b k) then
    let top := waiting.foldl (fun m r => max m (d.ray r).c.toNat) 0
    let align := waiting.any (fun r => match (d.ray r).st with | .barrier _ al => al | _ => false)
    d.forAll waiting fun r d =>
      let y := d.ray r
      d.setRay r { y.next with c := if align then BitVec.ofNat 64 top else y.c }
  else d

/-- Release every barrier whose members have all arrived, after a ray arrived or halted. -/
def releaseBarriers (d : Dev) : Dev :=
  match runProg d with
  | none => d
  | some p => (p.rays.map (·.1)).foldl (fun d r =>
      match (d.ray r).st with
      | .barrier b _ => releaseBarrier p b (d.ray r).shot d
      | _ => d) d

/-- HALT (R237, R193). -/
def doHalt (r : Nat) (_ : Ctx) (d : Dev) : Dev :=
  rayExec 0x01 r (fun _ y d =>
    let d1 := d.setRay r { y with st := .halted }
    releaseBarriers { d1 with core := { d1.core with run := { d1.core.run with lastHalt := max d1.core.run.lastHalt y.shot } } }) d

/-- The MERID that ends shot `k` completes at the end of the program only: it ends the last shot (R209). -/
def endsLast (d : Dev) (k : Nat) : Bool := match shotLimit d with | none => false | some n => decide (n ≤ k + 1)

/-- MERID (R237, R190, R25): waits while the shot before is open, and for the opening of the shot it ends (log entry 20); at the last
shot or under PROG_STOP MODE 0 for the end of the program (R209, R210). -/
def doMerid (r : Nat) (_ : Ctx) (d : Dev) : Dev :=
  rayExec 0x02 r (fun _ y d =>
    let before := decide (1 ≤ y.shot) && !meridianPassed d y.shot
    if !isOpened d y.shot || before || endsLast d y.shot || d.core.run.stopping = some 0 then d.setRay r { y with st := .merid }
    else d.setRay r { y.next with c := 0, shot := y.shot + 1 }) d

/-- BARR (R236). -/
def doBarr (r : Nat) (_ : Ctx) (d : Dev) : Dev :=
  rayExec 0x03 r (fun w y d => releaseBarriers (d.setRay r { y with st := .barrier (bits w 55 52) (bitOf w 51) })) d

/-- The operand of AT and WAIT (R223). -/
def cursorOperand (w : Nat) (y : Ray) : Nat := if bitOf w 55 then y.reg (bits w 51 48) else bits w 47 0

/-- AT (R223). -/
def doAt (r : Nat) (_ : Ctx) (d : Dev) : Dev :=
  rayExec 0x08 r (fun w y d => d.setRay r { y.next with c := BitVec.ofNat 64 (cursorOperand w y) }) d

/-- WAIT (R223). -/
def doWait (r : Nat) (_ : Ctx) (d : Dev) : Dev :=
  rayExec 0x09 r (fun w y d => d.setRay r { y.next with c := y.c + BitVec.ofNat 64 (cursorOperand w y) }) d

/-- The token of a PLAY or PLAYS of locus `ix` (R201). -/
def playTok (r : Nat) (y : Ray) (ix : Nat) (l : Locus) (bad : Bool) : Tok :=
  { kind := .play, ray := r, shot := y.shot, stage := l.port,
    frame := if l.port < 56 then driveFrame l.port l.frame else toneFrame l.port l.frame,
    voff := y.c.toNat, locusIx := ix, locus := l, badLocus := bad, len := if bad then 0 else l.envLen }

/-- PLAY and PLAYS (R224, R201, R202): `stream` is the STREAM flag the opcode asks for. -/
def playWord (stream : Bool) (r : Nat) (w : Nat) (y : Ray) (d : Dev) : Dev :=
  let ix := if bitOf w 55 then y.reg (bits w 51 48) else bits w 15 0
  whenOpen r y (fun d =>
    if 40959 < ix then
      discardItem Cause.badLocus { kind := .play, ray := r, shot := y.shot, voff := y.c.toNat, locusIx := ix } (d.setRay r y.next)
    else
      let l := d.locus ix
      let bad := l.flags.getLsbD 4 != stream
      if stageFull d l.port then d.setRay r { y with st := .blocked }
      else issue (playTok r y ix l bad)
        (d.setRay r { y.next with c := if bad then y.c else y.c + BitVec.ofNat 64 l.duration })) d

/-- PLAY (R224). -/
def doPlay (r : Nat) (_ : Ctx) (d : Dev) : Dev := rayExec 0x10 r (playWord false r) d

/-- PLAYS (R224). -/
def doPlays (r : Nat) (_ : Ctx) (d : Dev) : Dev := rayExec 0x11 r (playWord true r) d

/-- SETF (R225). -/
def doSetf (r : Nat) (_ : Ctx) (d : Dev) : Dev :=
  rayExec 0x14 r (fun w y d =>
    let ftw := if bitOf w 47 then y.reg (bits w 3 0) % 2 ^ 47 else bits w 46 0
    whenOpen r y (fun d => issue { kind := .setf, ray := r, shot := y.shot, stage := bits w 55 50,
                                   frame := driveFrame (bits w 55 50) (bits w 49 48), operand := ftw } (d.setRay r y.next)) d) d

/-- VZ (R226). -/
def doVz (r : Nat) (_ : Ctx) (d : Dev) : Dev :=
  rayExec 0x15 r (fun w y d =>
    let dz := if bitOf w 47 then y.reg (bits w 35 32) % 2 ^ 32 else bits w 31 0
    whenOpen r y (fun d => issue { kind := .vz, ray := r, shot := y.shot, stage := bits w 55 50,
                                   frame := driveFrame (bits w 55 50) (bits w 49 48), operand := dz } (d.setRay r y.next)) d) d

/-- The gate of an acquire stage passes no window now: one is held or on its way, or one arrived within 32 ticks (R333). -/
def gateShut (d : Dev) (stage : Nat) : Bool :=
  d.core.fabric.any (fun t => t.kind = .window && t.stage = stage) ||
  (match (d.stage stage).lastWindow with | none => false | some a => decide (d.time.lat < a + 32))

/-- ACQ (R228). -/
def doAcq (r : Nat) (_ : Ctx) (d : Dev) : Dev :=
  rayExec 0x18 r (fun w y d =>
    let a := bits w 55 52
    let stage := 84 + a
    let chan := 16 * a + bits w 51 48
    let len := bits w 16 0
    whenOpen r y (fun d =>
      if stageFull d stage then d.setRay r { y with st := .blocked }
      else
        let shut := gateShut d stage
        let t : Tok := { kind := .window, ray := r, shot := y.shot, stage := stage, voff := y.c.toNat, chan := chan, len := len,
                         trace := bitOf w 47, framed := true, held := shut, ordinal := unarrived d.core.run.windows.length }
        let y1 := { y.next with c := if bitOf w 46 then y.c + BitVec.ofNat 64 (4096 * len) else y.c }
        let run := d.core.run
        let win : RunWindow := { shot := y.shot, chan := chan, voff := y.c.toNat, place := t.ordinal }
        let d1 := { d with core := { d.core with run := { run with windows := run.windows ++ [win] } } }
        issue t (d1.setRay r { y1 with st := if shut then .blocked else .running })) d) d

/-- MARK (R229). -/
def doMark (r : Nat) (_ : Ctx) (d : Dev) : Dev :=
  rayExec 0x1C r (fun w y d =>
    whenOpen r y (fun d =>
      if stageFull d 96 then d.setRay r { y with st := .blocked }
      else issue { kind := .mark, ray := r, shot := y.shot, stage := 96, voff := y.c.toNat, framed := true,
                   addr := bits w 15 0, count := bits w 48 32 } (d.setRay r y.next)) d) d

/-- LOOP (R230). -/
def doLoop (r : Nat) (_ : Ctx) (d : Dev) : Dev :=
  rayExec 0x20 r (fun w y d =>
    let n := if bitOf w 55 then y.reg (bits w 51 48) % 2 ^ 32 else bits w 23 0
    d.setRay r (if n = 0 then { y with st := .running, pc := bits w 43 24 + 1 }
                else { y.next with loops := (n, y.pc + 1) :: y.loops })) d

/-- ENDL (R230). -/
def doEndl (r : Nat) (_ : Ctx) (d : Dev) : Dev :=
  rayExec 0x21 r (fun _ y d =>
    match y.loops with
    | [] => d.setRay r y.next
    | (n, start) :: rest =>
      d.setRay r (if n ≤ 1 then { y.next with loops := rest }
                  else { y with st := .running, pc := start, loops := (n - 1, start) :: rest })) d

/-- JUMP (R231). -/
def doJump (r : Nat) (_ : Ctx) (d : Dev) : Dev :=
  rayExec 0x24 r (fun w y d => d.setRay r { y with st := .running, pc := bits w 19 0 }) d

/-- The condition of BR (R232). -/
def brHolds (cond : Nat) (a b : BitVec 64) : Bool :=
  match cond with
  | 0 => a == b
  | 1 => a != b
  | 2 => a.slt b
  | 3 => !a.slt b
  | 4 => a.ult b
  | 5 => !a.ult b
  | 6 => (a &&& b) != 0
  | _ => (a &&& b) == 0

/-- BR (R232). -/
def doBr (r : Nat) (_ : Ctx) (d : Dev) : Dev :=
  rayExec 0x25 r (fun w y d =>
    let a := BitVec.ofNat 64 (y.reg (bits w 51 48))
    let b := if bitOf w 47 then BitVec.ofNat 64 (y.reg (bits w 43 40)) else BitVec.ofInt 64 (signed 20 (bits w 19 0))
    d.setRay r (if brHolds (bits w 55 52) a b then { y with st := .running, pc := bits w 39 20 } else y.next)) d

/-- What SETG writes (R233). -/
def setgValue (w : Nat) (y : Ray) : Nat :=
  match bits w 51 50 with
  | 0 => (signed 48 (bits w 47 0) % 2 ^ 64).toNat
  | 1 => bits w 15 0 * 2 ^ 48 + y.reg (bits w 55 52) % 2 ^ 48
  | 2 => y.c.toNat
  | _ => y.shot

/-- SETG (R233). -/
def doSetg (r : Nat) (_ : Ctx) (d : Dev) : Dev :=
  rayExec 0x30 r (fun w y d => d.setRay r (y.next.setReg (bits w 55 52) (setgValue w y))) d

/-- ADDG (R234). -/
def doAddg (r : Nat) (_ : Ctx) (d : Dev) : Dev :=
  rayExec 0x31 r (fun w y d =>
    let b := if bitOf w 47 then y.reg (bits w 43 40) else (signed 40 (bits w 39 0) % 2 ^ 64).toNat
    d.setRay r (y.next.setReg (bits w 55 52) (y.reg (bits w 51 48) + b))) d

/-! DECIDE and its resolution (R235, R316 to R319). -/

/-- Fields of a selector word (R316). -/
def selEn (s : Nat) : Bool := bitOf s 31
def selOrd (s : Nat) : Nat := bits s 15 14
def selSlow (s : Nat) : Bool := bitOf s 13
def selBit (s : Nat) : Nat := bits s 12 12
def selDev (s : Nat) : Nat := bits s 11 8
def selChan (s : Nat) : Nat := bits s 7 0

/-- The chord a selector names, for shot `k`, if it has been received (R310, R314). -/
def chordFor (d : Dev) (s k : Nat) : Option Chord :=
  d.chords.store.find? (fun c => c.dev = selDev s && c.slow = selSlow s && c.chan = selChan s && c.ord = selOrd s && c.shot = k)

/-- The table a DECIDE of shot `k` uses: a change applied at M(j) governs shots opened after it (R320). -/
def tableFor (d : Dev) (t k : Nat) : Table := Store.get {} (governs d.core.tables d.core.tablesPrev k) t

/-- The eight selectors of a table. -/
def selectors (t : Table) : List Nat := (List.range 8).map (fun i => (Store.get 0 t.sel i).toNat)

/-- The index a table forms from the chords of shot `k` (R317). -/
def tableIndex (d : Dev) (t : Table) (k : Nat) : Nat :=
  ((List.range 8).map fun i =>
    let s := (Store.get 0 t.sel i).toNat
    if selEn s then
      match (chordFor d s k).bind (·.state) with
      | some st => flag (st.getLsbD (selBit s)) i
      | none => 0
    else 0).sum

/-- Ray `r` leaves its DECIDE with a value. -/
def decideWith (r gd v : Nat) (d : Dev) : Dev := d.setRay r (((d.ray r).next).setReg gd v)

/-- The DECIDE resolves with FALLBACK (R319): its shot fails, and the ray goes on. -/
def fallBack (r gd table : Nat) (t : Table) (sel cause : Nat) (d : Dev) : Dev :=
  let k := (d.ray r).shot
  let d1 := failShot k { at4096 := nowFine d, inst := chanInst (selChan sel), cause := cause, detail := table } 1 d
  let d2 := onShot k (fun s => { s with fallbacks := s.fallbacks ++ [(r, table, cause)] }) d1
  let n := d2.chords
  decideWith r gd t.fallback { d2 with chords := { n with
    fbMissing := if cause = Cause.chordMissing then addW 64 n.fbMissing 1 else n.fbMissing
    fbLate := if cause = Cause.chordLate then addW 64 n.fbLate 1 else n.fbLate } }

/-- Rows 1 and 2 of R318; `late` says that row 3 or 4 has come. -/
def resolve (r gd table : Nat) (late : Bool) (d : Dev) : Dev :=
  let k := (d.ray r).shot
  let t := tableFor d table k
  let en := (selectors t).filter selEn
  match en.find? (fun s => (chordFor d s k).any (·.state.isNone)) with
  | some s => fallBack r gd table t s Cause.chordMissing d
  | none =>
    match en.find? (fun s => (chordFor d s k).isNone) with
    | none =>
      decideWith r gd (Store.get 0 t.entries (tableIndex d t k)).toNat
        { d with chords := { d.chords with decisions := addW 64 d.chords.decisions 1 } }
    | some s => if late then fallBack r gd table t s Cause.chordLate d else d

/-- Row 3 or row 4 of R318 has come for shot `k`. -/
def decideLate (d : Dev) (t : Table) (k : Nat) : Bool :=
  pastDecision d k || (match fixedMer d k with | none => false | some m => decide (m + t.deadline ≤ d.time.lat))

/-- DECIDE (R235, R318): begins once the shot is open, and resolves at once where it can. -/
def doDecide (r : Nat) (_ : Ctx) (d : Dev) : Dev :=
  rayExec 0x28 r (fun w y d =>
    whenOpen r y (fun d =>
      let gd := bits w 55 52
      let tb := bits w 51 46
      resolve r gd tb (decideLate d (tableFor d tb y.shot) y.shot) (d.setRay r { y with st := .chord gd tb })) d) d

/-- A named chord or a missing marker has arrived for a waiting DECIDE (rows 1 and 2 of R318). -/
def doDecideResolve (r : Nat) (_ : Ctx) (d : Dev) : Dev :=
  match (d.ray r).st with
  | .chord gd tb => if raysRun d then resolve r gd tb false d else d
  | _ => d

/-- Lattice time reaches M(k) + DEADLINE (row 3 of R318). -/
def doDecideDeadline (r : Nat) (_ : Ctx) (d : Dev) : Dev :=
  match (d.ray r).st with
  | .chord gd tb =>
    let k := (d.ray r).shot
    match fixedMer d k with
    | none => d
    | some m => if raysRun d then resolve r gd tb true (advanceTo (m + (tableFor d tb k).deadline) d) else d
  | _ => d

/-- A frame token or the frame part of a locus reaches the frame engine (R227). -/
def doFrameTokenApply (r : Nat) (_ : Ctx) (d : Dev) : Dev :=
  match d.core.fabric.findIdx? (fun t => t.ray = r && !t.framed) with
  | none => d
  | some i =>
    match d.core.fabric[i]? with
    | none => d
    | some t =>
      let (d1, t1) := applyFrame t d
      { d1 with core := { d1.core with
          fabric := if t.kind.isItem then d1.core.fabric.set i t1 else d1.core.fabric.eraseIdx i } }

/-! Stops (R206, R210). -/

/-- Every ray stops at once: tokens and queued items are discarded with "stopped", and every open shot fails, after a deadlock with
"deadlock" in place of that (R210, R206). -/
def stopNow (cause reason : Nat) (x : Ctx) (d : Dev) : Dev :=
  let d1 := { d with core := { d.core with run := { d.core.run with stopping := some 1, endReason := reason } } }
  let ks := d1.core.shots.map (·.num)
  let d2 := d1.forAll ks (fun k => failShot k { at4096 := nowFine d, inst := 0xFFFF, cause := Cause.stopped, detail := 0, item := false } 0)
  let d3 := (flushFabric Cause.stopped d2).forAll x.fuse.indices (flushStage Cause.stopped false)
  let renamed (f : ShotFail) : ShotFail := if f.cause = Cause.stopped then { f with cause := cause } else f
  d3.forAll ks (fun k => onShot k (fun s => { s with fails := s.fails.map renamed }))

/-- The fabric detects that no barrier and no MERID can complete (R206): the opening of a further shot lets only a ray at a MERID go on.
While a PROG_STOP is in force none is detected: its shots end by it (DESIGN CHOICE, log entry 128). -/
def isDeadlock (d : Dev) : Bool :=
  let rays := progRays d
  let stuck (r : Nat) : Bool :=
    match (d.ray r).st with
    | .halted => true
    | .barrier _ _ => true
    | .merid => !isOpened d (d.ray r).shot || endsLast d (d.ray r).shot
    | _ => false
  let atBarrier (r : Nat) : Bool := match (d.ray r).st with | .barrier _ _ => true | _ => false
  let atMerid (r : Nat) : Bool := match (d.ray r).st with | .merid => true | _ => false
  let passed (r : Nat) : Bool := match (d.ray r).st with | .halted => true | _ => decide (d.core.run.shotNext + 1 ≤ (d.ray r).shot)
  let more := match shotLimit d with | none => true | some n => decide (d.core.run.shotNext + 1 < n)
  d.core.run.active && d.core.run.stopping.isNone && rays.all stuck && rays.any atBarrier && !(rays.all passed && more && rays.any atMerid)

/-- Deadlock: as PROG_STOP MODE 1, with cause "deadlock" (R206). -/
def doDeadlockDetect (x : Ctx) (d : Dev) : Dev :=
  if isDeadlock d then stopNow Cause.deadlock 4 x d else d

/-! The rows. -/
def execRayHalt (r : Fin 128) (s : State) : Host.Outcome State Fault Refusal := .next (s.on (doHalt r))
def execRayMerid (r : Fin 128) (s : State) : Host.Outcome State Fault Refusal := .next (s.on (doMerid r))
def execRayBarr (r : Fin 128) (s : State) : Host.Outcome State Fault Refusal := .next (s.on (doBarr r))
def execRayAt (r : Fin 128) (s : State) : Host.Outcome State Fault Refusal := .next (s.on (doAt r))
def execRayWait (r : Fin 128) (s : State) : Host.Outcome State Fault Refusal := .next (s.on (doWait r))
def execRayPlay (r : Fin 128) (s : State) : Host.Outcome State Fault Refusal := .next (s.on (doPlay r))
def execRayPlays (r : Fin 128) (s : State) : Host.Outcome State Fault Refusal := .next (s.on (doPlays r))
def execRaySetf (r : Fin 128) (s : State) : Host.Outcome State Fault Refusal := .next (s.on (doSetf r))
def execRayVz (r : Fin 128) (s : State) : Host.Outcome State Fault Refusal := .next (s.on (doVz r))
def execRayAcq (r : Fin 128) (s : State) : Host.Outcome State Fault Refusal := .next (s.on (doAcq r))
def execRayMark (r : Fin 128) (s : State) : Host.Outcome State Fault Refusal := .next (s.on (doMark r))
def execRayLoop (r : Fin 128) (s : State) : Host.Outcome State Fault Refusal := .next (s.on (doLoop r))
def execRayEndl (r : Fin 128) (s : State) : Host.Outcome State Fault Refusal := .next (s.on (doEndl r))
def execRayJump (r : Fin 128) (s : State) : Host.Outcome State Fault Refusal := .next (s.on (doJump r))
def execRayBr (r : Fin 128) (s : State) : Host.Outcome State Fault Refusal := .next (s.on (doBr r))
def execRayDecide (r : Fin 128) (s : State) : Host.Outcome State Fault Refusal := .next (s.on (doDecide r))
def execRaySetg (r : Fin 128) (s : State) : Host.Outcome State Fault Refusal := .next (s.on (doSetg r))
def execRayAddg (r : Fin 128) (s : State) : Host.Outcome State Fault Refusal := .next (s.on (doAddg r))
def execDecideResolve (r : Fin 128) (s : State) : Host.Outcome State Fault Refusal := .next (s.on (doDecideResolve r))
def execDecideDeadline (r : Fin 128) (s : State) : Host.Outcome State Fault Refusal := .next (s.on (doDecideDeadline r))
def execFrameTokenApply (r : Fin 128) (s : State) : Host.Outcome State Fault Refusal := .next (s.on (doFrameTokenApply r))
def execDeadlockDetect (s : State) : Host.Outcome State Fault Refusal := .next (s.on doDeadlockDetect)

end Sys2Proof.Machine
end

