-- ==== Sys2Proof/Machine/ShotEnd.lean ====
section
/-! DEFINITION. How shots and programs end: the outcome of a shot and its status (R27, R192, R523, R524), the events a
deciding meridian raises, the end of a program (R209) and its halt (R30). -/

namespace Sys2Proof.Machine

/-- Earlier failure first; at one instant the lower INSTANCE, then the lower code (R523). -/
def ShotFail.before (a b : ShotFail) : Bool :=
  decide (a.at4096 < b.at4096) ||
  (a.at4096 == b.at4096 && (decide (a.inst < b.inst) || (a.inst == b.inst && decide (a.cause < b.cause))))

/-- The failure that governs; "switch-over" replaces every other (R523, R476). -/
def governing (fs : List ShotFail) : Option ShotFail :=
  match fs.find? (fun f => f.cause = Cause.switchOver) with
  | some f => some f
  | none => match fs with
    | [] => none
    | f :: rest => some (rest.foldl (fun m q => if q.before m then q else m) f)

/-- Causes whose status names no instance (R524). -/
def noInstance (cause : Nat) : Bool := [Cause.overrun, Cause.deadlock, Cause.stopped, Cause.switchOver].contains cause

/-- The status of a decided shot (R524): INSTANCE is that of the first failed item. -/
def statusOf (s : Shot) (now : Nat) : ShotStatus :=
  match governing s.fails with
  | none => { shot := s.num, cause := 0, inst := 0xFFFF, failures := s.failures, deferred := s.deferred, detail := 0, decided := now }
  | some f =>
    let first := if f.item then some f else governing (s.fails.filter (·.item))
    let inst := if noInstance f.cause then 0xFFFF else match first with | none => 0xFFFF | some q => q.inst
    { shot := s.num, cause := f.cause, inst := inst, failures := s.failures, deferred := s.deferred,
      detail := if f.cause = Cause.underrun then Store.get 0 s.under f.inst else f.detail, decided := now }

/-- The events a deciding meridian raises for a shot (R168, R170, R250, R253, R293, R319, R428). -/
def shotEvents (s : Shot) (d : Dev) : Dev :=
  let d1 := s.clip.foldl (fun d kv => eventShot 72 kv.1 kv.2 s.num d) d
  let d2 := s.under.foldl (fun d kv => eventShot 73 kv.1 kv.2 s.num d) d1
  let d3 := s.overRange.foldl (fun d p => eventShot 74 p 0 s.num d) d2
  let d4 := s.sat.foldl (fun d kv => eventShot 75 kv.1 kv.2.toNat s.num d) d3
  let d5 := s.postDrop.foldl (fun d kv => eventShot 77 kv.1 kv.2 s.num d) d4
  let d6 := s.rpOverflow.foldl (fun d kv => eventShot 78 kv.1 kv.2 s.num d) d5
  let firsts := s.fallbacks.foldl (fun (acc : List (Nat × Nat × Nat)) q => if acc.any (fun p => p.1 = q.1) then acc else acc ++ [q]) []
  let d7 := firsts.foldl (fun d q => raise { src := 79, inst := q.2.1, cause := q.2.2, shot := s.num, lat := nowFine d, arg := q.1 } d) d6
  if s.comparePeriods = 0 then d7 else eventShot 120 0xFFFF s.comparePeriods s.num d7

/-- Decide a shot now: its status is written and kept among the 4,096 newest, the counters count it, and a failed shot
raises shot-failed (R27, R524). -/
def decideRecord (s : Shot) (d : Dev) : Dev :=
  let st := statusOf s d.time.lat
  let run := d.core.run
  let d1 := { d with core := { d.core with
    shots := d.core.shots.filter (fun q => q.num ≠ s.num)
    statuses := (st :: d.core.statuses).take 4096
    run := { run with completed := if st.cause = 0 then addW 64 run.completed 1 else run.completed
                      failed := if st.cause = 0 then run.failed else addW 64 run.failed 1 } } }
  let d2 := shotEvents s d1
  if st.cause = 0 then d2
  else raise { src := 49, inst := st.inst, cause := st.cause, shot := s.num, lat := nowFine d2, arg := st.failures } d2

/-- Every ray has closed shot `k` by passing its MERID, waits at the MERID of the last shot, or is halted (R192, R209). -/
def closedByRays (d : Dev) (k : Nat) : Bool :=
  (progRays d).all fun r =>
    match (d.ray r).st with
    | .halted => true
    | .merid => decide (k ≤ (d.ray r).shot)
    | _ => decide (k < (d.ray r).shot)

/-- The outcome of shot `k` at its deciding meridian (R27, R192): an unopened shot is counted issued and fails there. -/
def decideShot (k : Nat) (d : Dev) : Dev :=
  let lagging : ShotFail := { at4096 := nowFine d, inst := 0xFFFF, cause := Cause.overrun, detail := 0, item := false }
  match shotOf d k with
  | some s =>
    let late := !closedByRays d k && d.core.run.stopping ≠ some 1
    decideRecord (if late then { s with fails := s.fails ++ [lagging] } else s) d
  | none =>
    decideRecord { num := k, opened := false, fails := [lagging] }
      { d with core := { d.core with run := { d.core.run with issued := addW 64 d.core.run.issued 1 } } }

/-- The program ends (R209): frame changes that waited take their place (R227), pins take IDLE (R430), PROG_STOP commands end,
program-ended is raised, with the shot `last` that the meridian has decided, none at a halt (R519). RAY_STATUS goes on showing
the rays of the last run as they stopped (log entry 67). -/
def endProgram (reason : Nat) (last : Option Nat) (d : Dev) : Dev :=
  let run := d.core.run
  let seqs := run.stopSeqs
  let d1 := settleFrames run.k d
  let d2 := { d1 with
    core := { d1.core with
      run := { run with active := false, endReason := reason, endAt := d.time.lat, stopping := none, stopSeqs := [] }
      fabric := [] }
    marker := if d1.marker.safe then d1.marker else takePins d1.marker.idle d1.marker }
  let d3 := match last with | none => event 51 run.progId reason d2 | some k => eventShot 51 run.progId reason k d2
  seqs.foldl (fun d n => endSeq (some n) (fun c d => doneCmd c 0x0400 d) d) d3

/-- The program halts at once (R30): tokens in the fabric and queued items are discarded with the cause, every open shot
is decided failed with it, unless it has failed before (R523), and the program ends. What plays is stopped by the safe condition. -/
def haltProgram (cause reason : Nat) (x : Ctx) (d : Dev) : Dev :=
  if !running d then d
  else
    let d1 := (flushFabric cause d).forAll x.fuse.indices (flushStage cause false)
    let ks := d1.core.shots
    let halted : ShotFail := { at4096 := nowFine d, inst := 0xFFFF, cause := cause, detail := 0, item := false }
    let d2 := ks.foldl (fun d s =>
      match shotOf d s.num with
      | none => d
      | some q => decideRecord { q with fails := q.fails ++ [halted] } d) d1
    endProgram reason none d2

/-- A cause of the safe condition has ended: ports leave it at once when no program runs (R172). -/
def causeEnded (d : Dev) : Dev := if running d then d else leaveSafe d

end Sys2Proof.Machine
end

