-- ==== Sys2Proof/Machine/TimOps.lean ====
section
/-! DEFINITION. The time-interval unit (14): conditioning of input edges (R396 to R399), starts and stops of a measurement
(R402, R403), and its end and result (R404, R406). -/

namespace Sys2Proof.Machine

/-- An edge's instant in ps of lattice time (R399). -/
def TimEdge.ps (e : TimEdge) : Int := 1000 * (e.tick : Int) - e.before

/-- Source and polarity of a STOP_SRC entry (R415). -/
def stopIs (code src : Nat) (falling : Bool) : Bool := code % 128 == src && bitOf code 7 == falling

/-- The measurement names the input (R398). -/
def Meas.names (m : Meas) (src : Nat) : Bool := m.startSrc = src || m.stopSrcs.any (fun c => c % 128 = src)

/-- Stop `i`. -/
def Meas.stop (m : Meas) (i : Nat) : Option TimEdge := Store.get none m.stops i

/-- The lowest-numbered stop not taken that this edge could be (R402). -/
def Meas.openStop (m : Meas) (src : Nat) (falling : Bool) : Option Nat :=
  (List.range m.stopSrcs.length).find? fun i => (m.stop i).isNone && stopIs (m.stopSrcs.getD i 0) src falling

/-- The edge is of a stop source, with its polarity (R402, R403). -/
def Meas.stopSource (m : Meas) (src : Nat) (falling : Bool) : Bool := m.stopSrcs.any fun c => stopIs c src falling

/-- An edge after the start: it takes its stop where it lies more than −12 ps from the start, coincident within 12 ps
(R402, R403). The measurement, and whether the edge was taken. -/
def Meas.takeStop (m : Meas) (start : TimEdge) (e : TimEdge) (falling : Bool) : Meas × Bool :=
  let diff := e.ps - start.ps
  match (if -12 < diff then m.openStop e.src falling else none) with
  | none => (m, false)
  | some i => ({ m with stops := Store.set none m.stops i (some { e with status := if diff.natAbs ≤ 12 then 1 else 0 }) }, true)

/-- The start is captured; the edges of stop sources seen before it are tried as stops (R402, R403). -/
def Meas.takeStart (m : Meas) (e : TimEdge) : Meas :=
  m.early.foldl (fun (m : Meas) q =>
    let r := m.takeStop e q.1 q.2
    if r.2 then r.1 else { r.1 with early := r.1.early ++ [q] }) { m with start := some { e with status := 0 }, early := [] }

/-- Every stop is taken (R402). -/
def Meas.complete (m : Meas) : Bool := m.start.isSome && (List.range m.stopSrcs.length).all (fun i => (m.stop i).isSome)

/-- A measurement ends (R404): its result joins the 64 most recent, and TIM-measurement-ended is raised. -/
def endMeas (cause : Nat) (d : Dev) : Dev :=
  match d.tim.meas with
  | none => d
  | some m =>
    let m1 : Meas := { m with ended := d.time.lat, cause := cause, orphans := m.early.length, orphan := (m.early.head?).map (·.1) }
    eventCause 112 0xFFFF m.id cause { d with tim := { d.tim with meas := none, results := (m1 :: d.tim.results).take 64 } }

/-- A captured edge reaches the open measurement (R402, R403); an edge of the start's own tick may lie before the start. -/
def timEdge (src : Nat) (falling : Bool) (before : Nat) (d : Dev) : Dev :=
  match d.tim.meas with
  | none => d
  | some m =>
    let e : TimEdge := { tick := d.time.lat, before := before, src := src, status := 0 }
    if !m.isOpen || decide (e.ps < 1000 * (m.openAt : Int)) || decide (1000 * ((m.openAt + m.window : Nat) : Int) < e.ps) then d
    else
      let m1 : Meas := match m.start with
        | none =>
          let m2 := if (m.openStop src falling).isSome then { m with early := m.early ++ [(e, falling)] } else m
          if m.startSrc = src ∧ m.startFalling = falling then m2.takeStart e else m2
        | some s =>
          if decide (e.ps - s.ps ≤ -12) && m.stopSource src falling then { m with early := m.early ++ [(e, falling)] }
          else (m.takeStop s e falling).1
      let d1 := { d with tim := { d.tim with meas := some m1 } }
      if m1.complete then endMeas 0 d1 else d1

/-- The lattice start is the instant START_AT (R402). -/
def latticeStart (d : Dev) : Dev :=
  match d.tim.meas with
  | none => d
  | some m =>
    if m.isOpen && m.startSrc == 64 && m.start.isNone then
      let m1 := m.takeStart { tick := m.startAt, before := 0, src := 64, status := 0 }
      let d1 := { d with tim := { d.tim with meas := some m1 } }
      if m1.complete then endMeas 0 d1 else d1
    else d

/-- An edge ignored by HOLDOFF is counted in a measurement that names its input, its window open or not (R398). -/
def countHeld (src : Nat) (d : Dev) : Dev :=
  match d.tim.meas with
  | none => d
  | some m => if m.names src then { d with tim := { d.tim with meas := some { m with held := m.held + 1 } } } else d

/-- Edges of a polarity between two that pass the prescaler (R396). -/
def prescaleOf (code : Nat) : Nat := match code with | 0 => 1 | 1 => 4 | _ => 16

/-- The source codes of R407 that are inputs. -/
def inputCode (src : Nat) : Bool := decide (src ≤ 8) || decide (16 ≤ src ∧ src ≤ 55)

/-- Conditioning of an edge (R397, R398): whether it is captured, and the device with the input's counts advanced. -/
def conditionEdge (src : Nat) (falling : Bool) (before : Nat) (d : Dev) : Bool × Dev :=
  let q := d.evIn src
  let n := prescaleOf q.prescale
  let count := (if falling then q.phase.2 else q.phase.1) + 1
  let left := count % n
  let q1 : EvIn := { q with phase := if falling then (q.phase.1, left) else (left, q.phase.2) }
  let put (e : EvIn) (d : Dev) : Dev := { d with tim := { d.tim with inputs := Store.set {} d.tim.inputs src e } }
  let t : Int := 1000 * (d.time.raw : Int) - before
  if left ≠ 0 then (false, put q1 d)
  else if q.last.any (fun l => decide (t < l + 1000 * (q.holdoff : Int))) then (false, countHeld src (put q1 d))
  else (true, put { q1 with last := some t } d)

/-- Event inputs after a die reset (R414): HYST is 1 on CMOS inputs. -/
def resetInputs (f : Fuse) : Store EvIn :=
  if f.ports = .vy96 then [] else (List.range 8).map fun i => (i, { hyst := 1 })

end Sys2Proof.Machine
end

