-- ==== Sys2Proof/Machine/LatticeOps.lean ====
section
/-! DEFINITION. Operations of the lattice shared by commands and events: loading lattice time (R149), the expected SYNC
edge (R130), slack (R138 to R142), and the effects of the staged lattice commands (R128, R148). -/

namespace Sys2Proof.Machine

/-- The period in force for a shot that begins now: programmed period plus thermal extension (R127). -/
def periodNow (d : Dev) : Nat := d.lattice.period + d.lattice.ext

/-- The idle margin of the running program (R145). -/
def marginNow (d : Dev) : Nat := match runProg d with | none => 0 | some p => p.margin

/-- End the armed LAT_LOAD with a failure (R149). -/
def cancelArmed (status : Nat) (detail : Nat) (d : Dev) : Dev :=
  match d.lattice.armed with
  | none => d
  | some a => endSeq (some a.seq) (fun c d => failCmd c { status := status, detail := detail } d)
      { d with lattice := { d.lattice with armed := none } }

/-- An instant in eighths of a nanosecond, kept where it lies from now when lattice time is loaded; meridians and ends in whole ticks
likewise. -/
def rebased (old new t : Nat) : Nat := t + 8 * new - 8 * old
def rebasedTick (old new t : Nat) : Nat := t + new - old
def rebasedInt (old new : Nat) (t : Int) : Int := t + 8 * new - 8 * old

/-- An item that a stage plays keeps its distance from now. Where its vertex would lie before 0, an output's item goes on from its first
sample after that, and a window's opening is counted modulo 2^64 ticks, as records give it. -/
def rebasedTok (old new : Nat) (t : Tok) : Tok :=
  match t.vertex with
  | none => t
  | some v =>
    let v1 : Int := v + 4096 * new - 4096 * old
    let gone := ((4095 - v1) / 4096).toNat
    if 0 ≤ v1 then { t with vertex := some v1.toNat }
    else if t.kind = .window then { t with vertex := some (v1 % (4096 * 2 ^ 64)).toNat }
    else { t with vertex := some (v1 + 4096 * gone).toNat, len := t.len - gone, data := t.data.drop gone, got := t.got - gone
                  played := t.played - gone, zeros := t.zeros.map (fun z => (z.1 - gone, z.2 - gone)) }

/-- The MARK item playing keeps its distance from now. -/
def rebasedMark (old new : Nat) (p : MarkPlay) : MarkPlay :=
  let move (t : Int) : Int := t + 128 * new - 128 * old
  { p with start128 := move p.start128, at128 := move p.at128, drivenTo := move p.drivenTo }

/-- Results that a read-out processor holds keep the ticks since their state instants (R294). -/
def rebasedRp (old new : Nat) (r : Rp) : Rp :=
  let move (q : RpResult) : RpResult := { q with lat := q.lat + new - old }
  { r with res := move r.res, queue := r.queue.map move }

/-- Lattice time is loaded: this tick reads VALUE (R149); a TIM measurement fails with "lattice loaded" (R404). -/
def loadLattice (value : Nat) (d0 : Dev) : Dev :=
  let d := settleMark (settlePorts (endMeas Cause.loaded d0))
  let d1 := { d with
    time := { d.time with lat := value, suspect := false, merid := 0, loads := d.time.loads + 1 }
    stages := d.stages.map (fun kv => (kv.1, { kv.2 with
      lastWindow := none, playing := kv.2.playing.map (rebasedTok d.time.lat value), queue := kv.2.queue.map (rebasedTok d.time.lat value)
      tails := kv.2.tails.map (rebasedTok d.time.lat value) }))
    marker := { d.marker with play := d.marker.play.map (rebasedMark d.time.lat value) }
    acq := { d.acq with units := d.acq.units.map (fun kv => (kv.1, { kv.2 with
      trig := rebasedInt d.time.lat value kv.2.trig, seen := rebasedInt d.time.lat value kv.2.seen
      lastEnd := rebasedInt d.time.lat value kv.2.lastEnd, armedAt := rebasedInt d.time.lat value kv.2.armedAt })) }
    chans := d.chans.map (fun kv => (kv.1, { kv.2 with
      cfg := { kv.2.cfg with lag := kv.2.cfg.lag + d.time.lat - value }
      lastClose := rebased d.time.lat value kv.2.lastClose
      invalid := kv.2.invalid.map (fun v => (rebasedTick d.time.lat value v.1, rebasedTick d.time.lat value v.2)) }))
    ports := d.ports.map (fun kv => (kv.1, { kv.2 with
      endsSeen := kv.2.endsSeen.map (fun z => (rebased d.time.lat value z.1, rebased d.time.lat value z.2))
      summedTo := 16 * value, zeroed := kv.2.zeroed.map (fun z => (rebased d.time.lat value z.1, rebased d.time.lat value z.2)) }))
    core := { d.core with rps := d.core.rps.map (fun kv => (kv.1, rebasedRp d.time.lat value kv.2)), run := { d.core.run with
      endAt := rebasedTick d.time.lat value d.core.run.endAt, mers := d.core.run.mers.map (fun m => (m.1, rebasedTick d.time.lat value m.2))
      beforeEnd := rebasedTick d.time.lat value d.core.run.beforeEnd
      before := d.core.run.before.map (fun m => (m.1, rebasedTick d.time.lat value m.2)) } } }
  event 63 0xFFFF 0 d1

/-- The thermal extension of a level (R499, R501). -/
def extensionOf (d : Dev) : Nat :=
  if !d.thermal.extend then 0
  else match d.thermal.level with
    | 0 => 0
    | 1 => (d.lattice.period + 3) / 4
    | 2 => (d.lattice.period + 1) / 2
    | _ => d.lattice.period

/-- The thermal extension follows level, EXTEND and programmed period (R127, R499). -/
def setExtension (d : Dev) : Dev := { d with lattice := { d.lattice with ext := extensionOf d } }

/-- Effect of LAT_SET_PERIOD (R147, R128): the extension is a share of the programmed period. -/
def applySetPeriod (c : Cmd) (d : Dev) : Dev := setExtension { d with lattice := { d.lattice with period := c.arg 0 8 } }

/-- Effect of LAT_SYNC (R148): the first window in follow mode belongs to the meridian after the next one fixed. -/
def applySync (c : Cmd) (d : Dev) : Dev :=
  { d with lattice := { d.lattice with follow := c.arg 0 1 = 1, falling := bitOf (c.arg 1 1) 0, lead := c.arg 4 4 } }

/-- Expected edge E for the next meridian (R130): its schedule less SYNC_LEAD. -/
def expectedEdge (d : Dev) : Nat := d.core.run.next - d.lattice.lead

/-- How far before E the window opens (R130). -/
def edgeEarly (d : Dev) : Nat := min 2048 (marginNow d)

/-! Slack (R138, R142). -/

/-- The value list's median. -/
def median (xs : List Nat) : Nat := (sortBy (fun a b => decide (a ≤ b)) xs).getD (xs.length / 2) 0

/-- Ring `i` of a core's canary rings. -/
def Slack.ring (s : Slack) (i : Nat) : Canary := Store.get {} s.rings i

/-- Rings marked failed. -/
def Slack.failedCount (s : Slack) : Nat := ((List.range 24).filter (fun i => (s.ring i).failed)).length

/-- The slack of a core: the least over its working rings, 0 with the invalid flag when 4 or more failed (R138, R142). -/
def Slack.value (s : Slack) : Nat :=
  if 4 ≤ s.failedCount then 0
  else ((List.range 24).filter (fun i => !(s.ring i).failed)).foldl (fun m i => min m (s.ring i).slack) 0xFFFF

/-- Slack-critical is set, or treated as set (R142). -/
def Slack.isCritical (s : Slack) : Bool := s.critical || decide (4 ≤ s.failedCount)

/-- The number of the core that is active or standby: 0 primary, 1 mirror. -/
def coreNo (d : Dev) (standby : Bool) : Nat := if d.hif.core != standby then 1 else 0

/-- The slack state of the active or standby core. -/
def slackAt (d : Dev) (standby : Bool) : Slack := d.slackOf (d.hif.core != standby)

end Sys2Proof.Machine
end

