-- ==== Sys2Proof/Machine/Samples.lean ====
section
/-! DEFINITION. From the converter of an acquire port to a channel's samples (R249 to R253): the ADC's codes after the delay trim, the
NCO mix, the decimating filter and GAIN; and the counts of end codes and saturations. Instants are in eighths of a nanosecond. -/

namespace Sys2Proof.Machine

/-- The port delivers zeros at an instant: it is connected to the loopback bus (R374, R378). -/
def isZeroed (p : Port) (t8 : Nat) : Bool := p.zeroed.any fun z => decide (z.1 ≤ t8) && decide (t8 < z.2)

/-- The converter's codes from `t8` on, sign-extended (R249, R343). -/
def adcCodes (p : Port) (t8 : Nat) (adc : List (BitVec 12)) : List Int :=
  adc.zipIdx.map fun c => if isZeroed p (t8 + c.2) then 0 else c.1.toInt

/-- The codes after a delay trim (stage 2 of R249; log entry 99). -/
def trimmedCodes (p : Port) (fs : Int) (t8 : Nat) (adc : List (BitVec 12)) : List Int :=
  let xs := adcCodes p t8 adc
  if fs = 0 then xs else (List.range xs.length).map fun n => clampI (-2048) 2047 (Config.delayed fs xs n)

/-- Codes at either end of the converter's range (R250), of samples that no window has counted before: windows of several channels share
them (R249). -/
def endCodes (p : Port) (t8 : Nat) (adc : List (BitVec 12)) : Nat :=
  ((adcCodes p t8 adc).zipIdx).countP fun v =>
    (v.1 == -2048 || v.1 == 2047) && !p.endsSeen.any (fun z => decide (z.1 ≤ t8 + v.2) && decide (t8 + v.2 < z.2))

/-- The samples of a window have been counted; intervals that no window to come can reach go. -/
def markCounted (i t8 n now8 : Nat) (d : Dev) : Dev :=
  let p := d.port i
  d.setPort i { p with endsSeen := p.endsSeen.filter (fun z => decide (now8 < z.2 + 8 * 70000)) ++ [(t8, t8 + n)] }

/-- φ of R251 at an instant, as a 32-bit phase word; a stale channel goes on in its own epoch (R158). -/
def channelPhase (g : ChanCfg) (trim t8 : Nat) : Nat :=
  let x16 : Nat := ((2 * ((t8 : Int) + 8 * g.lag)) % (2 ^ 48 : Int)).toNat
  ((g.ftw * x16 % 2 ^ 48) / 2 ^ 16 + g.z + trim) % 2 ^ 32

/-- One code times e^(−j2πφ) (R251), in 1/2^30 of a code. -/
def mixedCode (g : ChanCfg) (trim t8 : Nat) (v : Int) : IQ :=
  let c := Config.carrier (channelPhase g trim t8)
  ⟨v * c.i, -(v * c.q)⟩

/-- One part of a sample after GAIN: `v` is the filter output in 1/128 of an output step; nearest, a tie by the free bit
`up` (log entry 24). The value before saturation (R253). -/
def gained (gain : Nat) (up : Nat) (v : Int) : Int :=
  let n := v * 2 ^ gain
  let q := Int.fdiv n 128
  let r := Int.fmod n 128
  if r < 64 then q else if 64 < r then q + 1 else q + (up % 2 : Nat)

/-- A sample, and whether it saturated (R253). -/
def gainedSample (gain up : Nat) (x : IQ) : IQ × Bool :=
  let i := gained gain up x.i
  let q := gained gain up x.q
  let r : IQ := ⟨clampI (-32767) 32767 i, clampI (-32767) 32767 q⟩
  (r, r.i ≠ i || r.q ≠ q)

/-- `n` output samples of a channel from `t8` on, each with whether it saturated, of the ADC codes from then on, with the port's trims
(R249 to R253). -/
def channelSamples (d : Dev) (chan : Nat) (g : ChanCfg) (r : Trim) (t8 n : Nat) (adc : List (BitVec 12)) : List (IQ × Bool) :=
  let zs := (trimmedCodes (d.port (84 + chan / 16)) r.delay t8 adc).zipIdx.map fun v => mixedCode g r.phase (t8 + v.2) v.1
  (List.range n).map fun k => gainedSample g.gain (Config.free d.freeCtr) (Config.decimate g.filter zs k)

/-- An acquire port met `n` end codes; shot `k`, if undecided, has over-ranged there (R250). -/
def countEnds (k i n : Nat) (d : Dev) : Dev :=
  if n = 0 then d
  else
    let p := d.port i
    onShot k (fun s => { s with overRange := if s.overRange.contains i then s.overRange else s.overRange ++ [i] })
      (d.setPort i { p with overRange := addW 64 p.overRange n })

/-- A channel saturated `n` samples; shot `k`, if undecided, has a saturating channel on its port (R253). -/
def countSats (k ch n : Nat) (d : Dev) : Dev :=
  if n = 0 then d
  else
    let q := d.chan ch
    let i := 84 + ch / 16
    onShot k (fun s => { s with sat := Store.set 0 s.sat i (Store.get 0 s.sat i ||| BitVec.ofNat 16 (2 ^ (ch % 16))) })
      (d.setChan ch { q with saturated := addW 32 q.saturated n })

/-- The shot whose interval is in progress, as `onShot` names it: none before M(0) or with no program. -/
def intervalShot (d : Dev) : Nat := if running d && decide (1 ≤ d.core.run.k) then d.core.run.k - 1 else 2 ^ 48

/-- The end codes and saturations that no STATE_INSTANT has counted are counted, for the shot in progress (R250, R253; log entry 100). -/
def countAdc (a : AdcSide) (d : Dev) : Dev :=
  let k := intervalShot d
  a.sats.foldl (fun d c => countSats k c.1 c.2 d) (a.ends.foldl (fun d c => countEnds k c.1 c.2 d) d)

end Sys2Proof.Machine
end

