-- ==== Sys2Proof/Machine/AcqOps.lean ====
section
/-! DEFINITION. The acquisition engine's shared operations: rings and their control blocks (R336 to R342), records of capture
units (R343 to R350), fires (R351, R352). -/

namespace Sys2Proof.Machine

/-! Rings. -/

/-- Entries written and not read (R339). -/
def AcqRing.unread (r : AcqRing) : Nat := (r.written + 2 ^ 64 - r.read) % 2 ^ 64

/-- Line 0 of the control block (R337). -/
def lineZero (r : AcqRing) : List Byte :=
  le 8 r.written ++ le 8 r.idx0 ++ le 4 r.geo.length ++ le 4 r.geo.slot ++ le 4 r.gen ++ le 1 (if r.staged.isSome then 2 else 1) ++
    zeros 3 ++ le 8 r.dropped ++ le 8 r.rebased ++ le 8 r.geo.base ++ zeros 8

/-- Keep a ring and write its line 0. -/
def putRing (n : Nat) (r : AcqRing) (d : Dev) : Dev := ddrWrite r.ctrl (lineZero r) (d.setAcqRing n r)

/-- The device writes READ (R338, R342). -/
def writeRead (r : AcqRing) (d : Dev) : Dev := ddrWrite (r.ctrl + 64) (le 8 r.read) d

/-- A staged geometry takes effect (R342). -/
def AcqRing.takeGeometry (r : AcqRing) : AcqRing :=
  match r.staged with
  | none => r
  | some g => { r with geo := g, staged := none, idx0 := r.written, gen := addW 32 r.gen 1 }

/-- The device reads READ (R339, R340); a staged geometry takes effect where the ring is found empty (R342). -/
def pollRing (n : Nat) (x : Ctx) (d : Dev) : Dev :=
  let r := d.acqRing n
  if !r.enabled then d
  else
    let v := fromLe (Mem.read x.ddr (r.ctrl + 64) 8)
    if r.geo.length < (r.written + 2 ^ 64 - v) % 2 ^ 64 then
      let d1 := d.setAcqRing n { r with badRead := true }
      if r.badRead then d1 else event 89 n v d1
    else
      let r1 := { r with read := v, badRead := false }
      if r1.unread = 0 ∧ r1.staged.isSome then putRing n r1.takeGeometry d else d.setAcqRing n r1

/-- A unit's record failed or completed (R363). -/
def countRecord (u : Nat) (ok : Bool) (d : Dev) : Dev :=
  let q := d.unit u
  d.setUnit u (if ok then { q with records := addW 64 q.records 1 } else { q with failed := addW 64 q.failed 1 })

/-- The shot of an entry fails with what befell the entry, unless the entry had failed already (R262, R339, R347). -/
def entryFails (o : Offer) (cause : Nat) (d : Dev) : Dev :=
  match o.shot with
  | none => d
  | some k => failShot k { at4096 := o.at4096, inst := o.inst, cause := cause, detail := 0 } (if o.cause = 0 then 1 else 0) d

/-- A unit's record was not written: it counts as failed, and its missed triggers go into the next record (R345, R349). -/
def unitLost (o : Offer) (d : Dev) : Dev :=
  match o.unit with
  | none => d
  | some u =>
    let d1 := if o.cause = 0 then countRecord u false d else d
    let q := d1.unit u
    d1.setUnit u { q with missedNow := q.missedNow + fld o.bytes 40 4 }

/-- An entry offered to a ring that is not running, or of the other kind (R336). -/
def noRing (ring : Nat) (o : Offer) (d : Dev) : Dev :=
  match o.unit with
  | none => offerResult ring o d
  | some u =>
    let d1 := unitLost o (entryFails o Cause.noRing d)
    let q := d1.unit u
    if q.absentRaised then d1 else event 76 ring 0 (d1.setUnit u { q with absentRaised := true })

/-- The next entry offered to a ring is written, or dropped where the ring is full (R339). -/
def writeEntry (n : Nat) (x : Ctx) (d : Dev) : Dev :=
  match (d.acqRing n).offers with
  | [] => d
  | o :: rest =>
    let d1 := pollRing n x (d.setAcqRing n { d.acqRing n with offers := rest })
    let r := d1.acqRing n
    if !r.enabled ∨ r.kind ≠ o.kind then noRing n o d1
    else if r.unread = r.geo.length then
      let d2 := putRing n { r with dropped := addW 64 r.dropped 1, fullRaised := true } (unitLost o (entryFails o Cause.ringFull d1))
      if r.fullRaised then d2 else event 88 n 0 d2
    else
      let slotAt := r.geo.base + r.geo.slot * (((r.written + 2 ^ 64 - r.idx0) % 2 ^ 64) % r.geo.length)
      let d2 := putRing n { r with written := addW 64 r.written 1, fullRaised := false } (ddrWrite slotAt o.bytes d1)
      match o.unit with
      | none => d2
      | some u => if o.cause = 0 then countRecord u true d2 else d2

/-! Capture units. -/

/-- One sample period of a unit's format in eighths of a nanosecond (R343). -/
def UnitCfg.step (g : UnitCfg) : Nat := if g.demod then 8 else 1

/-- The slot a unit's records need (R343). -/
def UnitCfg.slotNeeded (g : UnitCfg) : Nat := (64 + g.len * (if g.demod then 4 else 2) + 63) / 64 * 64

/-- The channel a unit names. -/
def UnitCfg.chan (g : UnitCfg) : Nat := 16 * g.aport + g.ch

def UnitCfg.group (g : UnitCfg) : Bool := g.tflags.getLsbD 2
def UnitCfg.firing (g : UnitCfg) : Bool := g.tflags.getLsbD 3
def UnitCfg.maskStop (g : UnitCfg) : Bool := g.tflags.getLsbD 7

/-- Instant of sample 0 in eighths (R343), modulo 2^64 (R349). -/
def CapUnit.first8 (u : CapUnit) : Nat := ((u.trig - (u.cfg.pre * u.cfg.step : Nat)) % 2 ^ 64).toNat

/-- End of the capture in eighths; PRE is at most LEN. -/
def CapUnit.end8 (u : CapUnit) : Int := u.trig + (u.cfg.len * u.cfg.step : Nat) - (u.cfg.pre * u.cfg.step : Nat)

/-- No shot (R349). -/
def noShot : Nat := 0xFFFFFFFFFFFF

/-- The shot whose interval contains an instant in eighths (R349), of the program that runs or ran last, or of the one before it. -/
def shotAt (d : Dev) (t8 : Nat) : Nat :=
  let r := d.core.run
  if !r.active && decide (8 * r.endAt ≤ t8) then noShot
  else match r.mers.find? (fun m => decide (8 * m.2 ≤ t8)) with
    | some m => m.1
    | none => if 8 * r.beforeEnd ≤ t8 then noShot
      else match r.before.find? (fun m => decide (8 * m.2 ≤ t8)) with
        | none => noShot
        | some m => m.1

/-- An armed unit begins a record (R344). -/
def beginCapture (u t8 shot origin : Nat) (d : Dev) : Dev :=
  let q := d.unit u
  d.setUnit u { q with st := .capturing, trig := t8, trigShot := shot, origin := origin, trigRemote := origin ≠ d.domain.dev,
                       missedRec := q.missedNow, missedNow := 0 }

/-- A trigger that finds the unit not armed (R345). -/
def missTrigger (u : Nat) (d : Dev) : Dev :=
  let q := d.unit u
  match q.st with
  | .capturing => d.setUnit u { q with missed := addW 64 q.missed 1, missedNow := q.missedNow + 1 }
  | .rearming => d.setUnit u { q with missed := addW 64 q.missed 1, missedNow := q.missedNow + 1 }
  | _ => d

/-- The unit ends for a reason (R344): 0 COUNT, 1 mask stop, 2 ACQ_STOP; commands that wait for it end. -/
def endUnit (u reason : Nat) (d : Dev) : Dev :=
  let q := d.unit u
  let d1 := event 90 u reason (d.setUnit u { q with st := .idle, stopSeqs := [] })
  q.stopSeqs.foldl (fun d n => endSeq (some n) (fun c d => doneCmd c 0x0700 d) d) d1

/-- The parts of a sample that the mask compares (R348); a raw sample has one part (log entry 25). -/
def maskParts (g : UnitCfg) (w : BitVec 32) : List Int :=
  let i := signed 16 (bits w.toNat 15 0)
  let q := signed 16 (bits w.toNat 31 16)
  if !g.demod then [i]
  else match bits g.mask.toNat 2 1 with
    | 0 => [i]
    | 1 => [q]
    | _ => [i, q]

/-- Mask entries after reset (R359). -/
def maskReset : Int × Int := (-32768, 32767)

/-- Indices of the violating samples of a record (R348). -/
def violations (u : CapUnit) (ws : List (BitVec 32)) : List Nat :=
  if !u.cfg.mask.getLsbD 0 then []
  else ((ws.zipIdx).filter fun w =>
    let m := Store.get maskReset u.maskTab (min 255 (w.2 / 2 ^ bits u.cfg.mask.toNat 6 3))
    (maskParts u.cfg w.1).any (fun v => decide (v < m.1) || decide (m.2 < v))).map (·.2)

/-- The dead time of the record in progress, in ns (R345). -/
def CapUnit.dead (u : CapUnit) : Nat := if u.first then 0 else ((u.armedAt - u.lastEnd) / 8).toNat

/-- A unit record (R349). -/
def recordOf (u : Nat) (q : CapUnit) (ws : List (BitVec 32)) (viol : List Nat) (cause : Nat) : List Byte :=
  let fl := flag q.cfg.demod 0 + flag (!viol.isEmpty) 1 + flag (cause = Cause.stopped) 2 + flag q.trigRemote 3 + flag (!q.cfg.edge) 4
  le 6 q.trigShot ++ le 1 u ++ le 1 fl ++ le 8 (q.trig % 2 ^ 64).toNat ++ le 8 q.first8 ++ le 4 ws.length ++ le 2 cause ++
    le 1 q.cfg.chan ++ le 1 q.origin ++ le 4 q.seq ++ le 4 q.dead ++ le 4 q.missedRec ++ le 4 (min 0xFFFFFFFF viol.length) ++
    le 4 (match viol with | [] => 0xFFFFFFFF | v :: _ => v) ++ zeros 12 ++
    ws.flatMap (fun w => le (if q.cfg.demod then 4 else 2) w.toNat)

/-- Offer a unit's record to its ring (R336, R347, R349). -/
def offerRecord (u : Nat) (ws : List (BitVec 32)) (viol : List Nat) (cause : Nat) (d : Dev) : Dev :=
  let q := d.unit u
  let o : Offer := { bytes := recordOf u q ws viol cause, kind := true, shot := if q.cfg.edge then none else some q.trigShot,
                     inst := chanInst q.cfg.chan, at4096 := (512 * q.trig).toNat, unit := some u, cause := cause }
  let d1 := if cause = 0 then d else countRecord u false (
    match o.shot with | none => d | some k => failShot k { at4096 := o.at4096, inst := o.inst, cause := cause, detail := 0 } 1 d)
  if ringTakes d1 q.cfg.ring true then pushOffer q.cfg.ring o d1 else noRing q.cfg.ring o d1

/-- Mask violations of a record are counted and raised (R348). -/
def noteViolations (u : Nat) (viol : List Nat) (d : Dev) : Dev :=
  let q := d.unit u
  if viol.isEmpty then d
  else
    let d1 := d.setUnit u { q with violating := addW 64 q.violating 1, violRaised := true }
    if q.cfg.maskStop || !q.violRaised then event 91 u q.seq d1 else d1

/-- A record has been captured: it is offered, and the unit re-arms or ends (R344, R348). -/
def finishCapture (u : Nat) (ws : List (BitVec 32)) (cause : Nat) (d : Dev) : Dev :=
  let q := d.unit u
  let viol := violations q ws
  let d1 := noteViolations u viol (offerRecord u ws viol cause d)
  let q1 := d1.unit u
  let left := if q1.continuous then q1.left else q1.left - 1
  let d2 := d1.setUnit u { q1 with st := .rearming, seq := addW 32 q1.seq 1, lastEnd := q1.end8, first := false, left := left }
  if !viol.isEmpty && q.cfg.mask.getLsbD 0 && q.cfg.maskStop then endUnit u 1 d2
  else if !q1.stopSeqs.isEmpty then endUnit u 2 d2
  else if !q1.continuous && left = 0 then endUnit u 0 d2
  else d2

/-- The unit is armed for a run of records, unprimed (R344, R346, R360). -/
def armUnit (u count : Nat) (continuous : Bool) (d : Dev) : Dev :=
  let q := d.unit u
  d.setUnit u { q with st := .armed, primed := (false, false), continuous := continuous, left := count, seq := 0, first := true, missedNow := 0, missedRec := 0,
                       violRaised := false, absentRaised := false, deadMax := 0, armedAt := 8 * d.time.lat }

/-! Group capture (R351, R352). -/

/-- Send a class-1 fire on every timed link (R351, R444). -/
def sendFire (m : FireMsg) (d : Dev) : Dev :=
  d.forAll [0, 1, 2, 3] fun l d => if linkTimed (d.link l) then d.setLink l { d.link l with fires := (d.link l).fires ++ [m] } else d

/-- Send a class-1 control message on every timed link. -/
def sendCtrl (m : CtrlMsg) (d : Dev) : Dev :=
  d.forAll [0, 1, 2, 3] fun l d => if linkTimed (d.link l) then d.setLink l { d.link l with ctrls := (d.link l).ctrls ++ [m] } else d

/-- The units of the group on this device. -/
def groupUnits (d : Dev) : List Nat := (List.range 16).filter (fun u => (d.unit u).cfg.group)

/-- Count a missed fire on every armed group unit (R352). -/
def missFire (d : Dev) : Dev :=
  d.forAll (groupUnits d) fun u d =>
    let q := d.unit u
    if q.st = .idle ∨ q.st = .waitingGroup then d
    else d.setUnit u { q with missed := addW 64 q.missed 1, missedNow := q.missedNow + 1 }

/-- A fire that would have won had it come in time (R352): not before the cycle in progress, and before what was decided. -/
def wouldHaveWon (g : GroupCap) (origin t8 : Nat) : Bool :=
  if g.busyUntil ≤ t8 then true
  else decide (g.prevBusy ≤ t8) && (decide (t8 < g.lastT) || (t8 = g.lastT && decide (origin < g.lastOrigin)))

/-- A fire after its own T + FIRE_DELAY (R352): ignored and counted; one that would have won leaves a header-only record. -/
def lateFire (origin t8 : Nat) (d : Dev) : Dev :=
  d.forAll (groupUnits d) fun u d =>
    let q := d.unit u
    if q.st = .idle ∨ q.st = .waitingGroup then d
    else
      let d1 := event 92 u origin (d.setUnit u { q with lateFires := addW 64 q.lateFires 1 })
      if wouldHaveWon d.acq.group origin t8 then
        let q1 := d1.unit u
        let shown := { q1 with
                       trig := t8, trigShot := shotAt d1 t8, origin := origin, trigRemote := origin ≠ d1.domain.dev,
                       missedRec := q1.missedNow, missedNow := 0 }
        let d2 := offerRecord u [] [] Cause.fireLate (d1.setUnit u shown)
        d2.setUnit u { d2.unit u with trig := q1.trig, trigShot := q1.trigShot, origin := q1.origin, trigRemote := q1.trigRemote,
                                      missedRec := q1.missedRec, seq := addW 32 q1.seq 1 }
      else d1

/-- A fire of `origin` at `t8` reaches the group of this device (R352). -/
def takeFire (origin t8 : Nat) (d : Dev) : Dev :=
  let g := d.acq.group
  if !g.armed then d
  else if t8 + 8 * g.fireDelay < 8 * d.time.lat then lateFire origin t8 d
  else if t8 < g.busyUntil then missFire d
  else { d with acq := { d.acq with group := { g with fires := g.fires ++ [(t8, origin)] } } }

/-! Triggers (R346, R347, R351). -/

/-- The trigger of unit `u` fires at `t8`: a unit armed begins its record, one that is not misses it; a unit of the group records only
what the group decides. With FIRES set the fire goes to every member (R351). -/
def unitTrigger (u t8 shot : Nat) (d : Dev) : Dev :=
  let q := d.unit u
  let dev := d.domain.dev
  let fire (d : Dev) : Dev := if q.cfg.firing then takeFire dev t8 (sendFire { origin := dev, t := t8 } d) else d
  match q.st with
  | .idle => d
  | .waitingGroup => d
  | .armed => if q.cfg.group then fire d else fire (beginCapture u t8 shot dev d)
  | _ => if q.cfg.group then fire d else fire (missTrigger u d)

/-- A window of channel `ch` with TRACE opens at `v8` (R347): the RAY-mode unit bound to the channel is triggered; whether it was armed. -/
def rayTrigger (ch v8 shot : Nat) (d : Dev) : Dev × Bool :=
  match (List.range 16).find? (fun u => let q := d.unit u; !q.cfg.edge && q.cfg.chan = ch && q.st ≠ .idle && q.st ≠ .waitingGroup) with
  | none => (d, false)
  | some u => (unitTrigger u v8 shot d, decide ((d.unit u).st = .armed))

/-- A conditioned edge of event input `n` in this tick triggers the EDGE units that watch it (R346, R354, R397). -/
def eventTriggers (n : Nat) (falling : Bool) (d : Dev) : Dev :=
  d.forAll (List.range 16) fun u d =>
    let g := (d.unit u).cfg
    let polarity := bits g.tflags.toNat 1 0
    if g.edge && g.tsrc = 3 && bits g.tflags.toNat 6 4 = n && (polarity = 2 || decide ((polarity = 1) = falling))
    then unitTrigger u (8 * d.time.lat) (shotAt d (8 * d.time.lat)) d else d

/-- One value of a trigger source: whether the trigger fires, and the priming after it (R346). -/
def watch (g : UnitCfg) (primed : Bool × Bool) (x : Int) : Bool × (Bool × Bool) :=
  let polarity := bits g.tflags.toNat 1 0
  let up := polarity ≠ 1
  let down := polarity ≠ 0
  if (up && primed.1 && decide (g.level ≤ x)) || (down && primed.2 && decide (x ≤ g.level)) then (true, (false, false))
  else (false, (primed.1 || (up && decide (x ≤ g.level - g.hyst)), primed.2 || (down && decide (g.level + g.hyst ≤ x))))

/-- The trigger of unit `u` looks at the source's value at `t8`. -/
def watchOne (u : Nat) (d : Dev) (v : Nat × Int) : Dev :=
  let q := d.unit u
  let (fires, p) := watch q.cfg q.primed v.2
  let d1 := d.setUnit u { q with primed := p }
  if fires then let d2 := advanceTo (v.1 / 8) d1; unitTrigger u v.1 (shotAt d2 v.1) d2 else d1

/-- The samples of a unit's data source from `t8` on, of the codes of its acquire port (R343). -/
def unitSamples (d : Dev) (g : UnitCfg) (t8 n : Nat) (adc : List (BitVec 12)) : List IQ :=
  if g.demod then (channelSamples d g.chan (d.chan g.chan).cfg (d.trim (84 + g.chan / 16)) t8 n adc).map (·.1)
  else (List.range n).map fun k => ⟨(trimmedCodes (d.port (84 + g.aport)) (d.trim (84 + g.aport)).delay t8 adc).getD k 0, 0⟩

/-- A sample as a record's word (R343). -/
def sampleWord (g : UnitCfg) (v : IQ) : BitVec 32 :=
  if g.demod then BitVec.ofInt 16 v.q ++ BitVec.ofInt 16 v.i else (BitVec.ofInt 16 v.i).setWidth 32

/-- The values of the trigger source in whole ticks of codes from `t8` on, with their instants; none of a source that is no sample
stream. -/
def triggerValues (d : Dev) (g : UnitCfg) (t8 ticks : Nat) (adc : List (BitVec 12)) : List (Nat × Int) :=
  match g.tsrc with
  | 0 => (unitSamples d { g with demod := false } t8 (8 * ticks) adc).zipIdx.map fun v => (t8 + v.2, v.1.i)
  | 1 => (unitSamples d { g with demod := true } t8 ticks adc).zipIdx.map fun v => (t8 + 8 * v.2, v.1.i)
  | 2 => (unitSamples d { g with demod := true } t8 ticks adc).zipIdx.map fun v => (t8 + 8 * v.2, v.1.q)
  | _ => []

/-- The values of a unit's data source at `n` eighths of a nanosecond from `t8` on: the codes, or the channel's output with its filter in the
phase of that eighth, so that a record may begin at any of them (R256, R343). -/
def unitStream (d : Dev) (g : UnitCfg) (t8 n : Nat) (adc : List (BitVec 12)) : List IQ :=
  if g.demod then
    let phases := (List.range 8).map fun e => unitSamples d g (t8 + e) ((n + 7) / 8) (adc.drop e)
    (List.range n).map fun j => (phases.getD (j % 8) []).getD (j / 8) ⟨0, 0⟩
  else unitSamples d g t8 n adc

/-- The source's values of the codes `adc` join the unit's history, as long as 8,192 of its samples (R343): they follow what it has seen, or
begin at this tick (log entry 102). The instant of the first. -/
def feedFrom (d : Dev) (u : Nat) : Nat := (max ((d.unit u).seen + 7) (8 * d.time.lat : Nat) / 8 * 8).toNat
def feedUnit (u : Nat) (adc : List (BitVec 12)) (d : Dev) : Dev :=
  let q := d.unit u
  let t8 := feedFrom d u
  let n := adc.length / 8 * 8
  let new := unitStream d q.cfg t8 n adc
  let all := if (t8 : Int) = q.seen then q.history ++ new else new
  d.setUnit u { q with history := all.drop (all.length - 8192 * q.cfg.step), seen := t8 + n }

/-- Sample `i` of the record in progress: from the history where it holds that instant, else from the codes `adc`, which begin at the
record's sample 0. -/
def recordSample (q : CapUnit) (late : List IQ) (i : Nat) : BitVec 32 :=
  let at_ : Int := q.trig - q.cfg.pre * q.cfg.step + i * q.cfg.step
  let from_ : Int := q.seen - q.history.length
  let old := decide (from_ ≤ at_) && decide (at_ < q.seen)
  sampleWord q.cfg (if old then q.history.getD (at_ - from_).toNat ⟨0, 0⟩ else late.getD i ⟨0, 0⟩)

/-- The first `n` words of the record in progress. -/
def recordWords (u n : Nat) (adc : List (BitVec 12)) (d : Dev) : List (BitVec 32) :=
  let q := d.unit u
  let late := unitSamples d q.cfg q.first8 n adc
  (List.range n).map (recordSample q late)

end Sys2Proof.Machine
end

