-- ==== Sys2Proof/Machine/Journal.lean ====
section
/-! DEFINITION. What commands that have not ended change of the shared blocks (R80, R85, R466): kept beside them, so that a command that
fails with 0x001E or 0x00FF leaves nothing behind (R89; log entry 106). -/

namespace Sys2Proof.Machine

/-! What commands set (R466). -/

def Port.set (p : Port) : PortSet :=
  { cfg := p.cfg, level := (p.dc, p.target, p.ramp), causes := p.causes, cond := (p.safe, p.entered, p.resumed)
    sense := (p.sense, p.lastSense), counts := [p.released, p.clipped, p.underrun, p.windows, p.discarded, p.overRange] }

def Chan.set (c : Chan) : ChanSet := { cfg := c.cfg, counts := (c.windows, c.saturated), states := c.states }

def CapUnit.set (u : CapUnit) : UnitSet :=
  { cfg := u.cfg, maskTab := u.maskTab, arm := (u.st, u.continuous, u.left)
    counts := [u.records, u.failed, u.missed, u.violating, u.lateFires] }

def Link.set (k : Link) : LinkSet :=
  { enable := k.enable, idle := k.idle, ctleCodes := k.ctleCodes, delayFs := k.delayFs, counts := [k.crcErrors, k.retrains, k.misrouted] }

/-- What each entry of a store holds of it. -/
def Store.view {α β : Type} (f : α → β) (s : Store α) : Store β := s.map fun kv => (kv.1, f kv.2)

/-- How far lattice time stands from the raw counter. -/
def latOffset (t : Time) : Nat := (t.lat + 2 ^ 64 - t.raw) % 2 ^ 64

/-- What commands have set of the shared blocks. -/
def sharedOf (d : Dev) : Shared :=
  let m := d.marker
  let l := d.lattice
  let t := d.time
  let n := d.chords
  { ports := Store.view Port.set d.ports, chans := Store.view Chan.set d.chans, env := d.env, pages := d.pages
    vectors := m.vectors, tsets := m.tsets, pinStates := (m.idle, m.safeSt, m.failShot), owned := m.owned
    markCauses := m.causes, markCond := (m.safe, m.entered), markCounts := [m.items, m.failPeriods, m.failStrobes], markFails := m.fails
    period := l.period, sync := (l.follow, l.falling, l.lead), refSel := (l.refPN, l.fallback), armed := l.armed
    loaded := (t.loads, latOffset t), wall := (t.w0, t.r0, t.rate), steps := (t.stepped, t.steps), gens := t.gens
    rings := d.acq.rings, units := Store.view CapUnit.set d.acq.units, group := d.acq.group
    cal := (d.cal.background, d.cal.commitS, d.cal.commitAt)
    inputs := Store.view (fun e => (e.hyst, e.prescale, e.holdoff)) d.tim.inputs
    bench := (d.bench.hard, d.bench.latch, d.bench.senseOff, d.bench.auto), ind := d.bench.ind, hold := (d.bench.hold, d.bench.resumeHold)
    links := Store.view Link.set d.links, domain := { d.domain with corr := 0 }
    extend := (d.thermal.extend, d.thermal.extendNext), diodes := (List.range 4).map (fun i => (i, (d.remote i).limit, (d.remote i).ideal))
    lowPower := d.house.lowPower, rails := Store.view (fun r => (r.vMin, r.vMax)) d.house.rails
    chords := [n.fastSent, n.slowSent, n.missingSent, n.remoteRecv, n.decisions, n.fbMissing, n.fbLate, n.slotDefer]
    discards := d.discards, discardTotal := d.discardTotal
    mirror := (d.mirror.takeover, d.mirror.shadow, d.mirror.autoRecover), staged := (d.images.staged, d.images.stagedInEnv) }

/-! Keeping it. -/

/-- The command has not ended, or its entry is still to be posted. -/
def unended (d : Dev) (seq : Nat) : Bool := (cmdOf d seq).isSome || (allHeld d).any (fun k => k.seq = seq)

/-- Keep what a command has changed since `before`, while it may still end with 0x001E or 0x00FF. -/
def noteUndo (seq : Nat) (before : Shared) (d : Dev) : Dev :=
  let now := sharedOf d
  if now = before || !unended d seq then d
  else { d with mirror := { d.mirror with undo := { seq := seq, before := before, after := now } :: d.mirror.undo.filter (unended d ·.seq) } }

/-- An effect of the command of an acceptance number. -/
def journal (seq : Nat) (f : Dev → Dev) (d : Dev) : Dev := noteUndo seq (sharedOf d) (f d)

end Sys2Proof.Machine
end

