-- ==== Sys2Proof/Machine/Commands.lean ====
section
/-! DEFINITION. Acceptance, the conditions under which a command begins, and the checks made when it does
(R64, R77, R78, R83, R107, R29). -/

namespace Sys2Proof.Machine

/-- Opcodes of SYS_ABORT and of the commands whose kind is staged (R29). -/
def opAbort : Nat := 0x0103
def stagedOps : List Nat :=
  [0x0202, 0x0203, 0x0301, 0x0302, 0x0303, 0x0306, 0x0307, 0x0380, 0x0381, 0x0382, 0x0404, 0x0500, 0x0501, 0x0502, 0x05C0,
   0x05C2, 0x0605, 0x0606, 0x0607, 0x0805, 0x0A01]

/-- The opcodes defined at IL 7 to 9 (R87 and each chapter). -/
def definedOp (op : Nat) : Bool :=
  let g := op / 256
  let b := op % 256
  if g = 1 then decide (b ≤ 3) || decide (0x80 ≤ b ∧ b ≤ 0x82)
  else if g = 2 then decide (b ≤ 6)
  else if g = 3 then decide (b ≤ 7) || decide (0x80 ≤ b ∧ b ≤ 0x83)
  else if g = 4 then decide (b ≤ 5)
  else if g = 5 then decide (b ≤ 3) || decide (0xC0 ≤ b ∧ b ≤ 0xC3)
  else if g = 6 then decide (b ≤ 7)
  else if g = 7 then decide (b ≤ 7)
  else if g = 8 then decide (b ≤ 6)
  else if g = 9 then decide (b ≤ 4 ∧ 1 ≤ b) || decide (0x80 ≤ b ∧ b ≤ 0x83)
  else if g = 10 then decide (b ≤ 8)
  else if g = 11 then decide (b ≤ 4)
  else if g = 12 then decide (b ≤ 3)
  else if g = 13 then decide (b ≤ 4)
  else if g = 14 then decide (b ≤ 6)
  else false

/-- Opcodes permitted in restricted mode (R84). -/
def restrictedOp (op : Nat) : Bool :=
  decide (0x0100 ≤ op ∧ op ≤ 0x0103) || decide (0x0180 ≤ op ∧ op ≤ 0x01FF) || decide (0x0E00 ≤ op ∧ op ≤ 0x0EFF)

/-- Image commands run one at a time across all mailboxes (R107). -/
def imageOp (op : Nat) : Bool := decide (0x0E01 ≤ op ∧ op ≤ 0x0E06)

/-- Commands that copy bulk data into on-die memories (R141). -/
def bulkCopyOp (op : Nat) : Bool := [0x0303, 0x0401, 0x0404, 0x0501, 0x05C0, 0x0601, 0x0603, 0x0704, 0x0805, 0x0A02, 0x0A03].contains op

/-- RP_MEM_WRITE with SRC 1 copies from DDR5 (R302). -/
def copiesFromDdr (c : Cmd) : Bool := c.op = 0x0601 && decide (2 ≤ c.length) && fld c.bytes 33 1 = 1

/-- A switch-over gap is open: no core runs firmware or a meridian's steps (R475). -/
def inGap (d : Dev) : Bool := match d.mirror.sw with | none => false | some g => !g.gapOver

/-- Firmware of the active core runs: the device is ready or restricted, the core has not failed and no switch-over gap is open (R61, R85,
R475). -/
def firmwareRuns (d : Dev) : Bool :=
  (d.hif.state = .ready || d.hif.state = .restricted) && !d.mirror.failed && !inGap d

/-- The unfinished commands accepted before `c`. -/
def acceptedBefore (d : Dev) (c : Cmd) : List Cmd := d.core.cmds.takeWhile (fun q => q.seq ≠ c.seq)

/-- The command may begin (R77, R78, R29, R107, R113, R141; a bulk payload waits for the host link, R30, and an LNK_ALIGN for the one in
progress, log entry 118). -/
def mayBegin (d : Dev) (c : Cmd) : Bool :=
  let before := acceptedBefore d c
  !c.begun && firmwareRuns d &&
  before.all (fun q => q.mb ≠ c.mb) &&
  (!c.fence || before.isEmpty) &&
  (!stagedOps.contains c.op || before.all (fun q => q.begun || !stagedOps.contains q.op)) &&
  (!imageOp c.op || before.all (fun q => !imageOp q.op)) &&
  (c.op ≠ 0x0E04 || before.isEmpty) &&
  (c.op ≠ 0x0B04 || d.domain.alignSeq.isNone) &&
  (!c.bulk || d.hif.linkUp) &&
  !(bulkCopyOp c.op && (c.bulk || copiesFromDdr c) && (d.slackOf d.hif.core).throttled)

/-- The command a mailbox would begin next. -/
def nextCmd (d : Dev) (mb : Nat) : Option Cmd := (d.core.cmds.find? (fun q => q.mb = mb)).filter (mayBegin d)

/-! Checks 1 to 9 of R83. -/

/-- Descriptor `i` of a bulk command (R68): host address and length. -/
def Cmd.desc (c : Cmd) (i : Nat) : Nat × Nat := (fld c.bytes (32 + 32 * i) 8, fld c.bytes (48 + 32 * i) 4)

/-- A descriptor's fields in ascending offset (R47, R68). -/
def descFail (c : Cmd) (i : Nat) : Option Fail :=
  let o := 32 + 32 * i
  if fld c.bytes o 8 % 4 ≠ 0 then some (atOffset 0x16 o)
  else if fld c.bytes (o + 8) 8 ≠ 0 then some (atOffset 0x16 (o + 8))
  else if fld c.bytes (o + 16) 4 % 4 ≠ 0 then some (atOffset 0x16 (o + 16))
  else if fld c.bytes (o + 20) 2 ≠ 0 then some (atOffset 0x16 (o + 20))
  else if fld c.bytes (o + 22) 1 ≠ 0 then some (atOffset 0x16 (o + 22))
  else if fld c.bytes (o + 23) 1 ≠ 0 then some (atOffset 0x16 (o + 23))
  else if fld c.bytes (o + 24) 4 ≠ 0 then some (atOffset 0x16 (o + 24))
  else if fld c.bytes (o + 28) 4 ≠ 0 then some (atOffset 0x16 (o + 28))
  else none

/-- Check 6: framing (R65, R68). Inside the check the order LENGTH, DCOUNT, descriptors, sum is DESIGN CHOICE, log entry 98. -/
def framingFail (c : Cmd) : Option Fail :=
  if !c.bulk then
    if 96 < c.length then some (atOffset 0x16 8) else if c.dcount ≠ 0 then some (atOffset 0x16 12) else none
  else if c.length < 4 ∨ 64 * 2 ^ 20 < c.length ∨ c.length % 4 ≠ 0 then some (atOffset 0x16 8)
  else if c.dcount = 0 ∨ 3 < c.dcount then some (atOffset 0x16 12)
  else match firstFail ((List.range c.dcount).map (descFail c)) with
    | some f => some f
    | none => if ((List.range c.dcount).map (fun i => (c.desc i).2)).sum ≠ c.length then some (atOffset 0x16 8) else none

/-- Check 7: the result buffer (R65). -/
def resultFail (c : Cmd) : Option Fail :=
  if c.raddr % 4 ≠ 0 then some (atOffset 0x19 16)
  else if c.rlen % 4 ≠ 0 ∨ 64 * 2 ^ 20 < c.rlen ∨ (c.raddr = 0 ↔ c.rlen ≠ 0) then some (atOffset 0x19 24)
  else none

/-- Check 8: reading the bulk payload (R69); DETAIL is the descriptor index. -/
def readFail (d : Dev) (c : Cmd) : Option Fail :=
  if !c.bulk then none
  else firstFail ((List.range c.dcount).map fun i =>
    let (a, n) := c.desc i
    if n ≠ 0 ∧ (hostFault d a n).isSome then some { status := 0x17, detail := i } else none)

/-- The payload (R67, R68). -/
def payloadOf (x : Ctx) (c : Cmd) : List Byte :=
  if c.bulk then (List.range c.dcount).flatMap (fun i => Mem.read x.host (c.desc i).1 (c.desc i).2)
  else (c.bytes.drop 32).take c.length

/-- Checks 1 to 8 of R83, in order. -/
def headerFail (d : Dev) (c : Cmd) : Option Fail :=
  let pin := (d.pin c.mb).level
  if c.il < d.hif.ilLow ∨ d.hif.ilHigh < c.il ∨ (c.op ≠ 0x0101 ∧ pin ≠ 0 ∧ c.il ≠ pin) then some (atOffset 0x12 2)
  else if !definedOp c.op then some (atOffset 0x10 0)
  else if d.hif.state = .restricted ∧ !restrictedOp c.op then some (atOffset 0x1A 0)
  else if 4 ≤ c.flags then some (atOffset 0x13 3)
  else if fld c.bytes 13 3 ≠ 0 then some (atOffset 0x13 13)
  else if fld c.bytes 28 4 ≠ 0 then some (atOffset 0x13 28)
  else match framingFail c with
    | some f => some f
    | none => match resultFail c with
      | some f => some f
      | none => readFail d c

/-- What one command's chapter gives: its opcode, the payload lengths it allows (check 9), its own checks (check 10) and
its effect, which ends it or leaves it running. -/
structure CmdSpec where
  op : Nat
  len : Cmd → Bool
  check : Ctx → Cmd → Dev → Option Fail
  act : Ctx → Cmd → Dev → Dev

/-- The length must be exactly `n`. -/
def lenIs (n : Nat) (c : Cmd) : Bool := c.length == n

/-- Firmware finds itself inconsistent (R86): the command fails before it takes effect, and event 55 names its mailbox and opcode. -/
def failBroken (c : Cmd) (d : Dev) : Dev := failCmd c { status := 0xFF } (event 55 c.mb c.op d)

/-- A command begins: its checks in the order of R83, then its effect. The payload is read when it begins (R69). -/
def beginCmd (sp : CmdSpec) (c : Cmd) (x : Ctx) (d : Dev) : Dev :=
  match headerFail d c with
  | some f => failCmd c f d
  | none =>
    let c1 := { c with payload := payloadOf x c, begun := true }
    if !sp.len c1 then failCmd c1 (atOffset 0x15 8) d
    else match sp.check x c1 d with
      | some f => failCmd c1 f d
      | none => if d.fwBroken then failBroken c1 d else journal c1.seq (sp.act x c1) (putCmd c1 d)

/-- The row of one opcode: the mailbox's next command, if it is that one, begins. -/
def runCmd (sp : CmdSpec) (mb : Nat) (x : Ctx) (d : Dev) : Dev :=
  match nextCmd d mb with
  | none => d
  | some c => if c.op = sp.op then beginCmd sp c x d else d

/-- A command's row: the host's side of memory, then the mailbox's next command. -/
def cmdRow (sp : CmdSpec) (mb : Nat) (h : HostSide) (s : State) : Host.Outcome State Fault Refusal :=
  .next ((s.sync h).on (runCmd sp mb))

/-! Acceptance (R64). -/

/-- The bytes of a slot. -/
def slotBytes (d : Dev) (mb slot : Nat) : List Byte :=
  (List.range 128).map fun i => Store.get 0 d.slots (2048 * mb + 128 * slot + i)

/-- Accept one doorbelled command: the slot is copied, the next acceptance number assigned, MB_POSTED incremented (R64). -/
def acceptBell (b : Nat × Nat) (d : Dev) : Dev :=
  let m := d.mb b.1
  let c : Cmd := { mb := b.1, slot := b.2, seq := d.core.nextSeq, epoch := d.mirror.epochs, bytes := slotBytes d b.1 b.2 }
  { d.setMb b.1 { m with posted := m.posted + 1 } with
    bells := d.bells.erase b
    core := { d.core with cmds := d.core.cmds ++ [c], nextSeq := addW 32 d.core.nextSeq 1 } }

/-- The command accepted last. -/
def lastAccepted (d : Dev) : Option Cmd := d.core.cmds.getLast?

/-- Accept and end with 0x001D, unchecked (R75). -/
def acceptDisabled (b : Nat × Nat) (d : Dev) : Dev :=
  let d1 := acceptBell b d
  match lastAccepted d1 with
  | none => d1
  | some c => failCmd c { status := 0x1D } d1

/-! Checks of single payload fields (R13, R14, R556). Offsets are payload offsets. -/

/-- A reserved field. -/
def fRes (c : Cmd) (off size : Nat) : Option Fail := if c.arg off size ≠ 0 then some (atPayload 0x13 off) else none
/-- Reserved bits of a FLAGS byte: all at or above bit `n`. -/
def fFlags (c : Cmd) (off n : Nat) : Option Fail := if 2 ^ n ≤ c.arg off 1 then some (atPayload 0x13 off) else none
/-- A field with a range, both ends included. -/
def fRange (c : Cmd) (off size lo hi : Nat) : Option Fail :=
  if c.arg off size < lo ∨ hi < c.arg off size then some (atPayload 0x1B off) else none
/-- A signed field with a range. -/
def fRangeS (c : Cmd) (off size : Nat) (lo hi : Int) : Option Fail :=
  if c.argS off size < lo ∨ hi < c.argS off size then some (atPayload 0x1B off) else none
/-- A failure at a payload field when `bad`. -/
def fIf (bad : Bool) (status off : Nat) : Option Fail := if bad then some (atPayload status off) else none
/-- A failure with no field when `bad`. -/
def fNone (bad : Bool) (status : Nat) : Option Fail := if bad then some { status := status } else none
/-- A port index (R180): range 0 to 96, then a port the part has. -/
def fPort (x : Ctx) (c : Cmd) (off : Nat) : Option Fail :=
  if 96 < c.arg off 1 then some (atPayload 0x1B off)
  else if !x.fuse.hasPort (c.arg off 1) then some (atPayload 0x14 off) else none

end Sys2Proof.Machine
end

