-- ==== Sys2Proof/Machine/ProgCheck.lean ====
section
/-! DEFINITION. Load-time checks: the program image (R196, R197), its words and loop structure (R219 to R243), the static
extent (R197 check 4), and loci (R198 to R200). -/

namespace Sys2Proof.Machine

/-! Loci. -/

/-- The locus in 64 bytes at offset `o` of a byte list (R198). -/
def locusAt (bs : List Byte) (o : Nat) : Locus :=
  { port := fld bs o 1, frame := fld bs (o + 1) 1, flags := BitVec.ofNat 16 (fld bs (o + 2) 2), envAddr := fld bs (o + 4) 4,
    envLen := fld bs (o + 8) 4, duration := fld bs (o + 12) 4, amp := fld bs (o + 16) 2, theta := fld bs (o + 20) 4,
    ftw := fld bs (o + 24) 8, vz := fld bs (o + 32) 4, streamAddr := fld bs (o + 40) 8, label := fld bs (o + 56) 8 }

/-- The 64 bytes of a locus (R198). -/
def locusBytes (l : Locus) : List Byte :=
  le 1 l.port ++ le 1 l.frame ++ le 2 l.flags.toNat ++ le 4 l.envAddr ++ le 4 l.envLen ++ le 4 l.duration ++ le 2 l.amp ++
    zeros 2 ++ le 4 l.theta ++ le 8 l.ftw ++ le 4 l.vz ++ zeros 4 ++ le 8 l.streamAddr ++ zeros 8 ++ le 8 l.label

def Locus.const (l : Locus) : Bool := l.flags.getLsbD 0
def Locus.setFtw (l : Locus) : Bool := l.flags.getLsbD 1
def Locus.addVz (l : Locus) : Bool := l.flags.getLsbD 2
def Locus.jump (l : Locus) : Bool := l.flags.getLsbD 3
def Locus.stream (l : Locus) : Bool := l.flags.getLsbD 4

/-- The generic faults of one locus, in ascending offset: status and offset within the locus (R198, R556). -/
def locusGeneric (x : Ctx) (l : Locus) (res : Nat → Nat → Nat) : Option (Nat × Nat) :=
  let k := portKind l.port
  if 83 < l.port then some (0x1B, 0)
  else if !x.fuse.hasPort l.port then some (0x14, 0)
  else if (k = .drive ∧ 3 < l.frame) ∨ (k = .probe ∧ 15 < l.frame) then some (0x1B, 1)
  else if k = .flux ∧ l.frame ≠ 0 then some (0x13, 1)
  else if 32 ≤ l.flags.toNat then some (0x13, 2)
  else if (l.const ∨ l.stream) ∧ l.envAddr ≠ 0 then some (0x13, 4)
  else if !(l.const || l.stream) ∧ (if k = .flux then 131072 else 65536) < l.envLen then some (0x1B, 8)
  else if res 18 2 ≠ 0 then some (0x13, 18)
  else if l.setFtw ∧ 2 ^ 47 ≤ l.ftw then some (0x1B, 24)
  else if !l.setFtw ∧ l.ftw ≠ 0 then some (0x13, 24)
  else if !l.addVz ∧ l.vz ≠ 0 then some (0x13, 32)
  else if res 36 4 ≠ 0 then some (0x13, 36)
  else if l.stream ∧ l.streamAddr % 64 ≠ 0 then some (0x1B, 40)
  else if !l.stream ∧ l.streamAddr ≠ 0 then some (0x13, 40)
  else if res 48 8 ≠ 0 then some (0x13, 48)
  else none

/-- The conditions of R199, in ascending offset: the offset within the locus of the field at fault. -/
def locusOwn (x : Ctx) (d : Dev) (l : Locus) : Option Nat :=
  let k := portKind l.port
  let words := if k = .flux then (l.envAddr + l.envLen + 1) / 2 else l.envAddr + l.envLen
  let bytes := if k = .flux then 2 * l.envLen else 4 * l.envLen
  if k ≠ .drive ∧ (l.setFtw ∨ l.addVz) then some 2
  else if l.const ∧ l.stream then some 2
  else if l.stream ∧ k = .probe then some 2
  else if !l.const ∧ !l.stream ∧ envWords x.fuse d l.port < words then some 4
  else if k ≠ .drive ∧ l.theta ≠ 0 then some 20
  else if l.stream ∧ !ddrUsable d l.streamAddr bytes then some 40
  else none

/-- The status of a locus that fails R199: 0x0413, DETAIL within the locus, IMM its index (R212). -/
def locusFail (x : Ctx) (d : Dev) (ix : Nat) (l : Locus) : Option Fail :=
  (locusOwn x d l).map fun o => { status := 0x0413, detail := o, imm := ix }

/-! Words of a program. -/

/-- The opcode of a word (R219). -/
def opOf (w : Nat) : Nat := w / 2 ^ 56

/-- The opcodes of R220. -/
def rayOps : List Nat :=
  [0x01, 0x02, 0x03, 0x08, 0x09, 0x10, 0x11, 0x14, 0x15, 0x18, 0x1C, 0x20, 0x21, 0x24, 0x25, 0x28, 0x30, 0x31]

/-- Check 2 of R243: reserved bits, and fields that must be 0 in the form used. -/
def wordReserved (w : Nat) : Bool :=
  let r := bitOf w 55
  match opOf w with
  | 0x01 => bits w 55 0 ≠ 0
  | 0x02 => bits w 55 0 ≠ 0
  | 0x03 => bits w 50 0 ≠ 0
  | 0x08 => bits w 54 52 ≠ 0 || (if r then bits w 47 0 ≠ 0 else bits w 51 48 ≠ 0)
  | 0x09 => bits w 54 52 ≠ 0 || (if r then bits w 47 0 ≠ 0 else bits w 51 48 ≠ 0)
  | 0x10 => bits w 54 52 ≠ 0 || bits w 47 16 ≠ 0 || (if r then bits w 15 0 ≠ 0 else bits w 51 48 ≠ 0)
  | 0x11 => bits w 54 52 ≠ 0 || bits w 47 16 ≠ 0 || (if r then bits w 15 0 ≠ 0 else bits w 51 48 ≠ 0)
  | 0x14 => bitOf w 47 && bits w 46 4 ≠ 0
  | 0x15 => bits w 46 36 ≠ 0 || (if bitOf w 47 then bits w 31 0 ≠ 0 else bits w 35 32 ≠ 0)
  | 0x18 => bits w 45 17 ≠ 0
  | 0x1C => bits w 55 49 ≠ 0 || bits w 31 16 ≠ 0
  | 0x20 => bits w 54 52 ≠ 0 || bits w 47 44 ≠ 0 || (if r then bits w 23 0 ≠ 0 else bits w 51 48 ≠ 0)
  | 0x21 => bits w 55 0 ≠ 0
  | 0x24 => bits w 55 20 ≠ 0
  | 0x25 => bits w 46 44 ≠ 0 || (if bitOf w 47 then bits w 19 0 ≠ 0 else bits w 43 40 ≠ 0)
  | 0x28 => bits w 45 0 ≠ 0
  | 0x30 => bits w 49 48 ≠ 0
  | 0x31 => bits w 46 44 ≠ 0 || (if bitOf w 47 then bits w 39 0 ≠ 0 else bits w 43 40 ≠ 0)
  | _ => false

/-- Check 3 of R243: a port or channel the part does not have. -/
def wordAbsent (f : Fuse) (w : Nat) : Bool :=
  match opOf w with
  | 0x14 => decide (f.drives ≤ bits w 55 50)
  | 0x15 => decide (f.drives ≤ bits w 55 50)
  | 0x18 => decide (f.acquires ≤ bits w 55 52)
  | _ => false

/-- Check 4 of R243: operand values (log entry 21 for SETG). -/
def wordValue (d : Dev) (words w : Nat) : Bool :=
  let locusBad (stream : Bool) := !bitOf w 55 && (decide (40959 < bits w 15 0) || (d.locus (bits w 15 0)).stream != stream)
  match opOf w with
  | 0x10 => locusBad false
  | 0x11 => locusBad true
  | 0x18 => decide (bits w 16 0 < 16) || decide (65536 < bits w 16 0)
  | 0x1C => decide (65536 < bits w 48 32) || decide (65536 < bits w 15 0 + bits w 48 32)
  | 0x24 => decide (words ≤ bits w 19 0)
  | 0x25 => decide (7 < bits w 55 52) || decide (words ≤ bits w 39 20)
  | 0x30 => (match bits w 51 50 with | 0 => false | 1 => bits w 47 16 ≠ 0 | _ => bits w 47 0 ≠ 0)
  | _ => false

/-- The END of a LOOP word. -/
def loopEnd (w : Nat) : Nat := bits w 43 24

/-- The offsets of the LOOPs whose span contains word `i`: its level (R242). -/
def levelOf (code : List Nat) (i : Nat) : List Nat :=
  (List.range i).filter fun p => opOf (code.getD p 0) = 0x20 && decide (i ≤ loopEnd (code.getD p 0))

/-- Check 5 of R243 at word `i`: loop structure and jump levels (R242). `entries` are the rays' ENTRY offsets. DESIGN CHOICE (log entry 147):
of two LOOPs whose spans cross the later one is the word that fails, and a fifth level fails at the fifth LOOP word. -/
def structureBad (code entries : List Nat) (i : Nat) : Bool :=
  let w := code.getD i 0
  let lv := levelOf code i
  let target (t : Nat) : Bool := levelOf code t != lv
  (entries.contains i && !lv.isEmpty) ||
  match opOf w with
  | 0x20 =>
    let e := loopEnd w
    decide (e ≤ i) || decide (code.length ≤ e) || opOf (code.getD e 0) != 0x21 || decide (4 ≤ lv.length) ||
      lv.any (fun p => decide (loopEnd (code.getD p 0) < e))
  | 0x21 => ((List.range i).filter (fun p => opOf (code.getD p 0) = 0x20 && loopEnd (code.getD p 0) = i)).length != 1
  | 0x24 => target (bits w 19 0)
  | 0x25 => target (bits w 39 20)
  | _ => false

/-- Checks 1 to 5 of R243 at word `i`: the status. -/
def wordFail (x : Ctx) (d : Dev) (code entries : List Nat) (i : Nat) : Option Fail :=
  let w := code.getD i 0
  if !rayOps.contains (opOf w) then some { status := 0x0415, imm := i }
  else if wordReserved w then some { status := 0x0013, imm := i }
  else if wordAbsent x.fuse w then some { status := 0x0014, imm := i }
  else if wordValue d code.length w then some { status := 0x0415, imm := i }
  else if structureBad code entries i then some { status := 0x0415, imm := i }
  else none

/-- The words that can follow word `i`: a LOOP with an immediate COUNT runs its body, or with COUNT 0 skips it (R203, R230); `back` adds
the way back from an ENDL to its body. -/
def successors (code : List Nat) (back : Bool) (i : Nat) : List Nat :=
  let w := code.getD i 0
  match opOf w with
  | 0x01 => []
  | 0x20 => if bitOf w 55 then [i + 1, loopEnd w + 1] else if bits w 23 0 = 0 then [loopEnd w + 1] else [i + 1]
  | 0x21 => if back then (i + 1) :: ((levelOf code i).filter (fun p => loopEnd (code.getD p 0) = i)).map (· + 1) else [i + 1]
  | 0x24 => [bits w 19 0]
  | 0x25 => [bits w 39 20, i + 1]
  | _ => [i + 1]

/-- Words reachable from `todo` within `fuel` rounds. -/
def reach (code : List Nat) (back : Bool) : Nat → List Nat → List Nat
  | 0, seen => seen
  | n + 1, seen =>
    let new := (seen.flatMap (successors code back)).filter (fun i => decide (i < code.length))
    reach code back n (new.foldl (fun s i => if s.contains i then s else s ++ [i]) seen)

/-- Check 6 of R243: the first BARR, in ascending offset, whose barrier the image lacks or that a ray outside it reaches. -/
def barrFail (code : List Nat) (rays : List (Nat × Nat)) (barriers : List (BitVec 128)) : Option Fail :=
  let reaches := rays.map fun r => (r.1, reach code true code.length [r.2])
  firstFail ((List.range code.length).map fun i =>
    let w := code.getD i 0
    let b := bits w 55 52
    let outsider := reaches.any fun r => r.2.contains i && !((barriers.getD b 0).getLsbD r.1)
    if opOf w = 0x03 ∧ (barriers.length ≤ b ∨ outsider) then some { status := 0x0415, imm := i } else none)

/-! Static extent (R197). Offsets are held as max-plus functions of the offset a region is entered with. -/

/-- The larger of two offsets, where they are static. -/
def omax : Option Nat → Option Nat → Option Nat
  | none, b => b
  | a, none => a
  | some a, some b => some (max a b)

/-- Add to a static offset. -/
def oadd (a : Option Nat) (n : Nat) : Option Nat := a.map (· + n)

/-- A function C ↦ max (C + add, base); `none` where no static path gives the term. -/
structure Reach where
  add : Option Nat := none
  base : Option Nat := none
deriving DecidableEq, Repr

def Reach.join (p q : Reach) : Reach := ⟨omax p.add q.add, omax p.base q.base⟩
def Reach.plus (p : Reach) (n : Nat) : Reach := ⟨oadd p.add n, oadd p.base n⟩

/-- First `p`, then `q`. -/
def Reach.andThen (p q : Reach) : Reach :=
  match q.add with
  | none => ⟨none, q.base⟩
  | some n => ⟨oadd p.add n, omax (oadd p.base n) q.base⟩

/-- `n` passes of a loop body. -/
def Reach.times (p : Reach) (n : Nat) : Reach :=
  if n = 0 then ⟨some 0, none⟩
  else match p.add with
    | none => ⟨none, p.base⟩
    | some a => ⟨some (n * a), oadd p.base ((n - 1) * a)⟩

/-- The words that can be reached from word `i` in one step or more, loops not repeated. -/
def reachFrom (code : List Nat) (i : Nat) : List Nat :=
  reach code false code.length ((successors code false i).filter (fun j => decide (j < code.length)))

/-- Word `i` lies on a cycle that JUMP or BR forms. -/
def onCycle (code : List Nat) (i : Nat) : Bool := (reachFrom code i).contains i

/-- The step from word `i` to word `j` enters a cycle (log entry 22). -/
def entersCycle (code : List Nat) (i j : Nat) : Bool := onCycle code j && !(reachFrom code j).contains i

/-- Word `i` is the first, by offset, of a cycle (log entry 22). -/
def headsCycle (code : List Nat) (i : Nat) : Bool :=
  let above := code.zipIdx.map fun w => if w.2 < i then 0x01 * 2 ^ 56 else w.1
  onCycle above i

/-- The value at a word of a region. -/
abbrev Values := List (Nat × Reach)

def valueAt (vs : Values) (i : Nat) : Option Reach := (vs.find? (fun v => v.1 = i)).map (·.2)

def joinAt (vs : Values) (i : Nat) (r : Reach) : Values :=
  match valueAt vs i with
  | none => vs ++ [(i, r)]
  | some q => vs.map (fun v => if v.1 = i then (i, q.join r) else v)

/-- The effect of a word on C (R222), loops apart: the value after it. -/
def wordEffect (loci : Nat → Locus) (w : Nat) (r : Reach) : Reach :=
  let reg := bitOf w 55
  match opOf w with
  | 0x02 => ⟨none, some 0⟩
  | 0x03 => if bitOf w 51 then ⟨none, none⟩ else r
  | 0x08 => if reg then ⟨none, none⟩ else ⟨none, some (bits w 47 0)⟩
  | 0x09 => if reg then ⟨none, none⟩ else r.plus (bits w 47 0)
  | 0x10 => if reg then ⟨none, none⟩ else r.plus (loci (bits w 15 0)).duration
  | 0x11 => if reg then ⟨none, none⟩ else r.plus (loci (bits w 15 0)).duration
  | 0x18 => if bitOf w 46 then r.plus (4096 * bits w 16 0) else r
  | _ => r

/-- What a word adds to the extent: its vertex, or its window's close (R228). -/
def wordExtent (w : Nat) (r : Reach) : Reach :=
  match opOf w with
  | 0x10 => r
  | 0x11 => r
  | 0x18 => r.plus (4096 * bits w 16 0)
  | 0x1C => r
  | _ => ⟨none, none⟩

/-- Nothing static. -/
def Reach.open : Reach := ⟨none, none⟩

/-- The value with which a word begins: at the first instruction of a cycle the offset stops being static (R197). -/
def valueIn (code : List Nat) (i : Nat) (r : Reach) : Reach := if headsCycle code i then .open else r

/-- Walk a region from `start`, with value `first` there, to the ENDL at `stop`: the value that reaches `stop`, if any does, and the extent,
as functions of the offset at `start`. Loops inside are summarised, `fuel` deep (R242: at most 4). -/
def walk (code : List Nat) (loci : Nat → Locus) : Nat → Reach → Nat → Nat → Option Reach × Reach
  | 0, _, _, _ => (some .open, .open)
  | fuel + 1, first, start, stop =>
    let inner (p : Nat) : Option Reach × Reach :=
      walk code loci fuel (if entersCycle code p (p + 1) then .open else ⟨some 0, none⟩) (p + 1) (loopEnd (code.getD p 0))
    let pass (i j : Nat) (r : Reach) : Reach := if entersCycle code i j then .open else r
    let relax (vs : Values) (i : Nat) : Values :=
      match valueAt vs i with
      | none => vs
      | some r0 =>
        let w := code.getD i 0
        let r := valueIn code i r0
        if i = stop ∨ code.length ≤ i then vs
        else if opOf w = 0x20 then
          let after : Option Reach :=
            if bitOf w 55 then some .open else if bits w 23 0 = 0 then some r else (inner i).1.map (fun f => r.andThen (f.times (bits w 23 0)))
          match after with
          | none => vs
          | some q => joinAt vs (loopEnd w + 1) (pass i (loopEnd w + 1) q)
        else (successors code false i).foldl (fun vs j => joinAt vs j (pass i j (wordEffect loci w r))) vs
    let round (vs : Values) : Values := (List.range code.length).foldl relax vs
    let vs := (List.range code.length).foldl (fun vs _ => round vs) [(start, first)]
    let ext := vs.foldl (fun (acc : Reach) v =>
      let w := code.getD v.1 0
      let r := valueIn code v.1 v.2
      if v.1 = stop ∨ code.length ≤ v.1 then acc
      else if opOf w = 0x20 then
        let (f, e) := inner v.1
        if bitOf w 55 then acc.join (Reach.open.andThen e)
        else if bits w 23 0 = 0 then acc
        else
          let last := match f with | none => .open | some f => (r.andThen (f.times (bits w 23 0 - 1))).andThen e
          (acc.join (r.andThen e)).join last
      else acc.join (wordExtent w r)) .open
    (valueAt vs stop, ext)

/-- The static extent of a program in 1/4096 ns: the largest over its rays (R197 check 4). -/
def staticExtent (code : List Nat) (loci : Nat → Locus) (entries : List Nat) : Nat :=
  entries.foldl (fun m e =>
    let (_, x) := walk code loci 6 (if onCycle code e then .open else ⟨some 0, none⟩) e code.length
    max m (max (x.add.getD 0) (x.base.getD 0))) 0

/-- Ticks, rounded up. -/
def ticksUp (fine : Nat) : Nat := (fine + 4095) / 4096

/-- The code words of a resident program. -/
def progCode (d : Dev) (p : Prog) : List Nat := (List.range p.words).map fun i => (Store.get 0 d.core.progMem (p.base + i)).toNat

/-- The static extent of a resident program with the loci of `d`, plus its margin, in ticks. -/
def progExtent (d : Dev) (p : Prog) : Nat := ticksUp (staticExtent (progCode d p) d.locus (p.rays.map (·.2))) + p.margin

/-- The locus indices that appear as immediate operands (R215). -/
def immediateLoci (code : List Nat) : List Nat :=
  (code.filter (fun w => (opOf w = 0x10 || opOf w = 0x11) && !bitOf w 55)).map (fun w => bits w 15 0)

/-! The image (R196). -/

/-- Header and tables of a program image in a PROG_LOAD payload; the image begins at payload byte 16. -/
structure Img where
  rayCount : Nat
  codeWords : Nat
  margin : Nat
  barrierCount : Nat
  rays : List (Nat × Nat)
  barriers : List (BitVec 128)
  codeAt : Nat
deriving DecidableEq, Repr

def imgOf (c : Cmd) : Img :=
  let rc := c.arg 22 2
  let bc := c.arg 32 1
  { rayCount := rc, codeWords := c.arg 24 4, margin := c.arg 28 4, barrierCount := bc,
    rays := (List.range rc).map (fun i => (c.arg (80 + 8 * i) 1, c.arg (84 + 8 * i) 4)),
    barriers := (List.range bc).map (fun b => BitVec.ofNat 128 (c.arg (80 + 8 * rc + 16 * b) 16)),
    codeAt := 80 + 8 * rc + 16 * bc }

/-- The code words of the image. -/
def imgCode (c : Cmd) (m : Img) : List Nat := (List.range m.codeWords).map fun i => c.arg (m.codeAt + 8 * i) 8

/-- Check 1 of R197. Table entries beyond the payload are left to the length comparison. -/
def imageFail (c : Cmd) : Option Fail :=
  let m := imgOf c
  let bad (b : Bool) (off : Nat) : Option Fail := if b then some (atPayload 0x0414 off) else none
  let inside (off n : Nat) : Bool := decide (off + n ≤ c.length)
  let rayRow (i : Nat) : Option Fail :=
    let o := 80 + 8 * i
    if !inside o 8 then none
    else
      let ray := c.arg o 1
      let seen := ((m.rays.take i).map (·.1)).contains ray
      if 127 < ray ∨ seen then some (atPayload 0x0414 o)
      else if c.arg (o + 1) 3 ≠ 0 then some (atPayload 0x0013 (o + 1))
      else if m.codeWords ≤ c.arg (o + 4) 4 then some (atPayload 0x0414 (o + 4))
      else none
  let barRow (b : Nat) : Option Fail :=
    let o := 80 + 8 * m.rayCount + 16 * b
    if !inside o 16 then none
    else bad ((List.range 128).any (fun r => (m.barriers.getD b 0).getLsbD r && !(m.rays.map (·.1)).contains r)) o
  firstFail ([bad (c.arg 16 4 ≠ 0x56504752) 16, bad (c.arg 20 2 ≠ 1) 20, bad (m.rayCount = 0 || decide (128 < m.rayCount)) 22,
    bad (m.codeWords = 0 || decide (524288 < m.codeWords)) 24, bad (decide (2 ^ 34 - 500 < m.margin)) 28,
    bad (decide (16 < m.barrierCount)) 32, (if c.arg 33 47 ≠ 0 then some (atPayload 0x0013 33) else none)]
    ++ (List.range m.rayCount).map rayRow ++ (List.range m.barrierCount).map barRow
    ++ [bad (c.length - 16 ≠ 64 + 8 * m.rayCount + 16 * m.barrierCount + 8 * m.codeWords) 24])

/-- Blocks a program needs (R194). -/
def blocksOf (words : Nat) : Nat := (words + 4095) / 4096

/-- Programs overlap in blocks. -/
def overlaps (b1 n1 b2 n2 : Nat) : Bool := decide (b1 < b2 + n2) && decide (b2 < b1 + n1)

end Sys2Proof.Machine
end

