-- ==== Sys2Proof/Machine/PortOps.lean ====
section
/-! DEFINITION. The effects of the staged port, read-out and chord-table commands: what each writes when it is applied, at
once or at step 6 of a meridian (R29, R165, R320). -/

namespace Sys2Proof.Machine

/-- Port `i` becomes due for a calibration slice; `urgent` gives it the first priority (R371). -/
def markDue (urgent : Bool) (i : Nat) (d : Dev) : Dev :=
  let q := d.due i
  d.setDue i { q with due := true, markedAt := some d.time.raw, urgent := q.urgent || urgent, since := if q.due then q.since else d.time.raw }

/-- A program runs, or has ended at this very meridian: what is applied now governs no shot that has opened (R165, R210). -/
def shotsRemain (d : Dev) : Bool := running d || (d.core.run.everRun && d.core.run.endAt == d.time.lat)

/-- The shot from which a configuration applied now governs: the next one to open, or all when no program runs (R165). -/
def governsFrom (d : Dev) : Nat := if shotsRemain d then d.core.run.k else 0

/-- What governed the shots before, when a configuration is written (R165): kept for each of them while items of them remain, however many
commands reach one meridian. -/
def priorCfgs {α : Type} (d : Dev) (old : α) (before : List (Nat × α)) : List (Nat × α) :=
  if shotsRemain d then retire (governsFrom d - 1) old before else []

/-- Write a port's configuration (R165). -/
def setPortCfg (i : Nat) (g : PortCfg) (d : Dev) : Dev :=
  let p := d.port i
  d.setPort i { p with cfg := g, prev := priorCfgs d p.cfg p.prev }

/-- The disabled cause of the safe condition follows ENABLE: at once when no program runs, but for an item of the program just ended that
plays to its end, else at the meridian from which the configuration governs (R165, R172, R210). -/
def followEnable (i : Nat) (d : Dev) : Dev := if running d then d else causeEnded (followShot (shotNow d) i d)

/-- The disabled cause of every output follows the configuration that governs now (R165, R172). -/
def settleEnable (f : Fuse) (d : Dev) : Dev := d.forAll (outputs f) settleOutput

/-- PRT_DRIVE_CONFIG and PRT_PROBE_CONFIG (R182, R267, R377). -/
def applyDrive (c : Cmd) (d : Dev) : Dev :=
  let i := c.arg 0 1
  let old := (d.port i).cfg
  let d1 := setPortCfg i { old with enable := bitOf (c.arg 1 1) 0, fsCode := c.arg 2 2 } d
  followEnable i (if old.fsCode = c.arg 2 2 then d1 else markDue true i d1)

/-- The signed SAFE_DC or DC code of a payload: 20 bits with sign extension (R187). -/
def dcCode (v : Nat) : Int := signed 32 v

/-- PRT_FLUX_CONFIG (R187). -/
def applyFlux (c : Cmd) (d : Dev) : Dev :=
  let i := c.arg 0 1
  let fl := c.arg 1 1
  followEnable i (setPortCfg i { (d.port i).cfg with enable := bitOf fl 0, safeMode := bitOf fl 1, pulseRange := bitOf fl 2,
                                                     safeDc := dcCode (c.arg 4 4) } d)

/-- PRT_FLUX_DC (R176, R188): an earlier ramp on the port stops where it is and its command ends with 0x0301; a step ends
at once. The command itself ends here only for a step. -/
def startRamp (c : Cmd) (d : Dev) : Dev :=
  let i := c.arg 0 1
  let p := d.port i
  let lvl := dcNow d p
  let dc := dcCode (c.arg 4 4)
  let ns := c.arg 8 4
  let d1 := leaveRamp p d
  if ns = 0 then d1.setPort i { p with dc := dc, target := dc, ramp := none }
  else d1.setPort i { p with dc := lvl, target := dc, ramp := some ⟨lvl, d.time.raw, ns, c.seq⟩ }

/-- The configured DC target a staged PRT_FLUX_DC will leave (for checks against the configuration as it will stand). -/
def projectDc (c : Cmd) (d : Dev) : Dev := d.setPort (c.arg 0 1) { d.port (c.arg 0 1) with target := dcCode (c.arg 4 4) }

/-- Applied while a program runs, a frame change waits behind every frame token of earlier shots (R227, R165). -/
def applyFrameCmd (c : Cmd) (d : Dev) : Dev :=
  if running d then { d with core := { d.core with frameDefer := d.core.frameDefer ++ [(d.core.run.k - 1, c.payload.take 16)] } }
  else applyFrameSet c.payload d

/-- Write envelope-store words of a port (R161, R184). -/
def writeEnv (x : Ctx) (port addr : Nat) (ws : List (BitVec 32)) (d : Dev) : Dev :=
  { d with env := (ws.zipIdx).foldl (fun e w => Store.set 0 e (envAddr x.fuse d port (addr + w.2)) w.1) d.env }

/-- The words of a PRT_ENV_WRITE payload. -/
def envWordsOf (c : Cmd) : List (BitVec 32) := (List.range (c.arg 8 4)).map fun i => BitVec.ofNat 32 (c.arg (16 + 4 * i) 4)

/-- The first copy waiting begins, at `at8` eighths of a tick of the raw counter, unless bulk copies wait for the throttle (R141). -/
def startCopy (at8 : Nat) (d : Dev) : Dev :=
  match d.envCopies with
  | [] => d
  | e :: rest =>
    if e.start8.isSome || (d.slackOf d.hif.core).throttled then d
    else { d with envCopies := { e with start8 := some at8 } :: rest }

/-- PRT_ENV_WRITE applied at a meridian joins the copy path (R166); its command ends with its copy. -/
def queueEnv (c : Cmd) (d : Dev) : Dev :=
  startCopy (8 * d.time.raw) { d with envCopies := d.envCopies ++
    [{ port := c.arg 0 1, addr := c.arg 4 4, data := envWordsOf c, seq := c.seq, last := if shotsRemain d then some (governsFrom d - 1) else none }] }

/-- PRT_ACQ_CONFIG (R269); a change of RANGE starts an invalid interval on every channel of the port (R254). -/
def invalidate (ch : Nat) (d : Dev) : Dev :=
  d.setChan ch { d.chan ch with invalid := (d.chan ch).invalid ++ [(d.time.lat, d.time.lat + 48)] }

def applyAcq (c : Cmd) (d : Dev) : Dev :=
  let i := c.arg 0 1
  let old := (d.port i).cfg
  let d1 := setPortCfg i { old with enable := bitOf (c.arg 1 1) 0, range := bitOf (c.arg 1 1) 1 } d
  if old.range = bitOf (c.arg 1 1) 1 then d1
  else d1.forAll ((List.range 16).map (16 * (i - 84) + ·)) invalidate

/-- Write a channel's configuration (R165), likewise. -/
def setChanCfg (ch : Nat) (g : ChanCfg) (d : Dev) : Dev :=
  let q := d.chan ch
  d.setChan ch { q with cfg := g, prev := priorCfgs d q.cfg q.prev }

/-- The channel a read-out command names. -/
def Cmd.chanArg (c : Cmd) : Nat := 16 * c.arg 0 1 + c.arg 1 1

/-- RO_CH_CONFIG (R271, R254). -/
def applyChConfig (c : Cmd) (d : Dev) : Dev :=
  let ch := c.chanArg
  let g := (d.chan ch).cfg
  let fl := c.arg 2 1
  let g1 : ChanCfg := { g with
    enable := bitOf fl 0, postk := bitOf fl 3, filter := c.arg 3 1, gain := c.arg 4 1, ring := c.arg 5 1,
    ftw := if bitOf fl 1 then c.arg 16 8 else g.ftw, epoch := if bitOf fl 1 then d.time.loads else g.epoch,
    lag := if bitOf fl 1 then 0 else g.lag,
    z := if bitOf fl 2 then c.arg 8 4 else g.z }
  let d1 := setChanCfg ch g1 d
  if bitOf fl 1 || bitOf fl 2 || g.filter != g1.filter || g.gain != g1.gain then invalidate ch d1 else d1

/-- A weight word (R272). -/
def weightOf (w : Nat) : IQ := ⟨signed 16 (w % 2 ^ 16), signed 16 (w / 2 ^ 16 % 2 ^ 16)⟩

/-- The reset value of a weight: I = 32,767, Q = 0 (R257). -/
def weightReset : IQ := ⟨32767, 0⟩

/-- Write weights from entry `first` on. -/
def putWeights (ws : Store IQ) (first : Nat) (vs : List IQ) : Store IQ :=
  (vs.zipIdx).foldl (fun s v => Store.set weightReset s (first + v.2) v.1) ws

/-- RO_WEIGHTS (R272). -/
def applyWeights (c : Cmd) (d : Dev) : Dev :=
  let ch := c.chanArg
  let g := (d.chan ch).cfg
  let vs := (List.range (c.arg 6 2)).map fun i => weightOf (c.arg (16 + 4 * i) 4)
  setChanCfg ch { g with stride := c.arg 2 1, weights := putWeights g.weights (c.arg 4 2) vs } d

/-- The boundaries of an RO_DISC payload laid out at `o` (R273). -/
def boundsAt (p : List Byte) (o nb : Nat) : Store (Int × Int × Int) :=
  (List.range nb).map fun i => (i, (fldS p (o + 16 * i) 2, fldS p (o + 2 + 16 * i) 2, fldS p (o + 8 + 16 * i) 8))

/-- RO_DISC (R273). -/
def applyDisc (c : Cmd) (d : Dev) : Dev :=
  let ch := c.chanArg
  setChanCfg ch { (d.chan ch).cfg with nb := c.arg 2 1, map := c.arg 4 2, bnd := boundsAt c.payload 8 (c.arg 2 1) } d

/-- CH_TABLE_WRITE (R329): the whole table; the tables before it go on governing the shots opened so far (R320). -/
def applyTable (c : Cmd) (d : Dev) : Dev :=
  let t : Table := {
    deadline := c.arg 8 8, fallback := c.arg 16 4
    sel := (List.range 8).foldl (fun s i => Store.set 0 s i (BitVec.ofNat 32 (c.arg (32 + 4 * i) 4))) []
    entries := (List.range 256).foldl (fun s i => Store.set 0 s i (BitVec.ofNat 32 (c.arg (64 + 4 * i) 4))) [] }
  { d with core := { d.core with tables := Store.set {} d.core.tables (c.arg 0 1) t,
                                 tablesPrev := priorCfgs d d.core.tables d.core.tablesPrev } }

/-- CH_EXPORT (R331): the masks before it go on governing the shots opened so far (R328, R320). -/
def applyExport (c : Cmd) (d : Dev) : Dev :=
  let m : BitVec 192 × BitVec 192 := ⟨BitVec.ofNat 192 (c.arg 8 24), BitVec.ofNat 192 (c.arg 32 24)⟩
  { d with core := { d.core with exports := Store.set exportReset d.core.exports (c.arg 0 1) m,
                                 exportsPrev := priorCfgs d d.core.exports d.core.exportsPrev } }

/-- LOC_WRITE (R217). -/
def applyLoci (c : Cmd) (d : Dev) : Dev :=
  { d with core := { d.core with loci :=
      (List.range (c.arg 4 4)).foldl (fun s i => Store.set {} s (c.arg 0 4 + i) (locusAt c.payload (8 + 64 * i))) d.core.loci } }

/-- MKV_PIN_CONFIG (R440, R430): IDLE and SAFE codes per pin, FAILSHOT; the pins take IDLE, or SAFE in the safe condition. -/
def applyPins (c : Cmd) (d : Dev) : Dev :=
  let nib (i : Nat) : Nat := (c.arg (i / 2) 1) / (if i % 2 = 0 then 1 else 16) % 16
  let mk (f : Nat → Nat) : Store Nat := (List.range 32).foldl (fun s i => Store.set 2 s i (f (nib i))) []
  let m := { d.marker with idle := mk (· % 4), safeSt := mk (· / 4 % 4), failShot := bitOf (c.arg 16 1) 0 }
  { d with marker := takePins (if m.safe then m.safeSt else m.idle) m }

/-- PRT_STORE_ASSIGN (R161, R164, R186): ports whose count changes get fresh pages, zeroed; the others keep theirs. -/
def assignPages (x : Ctx) (c : Cmd) (d : Dev) : Dev :=
  let want (i : Nat) : Nat := c.arg i 1
  let idx := (List.range 84).filter x.fuse.hasPort
  let same := idx.filter (fun i => (pagesOf x.fuse d i).length = want i)
  let used := same.flatMap (pagesOf x.fuse d)
  let freePages := (List.range 896).filter (fun p => !used.contains p)
  let step (acc : Dev × List Nat) (i : Nat) : Dev × List Nat :=
    if same.contains i then acc
    else ({ acc.1 with pages := Store.set none acc.1.pages i (some (acc.2.take (want i))) }, acc.2.drop (want i))
  let (d1, _) := idx.foldl step (d, freePages)
  { d1 with env := d1.env.filter (fun kv => used.contains (kv.1 / 4096)) }

end Sys2Proof.Machine
end

