-- ==== Sys2Proof/Machine/CalOps.lean ====
section
/-! DEFINITION. Calibration (13): facets and their interpolation, the trims in force, due ports, the end of a run, commits to
the store, and the effect of CAL_WRITE. -/

namespace Sys2Proof.Machine

/-! Facets (R367 to R369). -/

/-- Nominal temperature of a facet in 1/16 °C (R367). -/
def facetTemp (f : Nat) : Int := 16 * ([20, 32, 44, 56, 68, 80, 92, 105].getD f 0)

/-- The band whose measurements may go to a facet (R371). -/
def facetBand (f : Nat) : Nat := if f < 4 then 0 else if f < 6 then 1 else if f = 6 then 2 else 3

/-- The sensor cell that contains a port (R365). -/
def cellOf (p : Nat) : Nat := Config.cellOf p % 24

/-- The temperature of a port's cell (R365). -/
def cellTemp (d : Dev) (p : Nat) : Int := (d.sensor (cellOf p)).value

/-- Put an entry among the points of the interpolation, ordered by TEMP; it replaces one of equal TEMP (R369). -/
def addPoint (e : Entry) : List Entry → List Entry
  | [] => [e]
  | q :: rest => if e.temp < q.temp then e :: q :: rest else if e.temp = q.temp then e :: rest else q :: addPoint e rest

/-- The VALID entries of a port in the order of TEMP; of two with equal TEMP the one of the higher facet (R369). -/
def pointsOf (d : Dev) (p : Nat) : List Entry :=
  (List.range 8).foldl (fun l f => if (d.facet f p).valid then addPoint (d.facet f p) l else l) []

/-- The trims of one entry. -/
def Entry.trim (e : Entry) : Trim :=
  { delay := e.delay, phase := e.phase, gain := e.gain, dcofs := e.dcofs, dcgain := e.dcgain, dflt := false }

/-- Linear between two values at `num / den` of the way, halves toward +∞ (R369). -/
def between (u v num : Int) (den : Nat) : Int := roundHalfUp (u * (den : Int) + (v - u) * num) den

/-- PHASE goes along the shorter arc (R369). -/
def arc (u v : Nat) : Int := signed 32 ((v + 2 ^ 32 - u % 2 ^ 32) % 2 ^ 32)

/-- The trims between two adjacent entries (R369). -/
def mixed (a b : Entry) (t : Int) : Trim :=
  let num := t - a.temp
  let den := (b.temp - a.temp).toNat
  { delay := between a.delay b.delay num den
    phase := ((between a.phase (a.phase + arc a.phase b.phase) num den) % 2 ^ 32).toNat
    gain := (between a.gain b.gain num den).toNat
    dcofs := between a.dcofs b.dcofs num den
    dcgain := between a.dcgain b.dcgain num den
    dflt := false }

/-- The facet interpolation over the points of a port (R369); with none, the DEFAULT trims. -/
def interpolate : List Entry → Int → Trim
  | [], _ => {}
  | [a], _ => a.trim
  | a :: b :: rest, t => if t ≤ a.temp then a.trim else if t < b.temp then mixed a b t else interpolate (b :: rest) t

/-- The facet interpolation of a port at a temperature. -/
def facetTrim (d : Dev) (p : Nat) (t : Int) : Trim := interpolate (pointsOf d p) t

/-- Trims that a port type does not use read 0 (R364). -/
def usedTrim (p : Nat) (t : Trim) : Trim :=
  match portKind p with
  | .drive => { t with dcgain := 0 }
  | .probe => { t with dcgain := 0 }
  | .flux => { t with phase := 0 }
  | .acquire => { t with gain := 0, dcofs := 0, dcgain := 0 }
  | _ => { t with phase := 0, gain := 0, dcofs := 0, dcgain := 0 }

/-- Facet interpolation with the residuals applied, drive and probe gains still normalised to FS_CODE 96 (R365). -/
def residTrim (d : Dev) (p : Nat) : Trim :=
  let t := facetTrim d p (cellTemp d p)
  let r := d.resid p
  usedTrim p { t with
    delay := t.delay + r.delay
    phase := (t.phase + r.phase) % 2 ^ 32
    gain := (roundHalfUp ((t.gain * r.gain : Nat) : Int) 32768).toNat }

/-- The gain in force: scaled by (8 + 0.125 × FS_CODE) / 20 on drive and probe ports (R377), by the code that governs the shot in
progress (R165). -/
def fsGain (d : Dev) (p g : Nat) : Nat :=
  let code := (cfgFor (d.port p) (shotNow d)).fsCode
  match portKind p with
  | .drive => (roundHalfUp ((g * (64 + code) : Nat) : Int) 160).toNat
  | .probe => (roundHalfUp ((g * (64 + code) : Nat) : Int) 160).toNat
  | _ => g

/-- An item of a shot before `k` plays on the port (R366). -/
def playsEarlier (d : Dev) (p k : Nat) : Bool := decide (16 * d.time.lat < clearAt16 d p (earlierItems d p k))

/-- One port's trims are computed: in force now, or, while an item of an earlier shot plays, once it has ended (R366). -/
def recomputeTrim (p : Nat) (d : Dev) : Dev :=
  let t := residTrim d p
  let t1 : Trim := { t with gain := fsGain d p t.gain }
  let k := d.core.run.k - 1
  let waiting := d.cal.trimsWaiting.filter (fun w => w.1 ≠ p)
  let d1 := { d with cal := { d.cal with trimsWaiting := waiting } }
  if running d && playsEarlier d p k then { d1 with cal := { d1.cal with trimsWaiting := waiting ++ [(p, k, t1)] } }
  else putTrim p t1 d1

/-- The trims of every port are recomputed (R366). -/
def recomputeTrims (x : Ctx) (d : Dev) : Dev := (settlePorts d).forAll x.fuse.indices recomputeTrim

/-! Due ports (R371, R376). -/

/-- The movement threshold of a band in 1/160 K, and its refresh interval in ns (R371). -/
def moveThreshold (band : Nat) : Nat := match band with | 0 => 80 | 1 => 40 | 2 => 40 | _ => 16
def refreshNs (band : Nat) : Nat := 1000000000 * (match band with | 0 => 60 | 1 => 30 | 2 => 15 | _ => 10)

/-- How far a port's cell has moved since its last measurement. -/
def movement (d : Dev) (p : Nat) : Nat := (cellTemp d p - (d.due p).lastTemp).natAbs

/-- The ports slices serve: every port but the marker stage (R374). -/
def slicePorts (x : Ctx) : List Nat := x.fuse.indices.filter (· < 96)

/-- Ports that have moved or whose refresh interval has passed become due (R371). -/
def noteDue (x : Ctx) (d : Dev) : Dev :=
  d.forAll (slicePorts x) fun p d =>
    let q := d.due p
    if q.due then d
    else if moveThreshold d.thermal.band ≤ 10 * movement d p then d.setDue p { q with due := true, since := d.time.raw }
    else if q.lastAt + refreshNs d.thermal.band ≤ d.time.raw then
      d.setDue p { q with due := true, since := q.lastAt + refreshNs d.thermal.band }
    else d

/-- A port has been measured: it is no longer due (R371, R376). -/
def measured (p : Nat) (d : Dev) : Dev :=
  d.setDue p { d.due p with due := false, urgent := false, starved := false, lastTemp := cellTemp d p, lastAt := d.time.raw }

/-- Slices pause (R376). -/
def slicesPaused (d : Dev) : Bool :=
  d.hif.state ≠ .ready || (slackAt d false).throttled || decide (2 ≤ d.thermal.level) || !d.hif.lock || d.cal.runOn || !d.cal.background

/-- Acquire ports on the loopback bus deliver zeros for `ns` from now, no sample of which is invalid (R374, R378). -/
def loopIn (ports : List Nat) (ns : Nat) (d : Dev) : Dev :=
  d.forAll (ports.filter (fun p => portKind p = .acquire)) fun p d =>
    d.setPort p { d.port p with zeroed := (d.port p).zeroed ++ [(8 * d.time.lat, 8 * (d.time.lat + ns))] }

/-- Ports return to their balls before their time (R380, R386). -/
def loopOut (ports : List Nat) (d : Dev) : Dev :=
  d.forAll (ports.filter (fun p => portKind p = .acquire)) fun p d =>
    d.setPort p { d.port p with zeroed := (d.port p).zeroed.map fun z => (z.1, min z.2 (8 * d.time.lat)) }

/-- A slice in progress is abandoned: its ports return to their balls and stay due (R386). -/
def abandonSlice (d0 : Dev) : Dev :=
  let d := loopOut d0.cal.slice d0
  { d with cal := { d.cal with slice := [], sliceAt := none } }

/-! Entries. -/

/-- Write a facet entry of the table held by firmware: an entry has changed since the last commit (R382). -/
def putEntry (f p : Nat) (e : Entry) (d : Dev) : Dev :=
  let d1 := d.setFacet f p e
  { d1 with cal := { d1.cal with changed := true } }

/-- The 32 bytes of an entry (R368). -/
def Entry.bytes (e : Entry) : List Byte :=
  leI 4 e.delay ++ le 4 e.phase ++ le 2 e.gain ++ leI 2 e.temp ++ leI 4 e.dcofs ++ leI 2 e.dcgain ++
    le 1 (flag e.valid 0 + 2 * (e.source % 4)) ++ le 1 0 ++ le 8 e.wt ++ zeros 4

/-- Entry `i` of a CAL_WRITE payload, for port `p` (R394): VALID 0 clears, SOURCE is 3. -/
def entryAt (p : List Byte) (o port : Nat) : Entry :=
  if bitOf (fld p (o + 18) 1) 0 then
    let t := usedTrim port { delay := fldS p o 4, phase := fld p (o + 4) 4, gain := fld p (o + 8) 2, dcofs := fldS p (o + 12) 4,
                             dcgain := fldS p (o + 16) 2 }
    { delay := t.delay, phase := t.phase, gain := t.gain, temp := fldS p (o + 10) 2, dcofs := t.dcofs, dcgain := t.dcgain,
      valid := true, source := 3, wt := fld p (o + 20) 8 }
  else {}

/-- CAL_WRITE (R394). -/
def applyCalWrite (c : Cmd) (d : Dev) : Dev :=
  d.forAll (List.range (c.arg 4 2)) fun i d => putEntry (c.arg 0 1) (c.arg 2 2 + i) (entryAt c.payload (8 + 32 * i) (c.arg 2 2 + i)) d

/-! Runs (R378 to R380). -/

/-- How long a group is measured, in ns (R378). -/
def groupNs (ports : List Nat) : Nat := if (ports.head?).any (· < 96) then 500000000 else 100000000

/-- The group of a run's next ports goes to the loopback bus, and the temperatures of its interval are collected (R378, R379). -/
def startGroup (ports : List Nat) (d : Dev) : Dev :=
  loopIn (runGroup ports) (groupNs ports) { d with cal := { d.cal with runPorts := ports, runTemps := [], runNext := d.time.raw + groupNs ports } }

/-- The sensors have been read while a run measures: each cell's reading counts for the group's mean (R379). -/
def noteRunTemps (d : Dev) : Dev :=
  if !d.cal.runOn then d
  else
    let add (s : Store (Int × Nat)) (n : Nat) : Store (Int × Nat) :=
      let q := Store.get (0, 0) s n
      Store.set (0, 0) s n (q.1 + (d.sensor n).value, q.2 + 1)
    { d with cal := { d.cal with runTemps := (List.range 24).foldl add d.cal.runTemps } }

/-- The measurement temperature of a port (R379): the mean of its cell's readings in the interval, nearest 1/16 °C, halves up; the
reading that stands where none fell into it (log entry 111). -/
def meanTemp (d : Dev) (p : Nat) : Int :=
  let q := Store.get (0, 0) d.cal.runTemps (cellOf p)
  if q.2 = 0 then cellTemp d p else roundHalfUp q.1 q.2

/-- Which of the five DC codes a flux port of a FLUX_DC group is at: it is off its ball for the first 200 ms, 40 ms a code (R378, log
entry 110). -/
def dcStepNow (d : Dev) (i : Nat) : Option Nat :=
  let el := d.time.raw + groupNs d.cal.runPorts - d.cal.runNext
  if d.cal.runOn && d.cal.runFluxDc && portKind i = .flux && (runGroup d.cal.runPorts).contains i && decide (el < 200000000) then
    some (el / 40000000) else none

/-- The code of a flux port's DC DAC (R176, R378). -/
def dcDac (d : Dev) (i : Nat) : Int :=
  match dcStepNow d i with | some n => clampI (-524288) 524287 (Config.dcStep n) | none => dcNow d (d.port i)

/-- The DC level at a flux port's ball in 1/10^9 of a step of 1.907 µV: DCGAIN scales it and DCOFS, in nV, is added (R175, R364; log entry
125). None while a run has the port disconnected (R378). -/
def dcAtBall (d : Dev) (i : Nat) : Option Int :=
  let t := d.trim i
  if (dcStepNow d i).isSome then none else some (dcNow d (d.port i) * 1000 * (1000000 + t.dcgain) + 524288 * t.dcofs)

/-- The differential DC offset that a drive or probe port adds to its output, in nA, whatever its DAC shows (R364; log entry 125). -/
def offsetAtBall (d : Dev) (i : Nat) : Int := if portKind i = .drive ∨ portKind i = .probe then (d.trim i).dcofs else 0

/-- A run fails: it changes no facet and no residual (R380). -/
def endCalRun (cause : Nat) (d0 : Dev) : Dev :=
  let d := loopOut (runGroup d0.cal.runPorts) d0
  if !d0.cal.runOn then d0
  else eventCause 106 0xFFFF 0 cause
    { d with cal := { d.cal with runOn := false, runState := 3, runCause := cause, runPorts := [], runDone := [], runEnd := d.time.lat } }

/-! Slots of the store (R381, R383). -/

/-- The key of an entry in the calibration store: slot, facet, index (R381). -/
def storeKey (slot f p : Nat) : Nat := 776 * slot + 97 * f + p

/-- Which of a pair a slot number picks, and the pair with that one replaced. -/
def ofSlot {α : Type} (s : Nat) (p : α × α) : α := if s = 0 then p.1 else p.2
def setSlot {α : Type} (s : Nat) (v : α) (p : α × α) : α × α := if s = 0 then (v, p.2) else (p.1, v)

/-- MAGIC of a slot, and the length of its table. -/
def slotMagic : Nat := 0x46544341
def tableLen : Nat := 24832

/-- Bytes 0 to 59 of a slot's header. -/
def slotHead (ports gen wt : Nat) : List Byte :=
  le 4 slotMagic ++ le 4 gen ++ le 2 1 ++ le 1 ports ++ le 1 8 ++ le 4 tableLen ++ le 8 wt ++ zeros 36

/-- The table of a slot as its bytes stand: what has not been programmed is erased. -/
def slotTable (g : Cal) (s : Nat) : List Byte :=
  let n := (ofSlot s g.slots).written
  ((List.range 776).flatMap fun k => (Store.get {} g.stores (776 * s + k)).bytes).take n ++ List.replicate (tableLen - n) 0xFF

/-- MAGIC, FORMAT, FACETS, LENGTH and CRC are correct and PORTS matches the part (R383). -/
def slotValid (x : Ctx) (g : Cal) (s : Nat) : Bool :=
  let h := (ofSlot s g.slots).header
  fld h 0 4 = slotMagic && fld h 8 2 = 1 && fld h 10 1 = x.fuse.portsCode && fld h 11 1 = 8 && fld h 12 4 = tableLen &&
    fld h 60 4 = crc32c (h.take 60 ++ slotTable g s)

/-- The slot is erased. -/
def slotErased (g : Cal) (s : Nat) : Bool := ofSlot s g.slots = {}

/-- GEN of a slot. -/
def slotGen (g : Cal) (s : Nat) : Nat := fld (ofSlot s g.slots).header 4 4

/-- Slot `s` with a table of which `n` bytes have been programmed, and a header. -/
def fillSlot (s : Nat) (table : Store Entry) (n : Nat) (header : List Byte) (g : Cal) : Cal :=
  let kept := g.stores.filter (fun kv => kv.1 / 776 ≠ s)
  let written := table.map (fun kv => (776 * s + kv.1, kv.2))
  { g with stores := if s = 0 then written ++ kept else kept ++ written, slots := setSlot s { header := header, written := n } g.slots }

/-! Commits (R382). -/

/-- A commit begins: it takes the table as it stands, and erases the slot it writes (R382). -/
def beginCommit (seq : Option Nat) (d : Dev) : Dev :=
  let g := fillSlot (1 - d.cal.slot) [] 0 (List.replicate 64 0xFF) d.cal
  { d with cal := { g with committing := some d.core.facets, commitSeq := seq, changed := false } }

/-- A slot's whole header for a table: its CRC runs over bytes 0 to 59 and the table (R381). -/
def fullHeader (x : Ctx) (d : Dev) (s gen : Nat) (table : Store Entry) : List Byte :=
  let head := slotHead x.fuse.portsCode gen (wallNow d)
  head ++ le 4 (crc32c (head ++ slotTable (fillSlot s table tableLen [] d.cal) s))

/-- A commit is requested: it begins, or waits while another runs (R382). -/
def requestCommit (seq : Option Nat) (d : Dev) : Dev :=
  if d.cal.committing.isSome then { d with cal := { d.cal with commitQueue := d.cal.commitQueue ++ [seq] } } else beginCommit seq d

/-- A commit ends (R382): a matching read-back puts the slot in force; after one that does not match the slot has no CRC (log entry
112). -/
def endCommit (ok : Bool) (x : Ctx) (d : Dev) : Dev :=
  match d.cal.committing with
  | none => d
  | some table =>
    let other := 1 - d.cal.slot
    let gen := (d.cal.gen + 1) % 2 ^ 32
    let header := fullHeader x d other gen table
    let seq := d.cal.commitSeq
    let g : Cal := { d.cal with committing := none, commitSeq := none }
    let d1 :=
      if ok then
        let g1 := fillSlot other table tableLen header { g with slot := other, gen := gen, empty := false, commitWt := wallNow d }
        event 107 other gen { d with cal := g1 }
      else
        let g1 := fillSlot other table tableLen (header.take 60 ++ List.replicate 4 0xFF) { g with changed := true }
        event 108 other gen { d with cal := g1 }
    let d2 := endSeq seq (fun c d => if ok then doneCmd c 0x0800 d else failCmd c { status := 0x0813 } d) d1
    match d2.cal.commitQueue with
    | [] => d2
    | q :: rest => beginCommit q { d2 with cal := { d2.cal with commitQueue := rest } }

/-- A commit cut short by a reset or by a switch-over gap leaves the previous slot in force, and of the other the bytes written by then, a
free number of them: the table, then bytes 0 to 59, then CRC (R382, R383, R386; log entry 112). The table waits for another commit. -/
def cutCommit (x : Ctx) (d : Dev) : Dev :=
  match d.cal.committing with
  | none => { d with cal := { d.cal with commitQueue := [] } }
  | some table =>
    let other := 1 - d.cal.slot
    let n := freeValue d % (tableLen + 64)
    let header := (fullHeader x d other ((d.cal.gen + 1) % 2 ^ 32) table).take (n - tableLen) ++ List.replicate (64 - (n - tableLen)) 0xFF
    let g := fillSlot other table (min n tableLen) header d.cal
    useFree { d with cal := { g with committing := none, commitSeq := none, commitQueue := [], changed := true } }

/-- Firmware reads the store at boot (R383); the last commit is the one that wrote the slot in force (R389). -/
def readStore (x : Ctx) (d : Dev) : Dev :=
  let g := d.cal
  let v0 := slotValid x g 0
  let v1 := slotValid x g 1
  let torn (s : Nat) (ok : Bool) (d : Dev) : Dev := if !ok && !slotErased g s then event 109 s 0 d else d
  let d1 := torn 1 v1 (torn 0 v0 d)
  let newer := (slotGen g 1 + 2 ^ 32 - slotGen g 0) % 2 ^ 32
  let pick : Option Nat :=
    if v0 && v1 then some (if 1 ≤ newer ∧ newer ≤ 2 ^ 31 - 1 then 1 else 0)
    else if v0 then some 0 else if v1 then some 1 else none
  match pick with
  | none => event 110 0xFFFF 0 { d1 with cal := { d1.cal with empty := true }, core := { d1.core with facets := [] } }
  | some s =>
    let table : Store Entry := (g.stores.filter (fun kv => kv.1 / 776 = s)).map (fun kv => (kv.1 % 776, kv.2))
    { d1 with cal := { d1.cal with empty := false, slot := s, gen := slotGen g s, commitWt := fld (ofSlot s g.slots).header 16 8 }, core := { d1.core with facets := table } }

end Sys2Proof.Machine
end

