-- ==== Sys2Proof/Machine/RpOps.lean ====
section
/-! DEFINITION. Read-out processors: starting and ending kernels, pausing, attaching and detaching, and the results passed
to them (R275, R290 to R296). -/

namespace Sys2Proof.Machine

/-- The state of R275 at a kernel start; memory, kernel and counters stay. -/
def Rp.fresh (r : Rp) (k : Kernel) : Rp :=
  { r with acc := [], ovf := 0, satst := false, codew := false, ptr := [], c := [], state := 0, res := {}, pc := k.entry,
           cycles := 0, queue := [], waiting := false, detaching := false, pausedNs := 0 }

/-- Lattice time a standalone kernel has run, pauses excluded, in ns (R290). -/
def Rp.ranNs (r : Rp) (raw : Nat) : Nat :=
  (if r.mode = .paused then r.pausedAt else raw) - r.startLat - r.pausedNs

/-- A result of RP_RUN (R304). -/
def Rp.runBytes (r : Rp) : List Byte :=
  (List.range 4).flatMap (fun i => leI 8 (Store.get 0 r.acc i)) ++ le 8 r.cycles ++
    le 1 (r.ovf.toNat + flag r.satst 4 + flag r.codew 5) ++ zeros 7

/-- The standalone kernel of RP `p` ends with `status`; RP_RUN returns its result where it completed (R290, R304). -/
def endRun (p status : Nat) (d : Dev) : Dev :=
  let r := d.rp p
  let us := r.ranNs d.time.raw / 1000
  endSeq (some r.seq) (fun c d =>
    if completed status then okCmd c status us r.runBytes false d else failCmd c { status := status, imm := us } d)
    (d.setRp p { r with mode := .idle })

/-- The status of a kernel that reached HALT (R284, R300). -/
def Rp.haltStatus (r : Rp) : Nat := if r.ovf ≠ 0 then 0x0601 else if r.satst then 0x0602 else 0x0600

/-- Throttling pauses or resumes the standalone kernels (R141, R290). -/
def pauseRps (on : Bool) (d : Dev) : Dev :=
  d.forAll (List.range 12) fun p d =>
    let r := d.rp p
    match on, r.mode with
    | true, .running => d.setRp p { r with mode := .paused, pausedAt := d.time.raw }
    | false, .paused => d.setRp p { r with mode := .running, pausedNs := r.pausedNs + (d.time.raw - r.pausedAt) }
    | _, _ => d

/-- RP_ATTACH applied (R296, R306): the post kernel starts at ENTRY. -/
def applyAttach (c : Cmd) (d : Dev) : Dev :=
  let r := d.rp (c.arg 0 1)
  match r.kernel with
  | none => d
  | some k =>
    if r.mode = .idle && k.post then d.setRp (c.arg 0 1) { r.fresh k with mode := .attached, postRing := c.arg 1 1 } else d

/-- The queue is empty and the kernel waits at WAITR: a detach is complete (R296). -/
def Rp.drained (r : Rp) : Bool := r.queue.isEmpty && r.waiting

/-- The kernel of processor `p` is detached: each RP_STOP that waits for it ends (R296, R305). -/
def detachNow (p : Nat) (d : Dev) : Dev :=
  let r := d.rp p
  r.detachSeqs.foldl (fun d n => endSeq (some n) (fun c d => doneCmd c 0x0600 d) d)
    (d.setRp p { r with mode := .idle, detaching := false, detachSeqs := [] })

/-- A detach applied (R296): the queue takes no more results, and the kernel is detached once drained; a second RP_STOP ends with the
first. -/
def applyDetach (c : Cmd) (d : Dev) : Dev :=
  let p := c.arg 0 1
  let r := d.rp p
  if r.mode ≠ .attached then d
  else
    let seqs := if r.detaching then r.detachSeqs else []
    if r.drained then detachNow p (d.setRp p { r with detachSeqs := seqs })
    else d.setRp p { r with detaching := true, detachSeqs := seqs ++ [c.seq] }

/-- RP_APPLY applied: its payload was laid out as that of RO_WEIGHTS or RO_DISC when it began (R307). -/
def applyFromRp (c : Cmd) (d : Dev) : Dev := if c.aux = 0 then applyWeights c d else applyDisc c d

/-- A post record (R294). -/
def postBytes (q : RpResult) (flags : Nat) (v0 v1 : Int) (cause tag elapsed : Nat) : List Byte :=
  le 6 q.shot ++ le 1 q.chan ++ le 1 flags ++ leI 8 v0 ++ leI 8 v1 ++ le 2 cause ++ le 2 tag ++ le 4 elapsed

/-- Offer a post record to its ring; one that carries a cause fails its shot (R292, R294). -/
def offerPost (ring : Nat) (q : RpResult) (bytes : List Byte) (cause : Nat) (d : Dev) : Dev :=
  let f : ShotFail := { at4096 := nowFine d, inst := chanInst q.chan, cause := cause, detail := 0 }
  let d1 := if cause = 0 then d else failShot q.shot f 1 d
  offerResult ring { bytes := bytes, kind := false, shot := some q.shot, inst := chanInst q.chan, at4096 := nowFine d, cause := cause } d1

/-- A result that no kernel can take (R293): its record, with the values the spec leaves open free, and a missing marker.
With no kernel attached the ring is one the spec does not name (log entry 23). -/
def dropPost (p : Nat) (q : RpResult) (cause : Nat) (d : Dev) : Dev :=
  let r := d.rp p
  let v0 := Config.free d.freeCtr
  let v1 := Config.free (d.freeCtr + 1)
  let w := Config.free (d.freeCtr + 2)
  let own := if q.cause ≠ 0 then q.cause else cause
  let ring := if r.mode = .attached then r.postRing else w % 16
  let tag := match r.mode, r.kernel with | .attached, some k => k.tag | _, _ => w / 16
  let d1 := { d.setRp p { r with dropped := addW 64 r.dropped 1 } with freeCtr := d.freeCtr + 3 }
  let d2 := onShot q.shot (fun s => { s with postDrop := Store.set 0 s.postDrop p (Store.get 0 s.postDrop p + 1) }) d1
  sendChord true q.chan q.ordinal q.shot none
    (offerPost ring q (postBytes q 0 (v0 % 2 ^ 64 : Nat) (v1 % 2 ^ 64 : Nat) own tag 0) own d2)

/-- Results of one state instant stand in ascending channel order (R291). -/
def placeResult (q : RpResult) (qs : List RpResult) : List RpResult := insertBy (fun a b => a.lat == b.lat && decide (a.chan < b.chan)) q qs

/-- A POSTK result reaches its processor at its state instant (R291, R293, R296). -/
def passResult (p : Nat) (q : RpResult) (d : Dev) : Dev :=
  let r := d.rp p
  if r.mode ≠ .attached ∨ r.detaching then dropPost p q Cause.noKernel d
  else if 16 ≤ r.queue.length then dropPost p q Cause.postOverrun d
  else d.setRp p { r with queue := placeResult q r.queue }

end Sys2Proof.Machine
end

