-- ==== Sys2Proof/Machine/Staged.lean ====
section
/-! DEFINITION. Staged commands (R29): their effect, when it is applied, which of them go on after it, and the
configuration as it will stand (R152). -/

namespace Sys2Proof.Machine

/-- The effect of a staged command when it is applied. -/
def stagedEffect (x : Ctx) (c : Cmd) (d : Dev) : Dev :=
  match c.op with
  | 0x0202 => applySetPeriod c d
  | 0x0203 => applySync c d
  | 0x0301 => applyDrive c d
  | 0x0302 => applyFrameCmd c d
  | 0x0303 => if c.staged then queueEnv c d else writeEnv x (c.arg 0 1) (c.arg 4 4) (envWordsOf c) d
  | 0x0306 => applyFlux c d
  | 0x0307 => startRamp c d
  | 0x0380 => applyDrive c d
  | 0x0381 => applyFrameCmd c d
  | 0x0382 => applyAcq c d
  | 0x0404 => applyLoci c d
  | 0x0500 => applyChConfig c d
  | 0x0501 => applyWeights c d
  | 0x0502 => applyDisc c d
  | 0x05C0 => applyTable c d
  | 0x05C2 => applyExport c d
  | 0x0605 => applyAttach c d
  | 0x0606 => applyDetach c d
  | 0x0607 => applyFromRp c d
  | 0x0805 => applyCalWrite c d
  | 0x0A01 => applyPins c d
  | _ => d

/-- The status a command completes with: the base code of its group (R88). -/
def groupDone (op : Nat) : Nat := 256 * (op / 256)

/-- The command goes on after its effect: a copy, a ramp, a detaching kernel (R166, R176, R296). -/
def goesOn (c : Cmd) (d : Dev) : Bool :=
  match c.op with
  | 0x0303 => d.envCopies.any (fun e => e.seq = c.seq)
  | 0x0307 => (d.port (c.arg 0 1)).ramp.any (fun r => r.seq = c.seq)
  | 0x0606 => (d.rp (c.arg 0 1)).detaching && (d.rp (c.arg 0 1)).detachSeqs.contains c.seq
  | _ => false

/-- Apply a staged command: its effect, then its end unless it goes on. -/
def applyNow (x : Ctx) (c : Cmd) (d : Dev) : Dev :=
  let d1 := stagedEffect x c d
  if goesOn c d1 then d1 else doneCmd c (groupDone c.op) d1

/-- A checked command of a staged kind: staged while a program runs, else applied at once (R29). -/
def stageOrApply (x : Ctx) (c : Cmd) (d : Dev) : Dev :=
  if running d then putCmd { c with staged := true } d else applyNow x c d

/-- The commands staged and not yet applied, in acceptance order. -/
def stagedCmds (d : Dev) : List Cmd := d.core.cmds.filter (fun c => c.begun && c.staged && !(goesOn c d))

/-- Step 6 of R28: staged commands are applied in acceptance order. -/
def applyStaged (x : Ctx) (d : Dev) : Dev := (stagedCmds d).foldl (fun d c => journal c.seq (applyNow x c) d) d

/-- Staged commands are applied without a meridian: their completions say so (R71). -/
def applyAtOnce (x : Ctx) (d : Dev) : Dev :=
  (stagedCmds d).foldl (fun d c => journal c.seq (applyNow x { c with staged := false }) (putCmd { c with staged := false } d)) d

/-- What a staged command leaves of the configuration, for checks made before it is applied. -/
def projectOne (x : Ctx) (d : Dev) (c : Cmd) : Dev :=
  match c.op with
  | 0x0307 => projectDc c d
  | 0x0303 => d
  | _ => stagedEffect x c d

/-- The configuration as it will stand once every command staged before has been applied (R152). -/
def projected (x : Ctx) (d : Dev) : Dev := (stagedCmds d).foldl (projectOne x) d

/-! HOLD_N (R436). -/

/-- A hold comes into force: every output and the marker pins enter the safe condition. -/
def takeHold (x : Ctx) (d : Dev) : Dev :=
  let next : HoldState := if d.bench.pressed then .inForce else .latched
  allSafe x.fuse .hold { d with bench := { d.bench with hold := next } }

/-- A hold ends. -/
def endHold (d : Dev) : Dev :=
  let b := d.bench
  endCauseAll .hold { d with bench := { b with hold := .released, resumeHold := false } }

/-- The hold's part of a meridian: a waiting soft hold takes effect, a released or resumed one ends (R28, R436). -/
def holdAtMeridian (x : Ctx) (d : Dev) : Dev :=
  let b := d.bench
  match b.hold with
  | .released => d
  | .waiting => if b.resumeHold then endHold d else takeHold x d
  | .inForce => if b.pressed then d else endHold d
  | .latched => if b.resumeHold then endHold d else d

/-- With no program running a hold comes into force, and ends, at once. -/
def holdNow (x : Ctx) (d : Dev) : Dev := if running d then d else causeEnded (holdAtMeridian x d)

/-- The PLL loses lock or the core is lost: the program halts, staged commands are applied, and ports disabled for a later shot
are disabled (R30, R29, R165); what a hold waited for is over (R436). -/
def haltAndApply (cause reason : Nat) (x : Ctx) (d : Dev) : Dev :=
  if running d then
    holdNow x (settleEnable x.fuse (applyAtOnce x (haltProgram cause reason x d)))
  else d

end Sys2Proof.Machine
end

