-- ==== Sys2Proof/Machine/Release.lean ====
section
/-! DEFINITION. Release stages: arrival and release of items (R133 to R136, R167, R258, R425), segment jumps (R207) and
stream refills (R169, R171). -/

namespace Sys2Proof.Machine

/-- The offset, from its meridian, at which an item must be over (R26, R228, R425); a MARK item's periods count from its rounded
vertex. -/
def offsetEnd (d : Dev) (t : Tok) : Nat :=
  match t.kind with
  | .window => t.voff + 4096 * t.len
  | .mark =>
    let n := markExtent d.marker t.addr t.count
    if n = 0 then t.voff else 32 * over128 t.voff + 4096 * n
  | _ => t.voff

/-- The item breaches the bound of R26, once M(k), P(k) and the margin are fixed. -/
def isOutside (d : Dev) (t : Tok) : Bool :=
  let period := match shotOf d t.shot with | some s => s.period | none => d.core.run.period
  meridianPassed d t.shot && decide (4096 * (period - marginNow d) < offsetEnd d t)

/-- An item's place in vertex order: by instant where both are known, else by shot and offset (R133). -/
def notAfter (d : Dev) (a b : Tok) : Bool :=
  match vertexOf d a, vertexOf d b with
  | some u, some v => decide (u.1 ≤ v.1)
  | _, _ => decide (a.shot < b.shot) || (a.shot == b.shot && decide (a.voff ≤ b.voff))

/-- Put an item into a queue after those of its vertex and before later ones (R133). -/
def insertItem (d : Dev) (t : Tok) : List Tok → List Tok
  | [] => [t]
  | q :: rest => if notAfter d q t then q :: insertItem d t rest else t :: q :: rest

/-- The item came after its commit point (R134). -/
def isLate (d : Dev) (t : Tok) : Bool :=
  match vertexOf d t with
  | some (v, false) => decide (v / 4096 < t.arrival.getD d.time.lat + 40)
  | _ => false

/-- Why an arriving item is discarded, if it is; where more than one cause holds, which is recorded is a choice (log entry 101). -/
def arrivalDiscard (d : Dev) (t : Tok) : Option Nat :=
  if t.badLocus then some Cause.badLocus
  else if pastDecision d t.shot then some Cause.overrun
  else match arrivalCause d t.stage with
    | some c => some c
    | none => if isLate d t then some Cause.late else if isOutside d t then some Cause.outside else none

/-- The window gate admits no window now (R333). -/
def gateClosed (d : Dev) (t : Tok) : Bool :=
  t.kind = .window && (match (d.stage t.stage).lastWindow with | none => false | some a => decide (d.time.lat < a + 32))

/-- The gate passed the window its ray was held by: the ray goes on (R333). -/
def passGate (t : Tok) (d : Dev) : Dev :=
  if t.kind = .window then
    let d1 := d.setStage t.stage { d.stage t.stage with lastWindow := some d.time.lat }
    let y := d1.ray t.ray
    if t.held && y.st = .blocked then d1.setRay t.ray { y with st := .running } else d1
  else d

/-- The item plays samples of a template in the envelope store (R162, R200). -/
def readsStore (t : Tok) : Bool := t.kind = .play && decide (0 < t.len) && !t.locus.flags.getLsbD 0 && !t.locus.flags.getLsbD 4

/-- Samples a word of a template or segment holds on port `i` (R162). -/
def perWord (i : Nat) : Nat := if portKind i = .flux then 2 else 1

/-- A copy in progress writes a page that the item's envelope lies in: its read is held, and with it the item (R166). -/
def readHeld (d : Dev) (t : Tok) : Bool :=
  match d.envCopies with
  | [] => false
  | e :: _ =>
    let first := t.locus.envAddr / perWord t.stage
    let last := (t.locus.envAddr + t.len - 1) / perWord t.stage
    readsStore t && t.stage == e.port && e.start8.isSome &&
      decide (first / 4096 ≤ (e.addr + e.data.length - 1) / 4096) && decide (e.addr / 4096 ≤ last / 4096)

/-- A word of a template or segment as samples (R162): I and Q, or two flux samples. -/
def samplesOf (i w : Nat) : List IQ :=
  let lo := signed 16 (w % 2 ^ 16)
  let hi := signed 16 (w / 2 ^ 16 % 2 ^ 16)
  if perWord i = 2 then [⟨lo, 0⟩, ⟨hi, 0⟩] else [⟨lo, hi⟩]

/-- The template of an item, as its port's part of the envelope store holds it for the item's shot (R153, R162, R165). -/
def template (f : Fuse) (d : Dev) (t : Tok) : List IQ :=
  let w := perWord t.stage
  let a := t.locus.envAddr
  (((List.range ((a + t.len + w - 1) / w - a / w)).flatMap fun n =>
    samplesOf t.stage (Store.get 0 (envFor d t.shot) (envAddr f d t.stage (a / w + n))).toNat).drop (a % w)).take t.len

/-- The shot is one whose content the standby shadow-executes: one in 16, in rotation (R481, log entry 66). -/
def isShadowShot (k : Nat) : Bool := k % 16 = k / 16 % 16

/-- The standby shadow-executes the shot (R481). -/
def shadows (d : Dev) (k : Nat) : Bool := d.mirror.standby = 4 && d.mirror.shadow && isShadowShot k

/-- The comparator takes a token of a shadow shot from the release stream (R481). -/
def noteShadow (t : Tok) (d : Dev) : Dev :=
  if shadows d t.shot then { d with mirror := { d.mirror with shadowStream := d.mirror.shadowStream ++ [t] } } else d

/-- ITEM_ARRIVAL: token `n` of the fabric reaches its release stage (R134). It cannot while its frame part is not applied, the
queue holds 64 entries (R24), the gate is shut, or its envelope read is held (R166). The envelope engine has read its template by then
(log entry 99). -/
def itemArrival (n : Nat) (x : Ctx) (d : Dev) : Dev :=
  match d.core.fabric[n]? with
  | none => d
  | some t =>
    if !t.kind.isItem || !t.framed || stageFull d t.stage || gateClosed d t || readHeld d t || !tokensRun d then d
    else
      let d1 := passGate t { d with core := { d.core with fabric := d.core.fabric.eraseIdx n } }
      let (run, t0) := if t.kind = .window then placeWindow t d1.core.run else (d1.core.run, t)
      let t1 := { t0 with arrival := some d.time.lat, held := false, data := if readsStore t then template x.fuse d t else t.data }
      let d1 := noteShadow t1 { d1 with core := { d1.core with run := run } }
      match arrivalDiscard d1 t1 with
      | some c => discardItem c t1 (noteCut t.stage d1)
      | none => d1.setStage t.stage { d1.stage t.stage with queue := insertItem d1 t1 (d1.stage t.stage).queue }

/-! Jumps (R207). -/

/-- The current segment of a jump at `v`: of the items given, the one with the latest vertex before `v` whose nominal
interval contains `v`. -/
def segmentAt (d : Dev) (v : Nat) (items : List Tok) : Option Tok :=
  (items.filter fun q => q.kind = .play && decide (vertexFine d q < v) && decide (v < itemEnd d q)).foldl
    (fun (m : Option Tok) q => match m with | none => some q | some p => if vertexFine d p ≤ vertexFine d q then some q else some p) none

/-- V comes more than 24 ns before the segment's last sample. -/
def cutsClean (d : Dev) (v : Nat) (q : Tok) : Bool := decide (v + 4096 * 25 < vertexFine d q + 4096 * q.len)

/-- The first queued jump of a port whose comparison is still to be made. -/
def jumpWaiting (d : Dev) (i : Nat) : Option Tok :=
  (d.stage i).queue.find? fun t => t.locus.flags.getLsbD 3 && t.kind = .play && !t.jumpDone && (match vertexOf d t with | some (_, false) => true | _ => false)

/-- The comparison at the commit point: the item keeps its vertex, or moves to the segment boundary and is deferred. -/
def jumpCheck (t : Tok) (d : Dev) : Dev :=
  let v := vertexFine d t
  let d1 := advanceTo (v / 4096 - 40) d
  let s := d1.stage t.stage
  let others := s.playing ++ s.queue.erase t
  match segmentAt d1 v others with
  | none => d1.setStage t.stage { s with queue := s.queue.map (fun q => if q = t then { t with jumpDone := true } else q) }
  | some q =>
    if cutsClean d1 v q then d1.setStage t.stage { s with queue := s.queue.map (fun p => if p = t then { t with jumpDone := true } else p) }
    else
      let moved := { t with jumpDone := true, deferred := true, vertex := some (itemEnd d1 q) }
      let r := d1.core.run
      onShot t.shot (fun h => { h with deferred := addW 32 h.deferred 1 })
        ({ d1 with core := { d1.core with run := { r with deferred := addW 64 r.deferred 1 } } }.setStage t.stage
          { s with queue := insertItem d1 moved (s.queue.erase t) })

/-- JUMP_COMMIT_CHECK (R207). -/
def jumpCommitCheck (i : Nat) (_ : Ctx) (d : Dev) : Dev :=
  match jumpWaiting d i with
  | none => d
  | some t => jumpCheck t d

/-! Release. -/

/-- Items that may overlap at one sample instant (R167, R245). -/
def overlapLimit (i : Nat) : Nat := match portKind i with | .drive => 8 | .flux => 4 | _ => 16

/-- The port, or the window's port and channel, is enabled for the item's shot (R165, R182, R264, R267). -/
def enabledFor (d : Dev) (t : Tok) : Bool :=
  match t.kind with
  | .mark => true
  | .window => (cfgFor (d.port t.stage) t.shot).enable && (chanFor (d.chan t.chan) t.shot).enable
  | _ => (cfgFor (d.port t.stage) t.shot).enable

/-- A pulse is released: what it cuts short, the overlap limit, the counter (R167, R207). It keeps its absolute vertex (R125). -/
def releasePulse (t : Tok) (d : Dev) : Dev :=
  let s := d.stage t.stage
  let v := vertexFine d t
  let cut := if t.locus.flags.getLsbD 3 && !t.deferred then (segmentAt d v s.playing).filter (cutsClean d v) else none
  let playing := match cut with
    | none => s.playing
    | some q => s.playing.map (fun p => if p = q then { q with len := (v - vertexFine d q + 4095) / 4096 } else p)
  let p := d.port t.stage
  if t.len ≠ 0 ∧ overlapLimit t.stage ≤ (playing.filter (fun q => decide (v < itemEnd d q))).length then discardItem Cause.overlap t d
  else
    let kept := if t.len = 0 then playing else playing ++ [{ t with vertex := some v }]
    (d.setStage t.stage { s with playing := kept }).setPort t.stage { p with released := addW 64 p.released 1 }

/-- A window opens, unless it falls before the close of the window accepted before it on its channel (R258); its trace
begins where a unit is armed (R347). -/
def releaseWindow (t : Tok) (d : Dev) : Dev :=
  let c := d.chan t.chan
  let v := vertexFine d t
  let open8 := eighths v
  if open8 < c.lastClose then discardItem Cause.windowOverlap t d
  else
    let d1 := d.setChan t.chan { c with lastClose := open8 + 8 * t.len }
    let (d2, traced) := if t.trace then rayTrigger t.chan open8 t.shot d1 else (d1, false)
    d2.setStage t.stage { d2.stage t.stage with playing := (d2.stage t.stage).playing ++ [{ t with traced := traced, trim := d.trim t.stage, vertex := some v }] }

/-- Where a MARK item of this vertex begins at the pins, in 1/128 ns: its placement (R424), with the DELAY trim of the marker stage (R364;
log entry 125). -/
def markStart (d : Dev) (fine : Nat) : Int := over128 fine + roundHalfUp (d.trim 96).delay 8000

/-- A MARK item is released (R425): discarded where one still plays; one of zero extent plays nothing, and only counts as released
(R229). The item before it, if its extent has passed, leaves its pins as its last period drove them. -/
def releaseMark (t : Tok) (d : Dev) : Dev :=
  let v := markStart d (vertexFine d t)
  let busy := match d.marker.play with | none => false | some p => decide (v < markEnd d.marker p)
  if markExtent d.marker t.addr t.count = 0 then { d with marker := { d.marker with items := addW 64 d.marker.items 1 } }
  else if busy then discardItem Cause.overlap t d
  else
    let d1 := match d.marker.play with | none => d | some p => finishMark (drivePinsTo (markEnd d.marker p) d)
    let p : MarkPlay := { item := { t with vertex := some (vertexFine d t) }, start128 := v, vec := t.addr, rep := 0, at128 := v
                          trim128 := v - over128 (vertexFine d t) }
    { d1 with marker := { d1.marker with play := some p } }

/-- The head of a queue is released or discarded at its vertex: late, on a port in the safe condition (R173), or disabled. -/
def releaseHead (t : Tok) (d : Dev) : Dev :=
  let d1 := settlePort t.stage (advanceTo (vertexFine d t / 4096) d)
  let s := d1.stage t.stage
  let d2 := d1.setStage t.stage { s with queue := s.queue.erase t }
  if isLate d2 t && !t.deferred then discardItem Cause.late t d2
  else match arrivalCause d2 t.stage with
    | some c => discardItem c t d2
    | none =>
      if !enabledFor d2 t then discardItem Cause.disabled t d2
      else match t.kind with
        | .window => releaseWindow t d2
        | .mark => releaseMark t d2
        | _ => releasePulse t d2

/-- ITEM_RELEASE: the first item of the port with a fixed vertex meets it (R134); a jump not yet compared is compared first.
Release stages do not release while the PLL is unlocked (R30), and an item is not eligible before its meridian (R28). -/
def itemRelease (i : Nat) (_ : Ctx) (d : Dev) : Dev :=
  if !d.hif.lock then d
  else
    let d1 := match (d.stage i).queue with
      | [] => d
      | t :: _ => if (jumpWaiting d i) = some t then jumpCheck t d else d
    match (d1.stage i).queue with
    | [] => d1
    | t :: _ => match vertexOf d1 t with
      | some (_, false) => if running d1 && !meridianPassed d1 t.shot then d1 else settleOutput i (releaseHead t d1)
      | _ => d1

/-- The item now first on the port shares the vertex at which the row has released (R133). -/
def sharesVertex (i : Nat) (v : Option (Nat × Bool)) (d : Dev) : Bool :=
  match (d.stage i).queue with
  | [] => false
  | t :: _ => v.isSome && vertexOf d t == v

/-- Items of equal vertex are released together, in their arrival order: up to `more` further ones (R133). -/
def releaseEqual (i : Nat) (v : Option (Nat × Bool)) (x : Ctx) : Nat → Dev → Dev
  | 0, d => d
  | more + 1, d => if sharesVertex i v d then releaseEqual i v x more (itemRelease i x d) else d

/-- The vertex of the first item of a port. -/
def headVertex (i : Nat) (d : Dev) : Option (Nat × Bool) := (d.stage i).queue.head?.bind (vertexOf d)

/-- The whole of ITEM_RELEASE (log entry 123). -/
def itemReleaseRow (i more : Nat) (x : Ctx) (d : Dev) : Dev := releaseEqual i (headVertex i d) x more (itemRelease i x d)

/-! Streams (R169, R171). -/

/-- Bytes of one stream sample (R199). -/
def sampleBytes (i : Nat) : Nat := if portKind i = .flux then 2 else 4

/-- A stream item of the port with data still to fetch. -/
def needsFill (t : Tok) : Bool := t.kind = .play && t.framed && t.locus.flags.getLsbD 4 && !t.badLocus && decide (t.got < t.len)

/-- Samples a stream item holds that its playing has not used. -/
def buffered (d : Dev) (t : Tok) : Nat := t.got - playedNow d t

/-- The samples of a block that lie in failing 64-byte lines, as ranges, with the lines (R171). -/
def badLines (d : Dev) (i : Nat) (t : Tok) (n : Nat) : List (Nat × (Nat × Nat)) :=
  let w := sampleBytes i
  let a := t.locus.streamAddr + w * t.got
  (d.eccLines.filter (fun l => decide (a < 64 * l + 64) && decide (64 * l < a + w * n))).map fun l =>
    (l, (max t.got ((64 * l - t.locus.streamAddr) / w), min (t.got + n) ((64 * l + 64 - t.locus.streamAddr) / w)))

/-- Raise DDR5-uncorrectable for a line; which DDR5 channel holds it is not stated (log entry 26). -/
def ddrError (line : Nat) (d : Dev) : Dev := event 54 (freeValue d % 2) line (useFree d)

/-- Sample `n` of a segment in DDR5 (R162, R169). -/
def streamSample (x : Ctx) (i : Nat) (t : Tok) (n : Nat) : IQ :=
  let bs := Mem.read x.ddr (t.locus.streamAddr + sampleBytes i * n) (sampleBytes i)
  ⟨fldS bs 0 2, if perWord i = 2 then 0 else fldS bs 2 2⟩

/-- A block of up to 1,024 samples reaches an item. -/
def filled (x : Ctx) (d : Dev) (i : Nat) (t : Tok) : Tok :=
  let n := min 1024 (t.len - t.got)
  { t with got := t.got + n, zeros := t.zeros ++ (badLines d i t n).map (·.2)
           data := t.data ++ (List.range n).map (fun j => streamSample x i t (t.got + j)) }

/-- STREAM_BLOCK_REFILL: the first stream item of the port that needs data and finds room in the buffer of 8,192 samples takes a
block; playing items are counted up to now first. The items of a port share its buffer, those playing first (DESIGN CHOICE, log entry
127). -/
def streamRefill (i : Nat) (x : Ctx) (d0 : Dev) : Dev :=
  let d := settlePort i d0
  let s := d.stage i
  let inFabric := d.core.fabric.filter (fun t => t.stage = i)
  let all := (s.playing ++ s.queue ++ inFabric).filter (fun t => t.kind = .play)
  let held := (all.map (buffered d)).sum
  match all.find? needsFill with
  | none => d
  | some t =>
    if 8192 < held + min 1024 (t.len - t.got) then d
    else
      let t1 := filled x d i t
      let swap (q : Tok) : Tok := if q = t then t1 else q
      let d1 := { d.setStage i { s with playing := s.playing.map swap, queue := s.queue.map swap } with
        core := { d.core with fabric := d.core.fabric.map swap } }
      (badLines d i t (min 1024 (t.len - t.got))).foldl (fun d l => ddrError l.1 d) d1

/-! The rows. -/
def execItemArrival (n : Nat) (s : State) : Host.Outcome State Fault Refusal := .next (s.on (itemArrival n))
def execItemRelease (port : Fin 97) (more : Nat) (s : State) : Host.Outcome State Fault Refusal := .next (s.on (itemReleaseRow port more))
def execJumpCommitCheck (port : Fin 97) (s : State) : Host.Outcome State Fault Refusal := .next (s.on (jumpCommitCheck port))
def execStreamBlockRefill (port : Fin 97) (h : HostSide) (s : State) : Host.Outcome State Fault Refusal :=
  .next ((s.sync h).on (streamRefill port))

end Sys2Proof.Machine
end

