-- ==== Sys2Proof/Machine/Acquire.lean ====
section
/-! DEFINITION. The acquisition engine (12): ring and unit commands, triggers, captures, group arms and fires. -/

namespace Sys2Proof.Machine

/-! Rings (R356, R357). -/

/-- Two byte ranges share a byte. -/
def meets (a n b m : Nat) : Bool := decide (a < b + m) && decide (b < a + n)

/-- The regions another enabled ring holds: geometry in force, staged geometry, control block (R355, 0x0714). -/
def heldRegions (r : AcqRing) : List (Nat × Nat) :=
  [(r.geo.base, r.geo.slot * r.geo.length), (r.ctrl, 128)] ++
    (match r.staged with | none => [] | some g => [(g.base, g.slot * g.length)])

/-- The regions of every other enabled ring. -/
def otherRegions (d : Dev) (n : Nat) : List (Nat × Nat) :=
  ((List.range 16).filter (fun k => k ≠ n && (d.acqRing k).enabled)).flatMap (fun k => heldRegions (d.acqRing k))

/-- The check of 0x0714: region first, then control block. -/
def regionFail (c : Cmd) (d : Dev) : Option Fail :=
  let base := c.arg 8 8
  let size := c.arg 4 4 * c.arg 24 4
  let ctrl := c.arg 16 8
  let others := otherRegions d (c.arg 0 1)
  firstFail [
    fIf (!ddrUsable d base size || meets base size ctrl 128 || others.any (fun r => meets base size r.1 r.2)) 0x0714 8,
    fIf (!ddrUsable d ctrl 128 || others.any (fun r => meets ctrl 128 r.1 r.2)) 0x0714 16]

/-- The geometry an ACQ_RING_CONFIG names. -/
def geometryOf (c : Cmd) : Geometry := { length := c.arg 4 4, slot := c.arg 24 4, base := c.arg 8 8 }

/-- The unit is not idle. -/
def unitBusy (d : Dev) (u : Nat) : Bool := (d.unit u).st ≠ .idle

/-- SLOT is too small for a unit that is not idle and names the ring (R355, R356; which units count is DEDUCED, log entry 137). -/
def slotTooSmall (c : Cmd) (d : Dev) : Bool :=
  bitOf (c.arg 1 1) 1 &&
    (List.range 16).any fun u => unitBusy d u && (d.unit u).cfg.ring = c.arg 0 1 && decide (c.arg 24 4 < (d.unit u).cfg.slotNeeded)

/-- The checks of ACQ_RING_CONFIG proper (R356). -/
def ringOwnFail (c : Cmd) (d : Dev) : Option Fail :=
  let r := d.acqRing (c.arg 0 1)
  let fl := c.arg 1 1
  if !bitOf fl 0 then none
  else if !r.enabled then (if slotTooSmall c d then some (atPayload 0x0711 24) else regionFail c d)
  else if bitOf fl 1 != r.kind then some (atPayload 0x0711 1)
  else if c.arg 16 8 ≠ r.ctrl then some (atPayload 0x0711 16)
  else if geometryOf c = r.geo then none
  else regionFail c d

/-- Entries offered and not yet written fall under R336 when the ring is disabled. -/
def dropOffers (n : Nat) (d : Dev) : Dev :=
  let os := (d.acqRing n).offers
  os.foldl (fun d o => noRing n o d) (d.setAcqRing n { d.acqRing n with offers := [] })

/-- ACQ_RING_CONFIG (R356, R338, R342). -/
def acqRingConfigSpec : CmdSpec where
  op := 0x0701
  len := lenIs 32
  check := fun _ c d =>
    let kind := bitOf (c.arg 1 1) 1
    firstFail [fRange c 0 1 0 15, fFlags c 1 2, fRes c 2 2, fRange c 4 4 16 (2 ^ 24), fIf (c.arg 8 8 % 4096 ≠ 0) 0x1B 8,
      fIf (c.arg 16 8 % 128 ≠ 0) 0x1B 16,
      (if kind then fIf (decide (c.arg 24 4 < 192) || decide (262208 < c.arg 24 4) || c.arg 24 4 % 64 ≠ 0) 0x1B 24
       else fIf (c.arg 24 4 ≠ 32) 0x1B 24),
      fRes c 28 4, ringOwnFail c d]
  act := fun _ c d =>
    let n := c.arg 0 1
    let r := d.acqRing n
    let on := bitOf (c.arg 1 1) 0
    let g := geometryOf c
    doneCmd c 0x0700 (
      if !r.enabled && !on then d
      else if !on then dropOffers n (d.setAcqRing n { r with enabled := false, staged := none })
      else if !r.enabled then
        let r1 : AcqRing := { enabled := true, everEnabled := true, kind := bitOf (c.arg 1 1) 1, geo := g, ctrl := c.arg 16 8,
                              gen := if r.everEnabled then addW 32 r.gen 1 else 0 }
        writeRead r1 (putRing n r1 d)
      else putRing n { r with staged := if g = r.geo then none else some g } d)

/-- ACQ_RING_REBASE (R357, R342). -/
def acqRingRebaseSpec : CmdSpec where
  op := 0x0702
  len := lenIs 4
  check := fun _ c d => firstFail [fRange c 0 1 0 15, fRes c 1 3, fIf (!(d.acqRing (c.arg 0 1)).enabled) 0x0711 0]
  act := fun _ c d =>
    let n := c.arg 0 1
    let r := d.acqRing n
    let lost := r.unread
    let r1 := AcqRing.takeGeometry { r with read := r.written, rebased := addW 64 r.rebased lost }
    let d1 := writeRead r1 (putRing n r1 d)
    okCmd c 0x0700 lost [] false (publish
      { kind := 2, inst := n, seq := 0, start := d.time.lat, finish := d.time.lat, a := lost, b := r1.written, c := r1.gen, d := 0, e := 0 } d1)

/-! Units (R358 to R363). -/

/-- Another unit that is not idle is bound to a channel in RAY mode. -/
def channelBound (d : Dev) (u ch : Nat) : Bool :=
  (List.range 16).any fun v => v ≠ u && unitBusy d v && !(d.unit v).cfg.edge && (d.unit v).cfg.chan = ch

/-- The configuration an ACQ_UNIT_CONFIG carries. -/
def unitCfgOf (c : Cmd) : UnitCfg :=
  { edge := c.arg 1 1 = 1, demod := c.arg 2 1 = 1, ring := c.arg 3 1, aport := c.arg 4 1, ch := c.arg 5 1, tsrc := c.arg 6 1,
    tflags := BitVec.ofNat 8 (c.arg 7 1), level := c.argS 8 2, hyst := c.arg 10 2, pre := c.arg 12 4, len := c.arg 16 4,
    holdoff := c.arg 20 4, mask := BitVec.ofNat 8 (c.arg 24 1) }

/-- An acquire port number at a payload offset. -/
def fAportAt (x : Ctx) (c : Cmd) (off : Nat) : Option Fail :=
  if 11 < c.arg off 1 then some (atPayload 0x1B off) else if x.fuse.acquires ≤ c.arg off 1 then some (atPayload 0x14 off) else none

/-- Two configurations take their samples from one source (R343). -/
def UnitCfg.sameSource (a b : UnitCfg) : Bool := a.demod == b.demod && a.aport == b.aport && (!a.demod || a.ch == b.ch)

/-- A unit is configured; its history is of its source, so another one begins a new one (R343). -/
def CapUnit.configure (q : CapUnit) (g : UnitCfg) : CapUnit :=
  if q.cfg.sameSource g then { q with cfg := g } else { q with cfg := g, history := [], seen := 0 }

/-- ACQ_UNIT_CONFIG (R358). -/
def acqUnitConfigSpec : CmdSpec where
  op := 0x0703
  len := lenIs 32
  check := fun x c d =>
    let mask := c.arg 24 1
    firstFail [fRange c 0 1 0 15, fRange c 1 1 0 1, fRange c 2 1 0 1, fRange c 3 1 0 15, fAportAt x c 4, fRange c 5 1 0 15,
      (if c.arg 1 1 = 1 then fRange c 6 1 0 3 else fRes c 6 1), fIf (c.arg 7 1 % 4 = 3) 0x1B 7, fRange c 10 2 0 32767, fRange c 12 4 0 8192,
      fRange c 16 4 64 65536, fRange c 20 4 0 1000000000, fIf (128 ≤ mask) 0x13 24, fIf (bits mask 2 1 = 3 || decide (8 < bits mask 6 3)) 0x1B 24,
      fRes c 25 7, fIf (unitBusy d (c.arg 0 1)) 0x0710 0, fIf (c.arg 1 1 = 0 && channelBound d (c.arg 0 1) (unitCfgOf c).chan) 0x0713 5,
      fIf (decide (c.arg 16 4 < c.arg 12 4)) 0x1B 12]
  act := fun _ c d =>
    doneCmd c 0x0700 (d.setUnit (c.arg 0 1) ((d.unit (c.arg 0 1)).configure (unitCfgOf c)))

/-- ACQ_MASK (R359). -/
def acqMaskSpec : CmdSpec where
  op := 0x0704
  len := fun c => c.length == 8 + 4 * c.arg 4 2
  check := fun _ c d => firstFail [fRange c 0 1 0 15, fRes c 1 1, fRange c 2 2 0 255,
    fIf (c.arg 4 2 = 0 || decide (256 < c.arg 2 2 + c.arg 4 2)) 0x1B 4, fRes c 6 2, fIf (unitBusy d (c.arg 0 1)) 0x0710 0]
  act := fun _ c d =>
    let q := d.unit (c.arg 0 1)
    let tab := (List.range (c.arg 4 2)).foldl
      (fun s i => Store.set maskReset s (c.arg 2 2 + i) (c.argS (8 + 4 * i) 2, c.argS (10 + 4 * i) 2)) q.maskTab
    doneCmd c 0x0700 (d.setUnit (c.arg 0 1) { q with maskTab := tab })

/-- A unit's worst-case rate in bytes per eighth of a nanosecond, as a fraction (R335). -/
def unitRate (g : UnitCfg) : Nat × Nat := (g.slotNeeded, g.len * g.step + 6400 + 8 * g.holdoff)

/-- Sum of fractions. -/
def addRate (a b : Nat × Nat) : Nat × Nat := (a.1 * b.2 + b.1 * a.2, a.2 * b.2)

/-- The trace share in bytes per nanosecond (R334). -/
def traceShare (f : Fuse) : Nat := match f.ports with | .vy96 => 8 | .vy64 => 16 | .vy32 => 24

/-- The admission of R335 for units to be armed beside those armed: a failure with the demand in MB/s. -/
def admitFail (x : Ctx) (d : Dev) (us : List Nat) : Option Fail :=
  let all := (List.range 16).filter (fun u => us.contains u || unitBusy d u)
  let sum := all.foldl (fun a u => addRate a (unitRate (d.unit u).cfg)) (0, 1)
  if traceShare x.fuse * sum.2 < 8 * sum.1 then some { status := 0x0712, imm := 8000 * sum.1 / sum.2 } else none

/-- A unit's ring does not run with kind 1 and a slot large enough (R360). -/
def unitRingBad (d : Dev) (u : Nat) : Bool :=
  let g := (d.unit u).cfg
  let r := d.acqRing g.ring
  !r.enabled || !r.kind || decide (r.geo.slot < g.slotNeeded)

/-- COUNT of an arm: 1 to 2^32 − 1, 0 with CONTINUOUS (R360, R362). -/
def fCount (c : Cmd) (flagsOff off size : Nat) : Option Fail :=
  if bitOf (c.arg flagsOff 1) 0 then fRes c off size else fRange c off size 1 (2 ^ 32 - 1)

/-- ACQ_ARM (R360). -/
def acqArmSpec : CmdSpec where
  op := 0x0705
  len := lenIs 16
  check := fun x c d =>
    let u := c.arg 0 1
    let g := (d.unit u).cfg
    firstFail [fRange c 0 1 0 15, fFlags c 1 1, fRes c 2 6, fCount c 1 8 8, fIf (unitBusy d u || g.group) 0x0710 0,
      fIf (unitRingBad d u) 0x0711 0, admitFail x d [u], fIf (!g.edge && channelBound d u g.chan) 0x0713 5]
  act := fun _ c d => doneCmd c 0x0700 (armUnit (c.arg 0 1) (c.arg 8 8) (bitOf (c.arg 1 1) 0) d)

/-- Samples captured so far (R350). -/
def capturedNow (d : Dev) (u : CapUnit) : Nat :=
  min u.cfg.len (((8 * d.time.lat + u.cfg.pre * u.cfg.step : Nat) - u.trig) / u.cfg.step).toNat

/-- ACQ_STOP (R361, R350): `adc` are the codes, from sample 0 on, of a capture that MODE 1 cuts. -/
def acqStopSpec (adc : List (BitVec 12)) : CmdSpec where
  op := 0x0706
  len := lenIs 4
  check := fun _ c _ => firstFail [fRange c 0 1 0 15, fRange c 1 1 0 1, fRes c 2 2]
  act := fun _ c d =>
    let u := c.arg 0 1
    let q := d.unit u
    match q.st with
    | .idle => okCmd c 0x0002 0 [] true d
    | .capturing =>
      let d1 := d.setUnit u { q with stopSeqs := q.stopSeqs ++ [c.seq] }
      if c.arg 1 1 = 1 then
        finishCapture u (recordWords u (capturedNow d q) adc d) Cause.stopped d1
      else d1
    | _ => endUnit u 2 (d.setUnit u { q with stopSeqs := q.stopSeqs ++ [c.seq] })

/-- States of R344. -/
def UnitState.code : UnitState → Nat
  | .idle => 0 | .armed => 1 | .capturing => 2 | .rearming => 3 | .waitingGroup => 4

/-- ACQ_STATUS (R363). -/
def acqStatusSpec : CmdSpec where
  op := 0x0700
  len := lenIs 4
  check := fun _ c _ => firstFail [fRange c 0 1 0 15, fFlags c 1 1, fRes c 2 2]
  act := fun _ c d =>
    let u := c.arg 0 1
    let q := d.unit u
    let clear := bitOf (c.arg 1 1) 0
    let out := le 1 u ++ le 1 q.st.code ++ le 1 (flag q.cfg.edge 0) ++ le 1 q.cfg.ring ++ le 4 q.deadMax ++ le 8 q.records ++
      le 8 q.failed ++ le 8 q.missed ++ le 8 q.violating ++ le 8 q.lateFires ++ le 8 d.time.lat ++ zeros 8
    okCmd c 0x0700 0 out (!clear)
      (if clear then d.setUnit u { q with records := 0, failed := 0, missed := 0, violating := 0, lateFires := 0 } else d)

/-! Group arm (R351, R353, R362). -/

/-- The checks of R353 on this device's group units: FIRE_DELAY at `offDelay`, GROUP_CYCLE at `offCycle`. -/
def groupFit (d : Dev) (delay cycle : Nat) : Bool × Bool :=
  let us := (groupUnits d).map (fun u => (d.unit u).cfg)
  (us.all (fun g => decide (g.pre + delay * (if g.demod then 1 else 8) ≤ 8192)),
   us.all (fun g => decide (g.len * g.step + 6400 + 8 * g.holdoff ≤ 8 * cycle)))

/-- This device is a member. -/
def isMember (d : Dev) (members : Nat) : Bool := bitOf members d.domain.dev

/-- A RAY-mode unit of the group is bound to a channel that another unit, armed or of the group, is bound to (0x0713). -/
def groupChannelBound (d : Dev) : Bool :=
  let us := (groupUnits d).filter (fun u => !(d.unit u).cfg.edge)
  us.any fun u => channelBound d u (d.unit u).cfg.chan || us.any (fun v => v ≠ u && (d.unit v).cfg.chan = (d.unit u).cfg.chan)

/-- Units of this device that would arm. -/
def groupReady (x : Ctx) (d : Dev) : Bool :=
  let us := groupUnits d
  us.all (fun u => !unitBusy d u && !unitRingBad d u) && (admitFail x d us).isNone && !groupChannelBound d

/-- The group waits for ARM_AT on this device (state 4 of R344). -/
def waitGroup (g : GroupCap) (d : Dev) : Dev :=
  let d1 := { d with acq := { d.acq with group := g } }
  d1.forAll (groupUnits d1) (fun u d => d.setUnit u { d.unit u with st := .waitingGroup })

/-- ACQ_GROUP_ARM (R362): the checks are of this device's own units, where it is a member. -/
def acqGroupArmSpec : CmdSpec where
  op := 0x0707
  len := lenIs 24
  check := fun x c d =>
    let here := isMember d (c.arg 0 2)
    let us := groupUnits d
    let fit := groupFit d (c.arg 16 4) (c.arg 20 4)
    firstFail [fFlags c 2 1, fRes c 3 1, fCount c 2 4 4, fRange c 16 4 64 8192, fIf (decide (c.arg 20 4 < 864)) 0x1B 20,
      fIf (here && us.any (unitBusy d)) 0x0710 0, fIf (here && us.any (unitRingBad d)) 0x0711 0,
      (if here then admitFail x d us else none), fIf (here && groupChannelBound d) 0x0713 5, fIf (decide (c.arg 8 8 < d.time.lat + 10000)) 0x0716 8,
      fIf (here && !fit.1) 0x0715 16, fIf (here && !fit.2) 0x0715 20]
  act := fun _ c d =>
    let members := c.arg 0 2
    let here := isMember d members
    let self := if here then BitVec.ofNat 16 (2 ^ d.domain.dev) else 0
    let cont := bitOf (c.arg 2 1) 0
    let m : MasterArm := { seq := c.seq, armAt := c.arg 8 8, members := BitVec.ofNat 16 members, acks := self, replied := self }
    let g : GroupCap := { waiting := true, continuous := cont, count := c.arg 4 4, armAt := c.arg 8 8, fireDelay := c.arg 16 4,
                          cycle := c.arg 20 4 }
    let d0 := { d with acq := { d.acq with masters := d.acq.masters ++ [m] } }
    let d1 := if here then waitGroup g d0 else d0
    sendCtrl { type := 2, origin := d.domain.dev, members := members, continuous := cont, fireDelay := c.arg 16 4, armAt := c.arg 8 8,
               count := c.arg 4 4, cycle := c.arg 20 4 } d1

/-- GROUP_ARM_MESSAGE: the next control message received on a link (R351, R353): an arm is taken up or refused, an answer is
noted by the master. -/
def groupArmMessage (l : Nat) (x : Ctx) (d : Dev) : Dev :=
  match (d.link l).ctrlIn with
  | [] => d
  | m :: rest =>
    let d1 := d.setLink l { d.link l with ctrlIn := rest }
    if m.type = 2 then
      if !isMember d1 m.members ∨ m.armAt < d1.time.lat then d1
      else
        let fit := groupFit d1 m.fireDelay m.cycle
        if groupReady x d1 && fit.1 && fit.2 then
          let g1 : GroupCap := { waiting := true, continuous := m.continuous, count := m.count, armAt := m.armAt, fireDelay := m.fireDelay,
                                 cycle := m.cycle }
          sendCtrl { type := 3, origin := d1.domain.dev, armAt := m.armAt } (waitGroup g1 d1)
        else sendCtrl { type := 4, origin := d1.domain.dev, armAt := m.armAt } d1
    else
      let bit := BitVec.ofNat 16 (2 ^ m.origin)
      let hear (g : MasterArm) : MasterArm :=
        if m.armAt = g.armAt then { g with replied := g.replied ||| bit, acks := if m.type = 3 then g.acks ||| (bit &&& g.members) else g.acks }
        else g
      { d1 with acq := { d1.acq with masters := d1.acq.masters.map hear } }

/-- The next ARM_AT, of the group this device takes part in and of the arms it is master of. -/
def nextArmAt (d : Dev) : Option Nat :=
  ((if d.acq.group.waiting then [d.acq.group.armAt] else []) ++ d.acq.masters.map (·.armAt)).foldl
    (fun (m : Option Nat) t => match m with | none => some t | some a => some (min a t)) none

/-- The group units of this device arm (R351). -/
def armGroup (d : Dev) : Dev :=
  let g := d.acq.group
  let d1 := { d with acq := { d.acq with group := { g with waiting := false, armed := true, fires := [], busyUntil := 0, prevBusy := 0 } } }
  d1.forAll ((groupUnits d1).filter (fun u => (d1.unit u).st = .waitingGroup)) (armUnit · g.count g.continuous)

/-- The master's command ends at its ARM_AT with the members that armed (R351, R362). -/
def endMaster (d : Dev) (g : MasterArm) : Dev :=
  endSeq (some g.seq) (fun c d => okCmd c (if g.acks = g.members then 0x0700 else 0x0701) g.acks.toNat [] false d) d

/-- GROUP_ARM_AT: the group units arm at ARM_AT, and the master's command ends (R351). -/
def groupArmAt (_ : Ctx) (d : Dev) : Dev :=
  match nextArmAt d with
  | none => d
  | some t =>
    let d1 := advanceTo t d
    let ending := d1.acq.masters.filter (fun g => g.armAt = t)
    let arm (d : Dev) : Dev := if d.acq.group.waiting ∧ d.acq.group.armAt = t then armGroup d else d
    let d2 := match ending with | [] => arm d1 | g :: _ => journal g.seq arm d1
    ending.foldl endMaster { d2 with acq := { d2.acq with masters := d2.acq.masters.filter (fun g => g.armAt ≠ t) } }

/-! Triggers and captures. -/

/-- TRIGGER_FIRE (R346, R343): the codes of its acquire port reach a unit and its history; the trigger of an EDGE unit watches them and
fires where it is to. The trigger of an event input comes with its INPUT_EDGE, that of a RAY-mode unit with its window. -/
def triggerFire (u : Nat) (adc : List (BitVec 12)) (_ : Ctx) (d : Dev) : Dev :=
  let g := (d.unit u).cfg
  let t8 := feedFrom d u
  let ticks := adc.length / 8
  let vs := if g.edge then triggerValues d g t8 ticks adc else []
  advanceTo (if ticks = 0 then 0 else t8 / 8 + ticks - 1) (vs.foldl (watchOne u) (feedUnit u adc d))

/-- CAPTURE_END: the last sample of the record is taken, and the record offered (R344, R349); `adc` are the codes of its acquire port
from the record's sample 0 on. -/
def captureEnd (u : Nat) (adc : List (BitVec 12)) (_ : Ctx) (d : Dev) : Dev :=
  let q := d.unit u
  if q.st ≠ .capturing then d
  else finishCapture u (recordWords u q.cfg.len adc d) 0 (advanceTo ((q.end8 + 7) / 8).toNat d)

/-- UNIT_REARM: the unit is armed again, unprimed, not before the trigger plus HOLDOFF (R344). -/
def unitRearm (u : Nat) (_ : Ctx) (d : Dev) : Dev :=
  let q := d.unit u
  if q.st ≠ .rearming then d
  else
    let d1 := advanceTo ((q.trig + (8 * q.cfg.holdoff + 7 : Nat)) / 8).toNat d
    let q1 := { q with st := .armed, primed := (false, false), armedAt := 8 * d1.time.lat }
    d1.setUnit u { q1 with deadMax := max q1.deadMax q1.dead }

/-- The earliest fire, the lower device number first on a tie (R352). -/
def winner (fs : List (Nat × Nat)) : Option (Nat × Nat) :=
  fs.foldl (fun (m : Option (Nat × Nat)) f => match m with
    | none => some f
    | some w => if f.1 < w.1 ∨ (f.1 = w.1 ∧ f.2 < w.2) then some f else some w) none

/-- GROUP_FIRE_DECIDE: at T + FIRE_DELAY the earliest fire wins; every armed group unit records from it, and the other fires of
the cycle are counted as missed (R352). -/
def groupFireDecide (_ : Ctx) (d : Dev) : Dev :=
  let g := d.acq.group
  match (if g.armed then winner g.fires else none) with
  | none => d
  | some w =>
    let d1 := advanceTo ((w.1 + 7) / 8 + g.fireDelay) d
    let busy := w.1 + 8 * g.cycle
    let others := (g.fires.erase w).filter (fun f => f.1 < busy)
    let later := (g.fires.erase w).filter (fun f => busy ≤ f.1)
    let g1 : GroupCap := { g with fires := later, busyUntil := busy, prevBusy := g.busyUntil, lastT := w.1, lastOrigin := w.2 }
    let d2 := { d1 with acq := { d1.acq with group := g1 } }
    let d3 := d2.forAll (groupUnits d2) fun u d =>
      if (d.unit u).st = .armed then beginCapture u w.1 (shotAt d w.1) w.2 d else d
    others.foldl (fun d _ => missFire d) d3

/-- FIRE_MESSAGE: the next fire received on a link reaches the group (R352). -/
def fireMessage (l : Nat) (_ : Ctx) (d : Dev) : Dev :=
  match (d.link l).fireIn with
  | [] => d
  | m :: rest => takeFire m.origin m.t (d.setLink l { d.link l with fireIn := rest })

/-! The rows. -/
def execAcqStatus (mb : Fin 32) (h : HostSide) (s : State) : Host.Outcome State Fault Refusal := cmdRow acqStatusSpec mb h s
def execAcqRingConfig (mb : Fin 32) (h : HostSide) (s : State) : Host.Outcome State Fault Refusal := cmdRow acqRingConfigSpec mb h s
def execAcqRingRebase (mb : Fin 32) (h : HostSide) (s : State) : Host.Outcome State Fault Refusal := cmdRow acqRingRebaseSpec mb h s
def execAcqUnitConfig (mb : Fin 32) (h : HostSide) (s : State) : Host.Outcome State Fault Refusal := cmdRow acqUnitConfigSpec mb h s
def execAcqMask (mb : Fin 32) (h : HostSide) (s : State) : Host.Outcome State Fault Refusal := cmdRow acqMaskSpec mb h s
def execAcqArm (mb : Fin 32) (h : HostSide) (s : State) : Host.Outcome State Fault Refusal := cmdRow acqArmSpec mb h s
def execAcqStop (mb : Fin 32) (h : HostSide) (adc : List (BitVec 12)) (s : State) : Host.Outcome State Fault Refusal :=
  cmdRow (acqStopSpec adc) mb h s
def execAcqGroupArm (mb : Fin 32) (h : HostSide) (s : State) : Host.Outcome State Fault Refusal := cmdRow acqGroupArmSpec mb h s
def execRingEntryWrite (ring : Fin 16) (s : State) : Host.Outcome State Fault Refusal := .next (s.on (writeEntry ring))
def execRingReadPoll (ring : Fin 16) (h : HostSide) (s : State) : Host.Outcome State Fault Refusal := .next ((s.sync h).on (pollRing ring))
def execTriggerFire (unit : Fin 16) (adc : List (BitVec 12)) (s : State) : Host.Outcome State Fault Refusal :=
  .next (s.on (triggerFire unit adc))
def execCaptureEnd (unit : Fin 16) (adc : List (BitVec 12)) (s : State) : Host.Outcome State Fault Refusal :=
  .next (s.on (captureEnd unit adc))
def execUnitRearm (unit : Fin 16) (s : State) : Host.Outcome State Fault Refusal := .next (s.on (unitRearm unit))
def execGroupArmMessage (link : Fin 4) (s : State) : Host.Outcome State Fault Refusal := .next (s.on (groupArmMessage link))
def execGroupArmAt (s : State) : Host.Outcome State Fault Refusal := .next (s.on groupArmAt)
def execFireMessage (link : Fin 4) (s : State) : Host.Outcome State Fault Refusal := .next (s.on (fireMessage link))
def execGroupFireDecide (s : State) : Host.Outcome State Fault Refusal := .next (s.on groupFireDecide)

end Sys2Proof.Machine
end

