-- ==== Sys2Proof/Machine/Lattice.lean ====
section
/-! DEFINITION. The lattice (05): its commands, the reference, oven and PLL events, SYNC edges and slack readings. -/

namespace Sys2Proof.Machine

/-! Reference and oven (R117 to R121). -/

/-- The selected reference is present. -/
def refPresent (l : Lattice) : Bool := if l.refPN then l.presentPN else l.presentOsc

/-- REFERENCE_LOST (R117, R118). -/
def referenceLost (pn : Bool) (x : Ctx) (d : Dev) : Dev :=
  let l := d.lattice
  let was := if pn then l.presentPN else l.presentOsc
  if !was || (!pn && !x.fuse.oven) then d
  else
    let l1 := if pn then { l with presentPN := false } else { l with presentOsc := false }
    let d1 := event 56 (flag pn 0) 0 { d with lattice := l1 }
    if l.refPN != pn then d1
    else if pn && x.fuse.oven && l.fallback then
      event 58 0 0 { d1 with lattice := { d1.lattice with refPN := false, pullIn := true } }
    else event 59 (flag pn 0) 0 { d1 with lattice := { d1.lattice with holdover := true, pullIn := false } }

/-- REFERENCE_RESTORED (R117). DESIGN CHOICE (log entry 135): the resonator, selected, ends holdover as soon as it is present again, R119
giving the 100 ms for REF_P/N alone; a LAT_REF_SELECT that still waits for it is pulled in again (R146). -/
def referenceRestored (pn : Bool) (x : Ctx) (d : Dev) : Dev :=
  let l := d.lattice
  let was := if pn then l.presentPN else l.presentOsc
  if was || (!pn && !x.fuse.oven) then d
  else event 57 (flag pn 0) 0 { d with lattice :=
    (if pn then { l with presentPN := true, restoredAt := d.time.raw }
     else { l with presentOsc := true, holdover := l.holdover && l.refPN, pullIn := l.pullIn || (!l.refPN && !l.pullSeqs.isEmpty) }) }

/-- REF_PULL_IN: REF_P/N, selected, has been present again for 100 ms (R119). -/
def refPullIn (_ : Ctx) (d0 : Dev) : Dev :=
  if d0.lattice.refPN && d0.lattice.presentPN && d0.lattice.holdover then
    let d := advance (d0.lattice.restoredAt + 100000000 - d0.time.raw) d0
    { d with lattice := { d.lattice with holdover := false, pullIn := true } }
  else d0

/-- PULL_IN_COMPLETE: the PLL follows its source; each LAT_REF_SELECT that waits for it ends, in acceptance order (R119, R146; log entry
68). -/
def pullInComplete (_ : Ctx) (d : Dev) : Dev :=
  if d.lattice.pullIn then
    d.lattice.pullSeqs.foldl (fun d n => endSeq (some n) (fun c d => doneCmd c 0x0200 d) d)
      { d with lattice := { d.lattice with pullIn := false, pullSeqs := [] } }
  else d

/-- PLL_LOCK (R123): the first lock starts lattice time; a relock ends the lattice-unlock cause, and every port becomes due. -/
def pllLock (x : Ctx) (d : Dev) : Dev :=
  if d.hif.lock || d.images.inReset || !refPresent d.lattice && !d.lattice.holdover then d
  else
    let relock := d.time.counting
    let d1 := { d with hif := { d.hif with lock := true }, time := { d.time with counting := true },
                       lattice := { d.lattice with everLocked := true } }
    if relock then (causeEnded (endCauseAll .unlock d1)).forAll (x.fuse.indices.filter (· < 96)) (markDue true) else d1

/-- PLL_UNLOCK (R30, R123): every output goes safe, the program halts, lattice time goes on and is suspect. -/
def pllUnlock (x : Ctx) (d : Dev) : Dev :=
  if !d.hif.lock then d
  else
    let d1 := { d with hif := { d.hif with lock := false }, time := { d.time with suspect := true } }
    let d2 := haltAndApply Cause.unlock 5 x (allSafe x.fuse .unlock (abandonSlice d1))
    event 62 0xFFFF 0 (endMeas Cause.unlock (endCalRun Cause.unlock d2))

/-- ORF_WARM_SET (R11, R120). DESIGN CHOICE (log entry 136): an oven that comes within its setpoint after an oven fault sets ORF_WARM and
ends the fault. -/
def orfWarmSet (x : Ctx) (d : Dev) : Dev :=
  if x.fuse.oven && !d.hif.orfWarm then
    { d with hif := { d.hif with orfWarm := true }, lattice := { d.lattice with warmAt := d.time.lat, ovenFault := false } }
  else d

/-- OVEN_WARM_LOST (R120). -/
def ovenWarmLost (x : Ctx) (d : Dev) : Dev :=
  let warming (m : Meas) : Meas := { m with warming := m.warming || m.calibrated }
  if x.fuse.oven && d.hif.orfWarm then
    event 60 0xFFFF 0 { d with hif := { d.hif with orfWarm := false }, tim := { d.tim with meas := d.tim.meas.map warming } }
  else d

/-- OVEN_FAULT (R120). -/
def ovenFault (x : Ctx) (d : Dev) : Dev :=
  if x.fuse.oven && !d.hif.orfWarm then event 61 0xFFFF 0 { d with lattice := { d.lattice with ovenFault := true } } else d

/-! SYNC (R130 to R132). -/

/-- The window of the next meridian is being awaited: follow mode, a running program, and a meridian not yet fixed. -/
def windowPending (d : Dev) : Bool := running d && d.lattice.follow && !d.core.run.fixed && decide (1 ≤ d.core.run.k)

/-- Fix the next meridian at an instant (R130). -/
def fixMeridian (at_ : Nat) (delta : Int) (d : Dev) : Dev :=
  { d with core := { d.core with run := { d.core.run with next := at_, fixed := true, delta := delta } } }

/-- A SYNC edge in follow mode while a program runs (R130, R131), captured at `e`. -/
def syncFollow (e : Nat) (d : Dev) : Dev :=
  let edge := expectedEdge d
  if windowPending d && decide (edge ≤ e + edgeEarly d) && decide (e ≤ edge + 2048) then
    let d1 := { d with lattice := { d.lattice with syncIn := addW 64 d.lattice.syncIn 1 } }
    fixMeridian (e + d.lattice.lead) ((e : Int) - edge) d1
  else
    raise { src := 69, lat := 4096 * e } { d with lattice := { d.lattice with syncOut := addW 64 d.lattice.syncOut 1 } }

/-- What a captured SYNC edge does for an armed load and for the meridians; the TIM has its own event (R132). DESIGN CHOICE (log entry 143):
a loss of lock leaves LAT_LOAD armed, and its edge loads while the PLL is unlocked, R149 asking for lock only where the command begins. -/
def syncEdgeOps (falling : Bool) (x : Ctx) (d : Dev) : Dev :=
  if d.hif.state ≠ .ready then d
  else
    match d.lattice.armed with
    | some a =>
      if a.falling = falling ∧ !running d then
        let load (d : Dev) : Dev := (loadLattice a.value d).forAll (x.fuse.indices.filter (· < 96)) (markDue true)
        journal a.seq (fun d => endSeq (some a.seq) (fun c d => doneCmd c 0x0200 d) (load { d with lattice := { d.lattice with armed := none } })) d
      else d
    | none => if running d && d.lattice.follow && d.lattice.falling == falling then syncFollow d.time.lat d else d

/-- SYNC_WINDOW_CLOSE: no edge by E + 2048; the meridian is fixed on schedule (R130, R131). -/
def syncWindowClose (_ : Ctx) (d : Dev) : Dev :=
  if windowPending d then
    let edge := expectedEdge d
    let d1 := advanceTo (edge + 2048) d
    let d2 := { d1 with lattice := { d1.lattice with syncMissing := addW 64 d1.lattice.syncMissing 1 } }
    raise { src := 70, lat := 4096 * (edge + 2048) } (fixMeridian (edge + d.lattice.lead) 0 d2)
  else d

/-- LAT_LOAD_TIMEOUT (R149, R144): nothing changes, 0x0215 with DETAIL 44. Time goes on to the end of the wait, and never back (R124). -/
def latLoadTimeout (_ : Ctx) (d : Dev) : Dev :=
  match d.lattice.armed with
  | none => d
  | some a =>
    cancelArmed 0x0215 44 (advance (a.deadline - d.time.raw) d)

/-! Slack (R138 to R142). -/

/-- One ring's plausibility against the median of the others (R142). -/
def plausible (counts : List Nat) (i : Nat) : Bool :=
  let c := counts.getD i 0
  let m := median (counts.eraseIdx i)
  c ≠ 0 && decide (4 * c ≤ 5 * m) && decide (3 * m ≤ 4 * c)

/-- One reading of ring `i`: a failed ring returns after 1,000 plausible readings (R142). -/
def readRing (counts : List Nat) (mirror : Bool) (i : Nat) (d : Dev) : Dev :=
  let s := d.slackOf mirror
  let q := s.ring i
  let ok := plausible counts i
  let q1 : Canary :=
    if q.failed then
      if ok then (if 999 ≤ q.good then { slack := counts.getD i 0, failed := false, good := 0 } else { q with slack := counts.getD i 0, good := q.good + 1 })
      else { q with slack := counts.getD i 0, good := 0 }
    else { slack := counts.getD i 0, failed := !ok, good := 0 }
  let d1 := d.setSlack mirror { s with rings := Store.set {} s.rings i q1 }
  if q1.failed && !q.failed then event 68 i (flag mirror 0) d1 else d1

/-- The thresholds of a band (R140). -/
def slackLowAt (band : Nat) : Nat := match band with | 0 => 307 | 1 => 294 | _ => 282
def slackCriticalAt : Nat := 269

/-- One alarm's run of readings: set after 4 below, cleared after 64 at or above the threshold + 8 (R140). `set` and
`count` before; the new pair. -/
def alarmRun (set : Bool) (count th v : Nat) : Bool × Nat :=
  if set then
    if th + 8 ≤ v then (if 63 ≤ count then (false, 0) else (true, count + 1)) else (true, 0)
  else if v < th then (if 3 ≤ count then (true, 0) else (false, count + 1)) else (false, 0)

/-- The alarms of a core after a reading (R140). -/
def readAlarms (mirror : Bool) (d : Dev) : Dev :=
  let s := d.slackOf mirror
  let v := s.value
  let (lo, ln) := alarmRun s.low s.lowRun (slackLowAt d.thermal.band) v
  let (cr, cn) := alarmRun s.critical s.critRun slackCriticalAt v
  let d1 := d.setSlack mirror { s with low := lo, lowRun := ln, critical := cr, critRun := cn }
  let core := flag mirror 0
  let d2 := if lo && !s.low then event 64 core v d1 else if !lo && s.low then event 66 core v d1 else d1
  if cr && !s.critical then event 65 core v d2 else if !cr && s.critical then event 66 core v d2 else d2

/-- SLACK_READING (R138), every 1 µs: 24 counts in 1/256 units of one core. -/
def slackReading (mirror : Bool) (counts : List (BitVec 16)) (x : Ctx) (d : Dev) : Dev :=
  if counts.length ≠ 24 ∨ (mirror ∧ !x.fuse.duplex) then d
  else readAlarms mirror ((paced (.slack mirror) d).forAll (List.range 24) (readRing (counts.map (·.toNat)) mirror))

/-! Commands (R144 to R152). -/

/-- LAT_STATUS (R145). -/
def latStatusBytes (x : Ctx) (d : Dev) : List Byte :=
  let l := d.lattice
  let s := slackAt d false
  let oven := if !x.fuse.oven then 0 else if d.hif.orfWarm then 2 else if l.ovenFault then 3 else 1
  le 1 (flag l.refPN 0) ++
    le 1 (flag l.presentPN 0 + flag l.holdover 1 + flag l.fallback 2 + flag d.time.suspect 3) ++
    le 1 oven ++ le 1 d.thermal.band ++ le 2 s.value ++
    le 1 (flag s.low 0 + flag s.isCritical 1 + flag s.throttled 2 + flag (4 ≤ s.failedCount) 3) ++ le 1 s.failedCount ++
    le 8 d.time.lat ++ le 8 d.time.merid ++ le 8 l.period ++ le 8 l.ext ++ le 4 (marginNow d) ++ le 1 (flag l.follow 0) ++
    zeros 3 ++ le 4 l.lead ++ zeros 4 ++ le 8 l.syncIn ++ le 8 l.syncOut ++ le 8 l.syncMissing ++ leI 4 l.lastDelta ++
    zeros 4 ++ le 8 l.warmAt

def latStatusSpec : CmdSpec where
  op := 0x0200
  len := lenIs 0
  check := fun _ _ _ => none
  act := fun x c d => replyCmd c 0x0200 (latStatusBytes x d) d

/-- LAT_REF_SELECT (R146, R143): SOURCE 0 and FALLBACK fail with 0x0014 on X parts. DESIGN CHOICE (log entry 144): neither the selection of
an absent resonator nor a fallback onto one (R118) is checked for its presence; holdover ends, and the pull-in is as with a resonator. -/
def latRefSelectSpec : CmdSpec where
  op := 0x0201
  len := lenIs 4
  check := fun x c d => firstFail [
    fRange c 0 1 0 1, fIf (c.arg 0 1 = 0 && !x.fuse.oven) 0x14 0,
    fFlags c 1 1, fIf (bitOf (c.arg 1 1) 0 && !x.fuse.oven) 0x14 1, fRes c 2 2,
    fNone (!d.hif.lock) 0x0210, fIf (c.arg 0 1 = 1 && !d.lattice.presentPN) 0x0214 0]
  act := fun _ c d =>
    let pn := c.arg 0 1 = 1
    let l := d.lattice
    let d1 := { d with lattice := { l with refPN := pn, fallback := bitOf (c.arg 1 1) 0, holdover := false,
                                           pullIn := true, pullSeqs := l.pullSeqs ++ [c.seq] } }
    event 58 (c.arg 0 1) 0 d1

/-- Follow mode with SYNC_LEAD + 2,048 above the period (R130, R144). -/
def followTooLong (follow : Bool) (lead period : Nat) : Bool := follow && decide (period < lead + 2048)

/-- LAT_SET_PERIOD (R147, R152). -/
def latSetPeriodSpec : CmdSpec where
  op := 0x0202
  len := lenIs 8
  check := fun x c d =>
    let q := projected x d
    let extent := match runProg q with | none => 0 | some p => progExtent q p
    firstFail [fRange c 0 8 500 (2 ^ 34), fIf (running d && decide (c.arg 0 8 < extent)) 0x0212 0,
      fIf (followTooLong q.lattice.follow q.lattice.lead (c.arg 0 8)) 0x0213 0]
  act := fun x c d => stageOrApply x c d

/-- LAT_SYNC (R148). -/
def latSyncSpec : CmdSpec where
  op := 0x0203
  len := lenIs 8
  check := fun x c d =>
    let q := projected x d
    firstFail [fRange c 0 1 0 1, fFlags c 1 1, fRes c 2 2, fRange c 4 4 2096 65536,
      fIf (followTooLong (c.arg 0 1 = 1) (c.arg 4 4) q.lattice.period) 0x0213 4]
  act := fun x c d => stageOrApply x c d

/-- LAT_LOAD (R149): with WHEN 0 the tick after it begins reads VALUE. -/
def latLoadSpec : CmdSpec where
  op := 0x0204
  len := lenIs 16
  check := fun _ c d =>
    let when_ := c.arg 8 1
    firstFail [fRange c 8 1 0 2, fFlags c 9 1, fIf (when_ ≠ 1 && c.arg 9 1 ≠ 0) 0x13 9, fRes c 10 2,
      (if when_ = 1 then fRange c 12 4 1 60000 else fRes c 12 4),
      fNone (when_ ≠ 2 && !d.hif.lock) 0x0210, fNone (when_ ≠ 2 && running d) 0x0211]
  act := fun x c d =>
    let wasArmed := d.lattice.armed.isSome
    let d1 := cancelArmed 0x0216 0xFFFF d
    match c.arg 8 1 with
    | 0 => doneCmd c 0x0200 ((loadLattice (c.arg 0 8) (advance 1 d1)).forAll (x.fuse.indices.filter (· < 96)) (markDue true))
    | 1 =>
      let a : ArmedLoad := ⟨c.arg 0 8, bitOf (c.arg 9 1) 0, addW 64 d1.time.raw (1000000 * c.arg 12 4), c.seq⟩
      { d1 with lattice := { d1.lattice with armed := some a } }
    | _ => if wasArmed then doneCmd c 0x0200 d1 else okCmd c 0x0002 0 [] true d1

/-- LAT_SLACK (R150). -/
def latSlackSpec : CmdSpec where
  op := 0x0205
  len := lenIs 4
  check := fun x c _ => firstFail [fRange c 0 1 0 1, fIf (c.arg 0 1 = 1 && !x.fuse.duplex) 0x14 0, fRes c 1 3]
  act := fun _ c d =>
    let sb := c.arg 0 1 = 1
    let s := slackAt d sb
    replyCmd c 0x0200 (le 2 s.value ++ le 1 s.failedCount ++ le 1 (coreNo d sb) ++ zeros 4 ++
      (List.range 24).flatMap (fun i => le 2 (s.ring i).slack ++ le 1 (flag (s.ring i).failed 0) ++ zeros 1)) d

/-- LAT_DISCARDS (R151). -/
def latDiscardsSpec : CmdSpec where
  op := 0x0206
  len := lenIs 4
  check := fun _ c _ => firstFail [fFlags c 0 1, fRes c 1 3]
  act := fun _ c d =>
    let clear := bitOf (c.arg 0 1) 0
    let out := le 8 d.time.lat ++ le 8 d.discardTotal ++
      (List.range 97).flatMap (fun i => le 8 (Store.get {} d.discards i).late ++ le 8 (Store.get {} d.discards i).other)
    okCmd c 0x0200 0 out (!clear) (if clear then { d with discards := [], discardTotal := 0 } else d)

/-! The rows. -/
def execPllUnlock (s : State) : Host.Outcome State Fault Refusal := .next (s.on pllUnlock)
def execLatStatus (mb : Fin 32) (h : HostSide) (s : State) : Host.Outcome State Fault Refusal := cmdRow latStatusSpec mb h s
def execLatRefSelect (mb : Fin 32) (h : HostSide) (s : State) : Host.Outcome State Fault Refusal := cmdRow latRefSelectSpec mb h s
def execLatSetPeriod (mb : Fin 32) (h : HostSide) (s : State) : Host.Outcome State Fault Refusal := cmdRow latSetPeriodSpec mb h s
def execLatSync (mb : Fin 32) (h : HostSide) (s : State) : Host.Outcome State Fault Refusal := cmdRow latSyncSpec mb h s
def execLatLoad (mb : Fin 32) (h : HostSide) (s : State) : Host.Outcome State Fault Refusal := cmdRow latLoadSpec mb h s
def execLatSlack (mb : Fin 32) (h : HostSide) (s : State) : Host.Outcome State Fault Refusal := cmdRow latSlackSpec mb h s
def execLatDiscards (mb : Fin 32) (h : HostSide) (s : State) : Host.Outcome State Fault Refusal := cmdRow latDiscardsSpec mb h s
def execReferenceLost (refPN : Bool) (s : State) : Host.Outcome State Fault Refusal := .next (s.on (referenceLost refPN))
def execReferenceRestored (refPN : Bool) (s : State) : Host.Outcome State Fault Refusal := .next (s.on (referenceRestored refPN))
def execRefPullIn (s : State) : Host.Outcome State Fault Refusal := .next (s.on refPullIn)
def execPullInComplete (s : State) : Host.Outcome State Fault Refusal := .next (s.on pullInComplete)
def execPllLock (s : State) : Host.Outcome State Fault Refusal := .next (s.on pllLock)
def execOrfWarmSet (s : State) : Host.Outcome State Fault Refusal := .next (s.on orfWarmSet)
def execOvenWarmLost (s : State) : Host.Outcome State Fault Refusal := .next (s.on ovenWarmLost)
def execOvenFault (s : State) : Host.Outcome State Fault Refusal := .next (s.on ovenFault)
def execSyncWindowClose (s : State) : Host.Outcome State Fault Refusal := .next (s.on syncWindowClose)
def execLatLoadTimeout (s : State) : Host.Outcome State Fault Refusal := .next (s.on latLoadTimeout)
def execSlackReading (mirror : Bool) (counts : List (BitVec 16)) (s : State) : Host.Outcome State Fault Refusal :=
  .next (s.on (slackReading mirror counts))

end Sys2Proof.Machine
end

