-- ==== Sys2Proof/Machine/Tim.lean ====
section
/-! DEFINITION. The time-interval unit and wall time (14): commands, measurement windows, input edges, steps and rates of wall
time, and the pulse generators. -/

namespace Sys2Proof.Machine

/-! Inputs and measurements (R413 to R416). -/

/-- An event input is named by a measurement, an armed EDGE unit or SYNC follow mode (R413). -/
def inputBusy (d : Dev) (n : Nat) : Bool :=
  d.tim.meas.any (fun m => m.names n) ||
  (List.range 16).any (fun u =>
    let q := d.unit u
    q.st ≠ .idle && q.cfg.edge && q.cfg.tsrc = 3 && bits q.cfg.tflags.toNat 6 4 = n) ||
  (n = 8 && d.lattice.follow)

/-- TIM_INPUT_CONFIG (R414, R396): the phase of the prescaler is not defined after it (R397). -/
def timInputConfigSpec : CmdSpec where
  op := 0x0901
  len := lenIs 8
  check := fun x c d =>
    let n := c.arg 0 1
    let cml := x.fuse.ports = .vy96
    firstFail [fRange c 0 1 0 8, fRange c 1 1 0 3, fRange c 2 1 0 2, fRes c 3 1, fRange c 4 4 2 1000000,
      fIf (inputBusy d n) 0x0911 0,
      fIf (c.arg 1 1 ≠ 0 && (cml || n = 8)) 0x0914 1, fIf (c.arg 2 1 ≠ 0 && (!cml || n = 8)) 0x0914 2]
  act := fun _ c d =>
    let e : EvIn := { d.evIn (c.arg 0 1) with
      hyst := c.arg 1 1, prescale := c.arg 2 1, holdoff := c.arg 4 4, phase := (freeValue d, Config.free (d.freeCtr + 1)) }
    doneCmd c 0x0900 { d with tim := { d.tim with inputs := Store.set {} d.tim.inputs (c.arg 0 1) e }, freeCtr := d.freeCtr + 2 }

/-- When a measurement's window opens (R415). -/
def openTick (c : Cmd) (d : Dev) : Nat := if bitOf (c.arg 1 1) 0 then c.arg 8 8 else d.time.lat + 1000

/-- TIM_MEASURE (R415, R407): the command ends when the measurement is armed. -/
def timMeasureSpec : CmdSpec where
  op := 0x0902
  len := lenIs 40
  check := fun _ c d =>
    let at_ := bitOf (c.arg 1 1) 0
    let lattice := c.arg 0 1 = 64
    let stop (i : Nat) : Option Fail :=
      if i < c.arg 2 1 then fIf (!inputCode (c.arg (24 + i) 1 % 128)) 0x1B (24 + i) else fRes c (24 + i) 1
    let o := openTick c d
    firstFail ([fIf (!inputCode (c.arg 0 1) && !lattice) 0x1B 0, fFlags c 1 2, fRange c 2 1 0 15, fRes c 3 1,
      fRange c 4 4 16 4294967295, (if at_ then none else fRes c 8 8), (if lattice then none else fRes c 16 8)] ++
      (List.range 15).map stop ++ [fRes c 39 1, fNone (!d.hif.lock) 0x0916, fNone d.tim.meas.isSome 0x0910,
      fIf (at_ && decide (c.arg 8 8 < d.time.lat + 2000)) 0x0912 8,
      fIf (lattice && (decide (c.arg 16 8 < o) || decide (o + c.arg 4 4 < c.arg 16 8))) 0x0912 16])
  act := fun _ c d =>
    let id := d.tim.nextId
    let m : Meas := {
      id := id, startSrc := c.arg 0 1, startFalling := bitOf (c.arg 1 1) 1,
      stopSrcs := (List.range (c.arg 2 1)).map (fun i => c.arg (24 + i) 1), window := c.arg 4 4, openAt := openTick c d,
      startAt := c.arg 16 8 }
    okCmd c 0x0900 id [] false { d with tim := { d.tim with meas := some m, nextId := addW 32 id 1 } }

/-- One entry of a result (R406). -/
def timEntry (start : Option TimEdge) (e : Option TimEdge) : List Byte :=
  match e with
  | none => zeros 19 ++ le 1 2 ++ zeros 4
  | some v =>
    let diff := match start with | none => 0 | some s => if v.status = 1 then 0 else v.ps - s.ps
    le 8 v.tick ++ leI 8 diff ++ le 2 v.before ++ le 1 v.src ++ le 1 v.status ++ zeros 4

/-- A TIM result (R406). -/
def timResultBytes (m : Meas) : List Byte :=
  let n := m.stopSrcs.length
  le 4 m.id ++ le 1 n ++ le 1 ((List.range n).countP fun i => (m.stop i).isSome) ++ le 2 m.cause ++
    le 1 (flag m.warming 0 + flag m.start.isSome 1) ++ le 1 m.startSrc ++ zeros 2 ++ le 4 m.scale ++ le 8 m.openAt ++ le 8 m.ended ++
    le 4 m.orphans ++ le 2 (match m.orphan with | none => 0 | some e => e.before) ++
    le 1 (match m.orphan with | none => 0xFF | some e => e.src) ++ zeros 1 ++
    le 8 (match m.orphan with | none => 0 | some e => e.tick) ++ le 4 m.held ++ zeros 12 ++
    timEntry m.start m.start ++ (List.range n).flatMap (fun i => timEntry m.start (m.stop i))

/-- The result of a measurement number (R416). -/
def resultOf (d : Dev) (id : Nat) : Option Meas := d.tim.results.find? (fun m => m.id = id)

/-- TIM_READ (R416, R413): IMM 1 while the measurement has not ended or begun, 0 once its result is no longer held. -/
def timReadSpec : CmdSpec where
  op := 0x0903
  len := lenIs 4
  check := fun _ c d =>
    let id := c.arg 0 4
    if (resultOf d id).isSome then none
    else some { status := 0x0913, imm := if decide (d.tim.nextId ≤ id) || d.tim.meas.any (fun m => m.id = id) then 1 else 0 }
  act := fun _ c d => match resultOf d (c.arg 0 4) with
    | none => d
    | some m => replyCmd c 0x0900 (timResultBytes m) d

/-- TIM_ABORT (R416). -/
def timAbortSpec : CmdSpec where
  op := 0x0904
  len := lenIs 0
  check := fun _ _ _ => none
  act := fun _ c d => if d.tim.meas.isSome then doneCmd c 0x0900 (endMeas Cause.stopped d) else okCmd c 0x0002 0 [] true d

/-- The mean tap scale; a fraction rounds either way, and with no line named it is free (R401, log entry 46). -/
def meanScale (scales : List Nat) (w : Nat) : Nat :=
  if scales.isEmpty then w else scales.sum / scales.length + (if scales.sum % scales.length = 0 then 0 else w % 2)

/-- TIM_SELF_CALIBRATE (R401): 1 µs before the window opens. -/
def timSelfCalibrate (scales : List Nat) (x : Ctx) (d0 : Dev) : Dev :=
  match d0.tim.meas with
  | none => d0
  | some m =>
    if m.calibrated then d0
    else
      let d := advanceTo (m.openAt - 1000) d0
      let m1 : Meas := { m with
        calibrated := true, calOk := scales.all (fun v => decide (7900 ≤ v ∧ v ≤ 15000)), scale := meanScale scales (freeValue d),
        warming := x.fuse.oven && !d.hif.orfWarm }
      useFree { d with tim := { d.tim with meas := some m1 } }

/-- TIM_WINDOW_OPEN (R401, R402): a line out of scale ends the measurement here. -/
def timWindowOpen (_ : Ctx) (d0 : Dev) : Dev :=
  match d0.tim.meas with
  | none => d0
  | some m =>
    if m.isOpen || !m.calibrated then d0
    else
      let d := advanceTo m.openAt d0
      if m.calOk then { d with tim := { d.tim with meas := some { m with isOpen := true } } } else endMeas Cause.timCal d

/-- TIM_LATTICE_START (R402). -/
def timLatticeStart (_ : Ctx) (d : Dev) : Dev :=
  match d.tim.meas with
  | none => d
  | some m => if m.isOpen && m.startSrc == 64 && m.start.isNone then latticeStart (advanceTo m.startAt d) else d

/-- TIM_WINDOW_CLOSE (R403). -/
def timWindowClose (_ : Ctx) (d : Dev) : Dev :=
  match d.tim.meas with
  | none => d
  | some m => if m.isOpen then endMeas Cause.timeout (advanceTo (m.openAt + m.window) d) else d

/-- An edge at an input, BEFORE_PS before this tick: conditioned once, it reaches the TIM, the EDGE units that it triggers (R346) and,
from SYNC, the lattice (R130, R398); inputs are ignored until ready (R106). -/
def inputEdge (src : Nat) (falling : Bool) (before : Nat) (x : Ctx) (d : Dev) : Dev :=
  if !inputCode src || decide (999 < before) || d.hif.state ≠ .ready then d
  else
    let r := conditionEdge src falling before d
    if !r.1 then r.2
    else
      let d1 := eventTriggers src falling (timEdge src falling before r.2)
      if src = 8 then syncEdgeOps falling x d1 else d1

/-! Wall time (R408, R409, R417 to R419). -/

/-- WT_STATUS (R417). -/
def wtStatusSpec : CmdSpec where
  op := 0x0980
  len := lenIs 0
  check := fun _ _ _ => none
  act := fun _ c d =>
    let t := d.time
    replyCmd c 0x0900 (le 8 t.lat ++ le 8 (wallNow d) ++ le 8 t.raw ++ leI 4 t.rate ++ le 1 (flag t.stepped 0 + flag t.suspect 1) ++
      zeros 3 ++ le 8 t.w0 ++ le 8 t.r0 ++ le 4 t.steps ++ zeros 4 ++ le 8 t.pulsesSkipped) d

/-- WT_STEP (R418): the command waits for its tick, kept in `aux`. -/
def wtStepSpec : CmdSpec where
  op := 0x0981
  len := lenIs 24
  check := fun _ c d => firstFail [fRange c 0 1 0 1, fFlags c 1 1, fRes c 2 6,
    fIf (c.arg 16 8 ≠ 0 && decide (c.arg 16 8 < d.time.lat + 2000)) 0x0912 16]
  act := fun _ c d => putCmd { c with aux := if c.arg 16 8 = 0 then d.time.lat + 1 else c.arg 16 8 } d

/-- The targets of a generator that a step forward to `w` passes (R412): those before `w`. -/
def passedTargets (g : WallGen) (w : Nat) : Nat :=
  if !g.on || decide (w ≤ g.target) then 0
  else
    let n := if g.period = 0 then 1 else (w - g.target + g.period - 1) / g.period
    if g.continuous then n else min n g.left

/-- The pin of a generator takes a level; the safe condition does not touch it, and a pulse in progress keeps its WIDTH (R411, R412,
R431). -/
def driveGen (g : WallGen) (active : Bool) (d : Dev) : Dev :=
  { d with marker := { d.marker with pins := Store.set 2 d.marker.pins g.pin (if active != g.lowPulse then 1 else 0) } }

/-- A pin that a generator leaves takes IDLE or SAFE (R411, R430). -/
def freePin (pin : Nat) (d : Dev) : Dev :=
  let m := d.marker
  { d with marker := { m with owned := m.owned &&& ~~~(BitVec.ofNat 32 (2 ^ pin)),
                              pins := Store.set 2 m.pins pin (Store.get 2 (if m.safe then m.safeSt else m.idle) pin) } }

/-- A generator stops and releases its pin (R411). -/
def releaseGen (n : Nat) (d : Dev) : Dev := freePin (d.gen n).pin (d.setGen n { d.gen n with on := false, stopping := false })

/-- `k` targets of a generator are done; after the last one it ends, once any pulse in progress is over (R411). -/
def useTargets (n k : Nat) (d : Dev) : Dev :=
  let g := d.gen n
  let left := if g.continuous then g.left else g.left - k
  let g1 : WallGen := { g with target := g.target + k * g.period, left := left }
  if g.continuous || decide (0 < left) then d.setGen n g1
  else if g.pulseEnd.isSome then d.setGen n { g1 with stopping := true }
  else releaseGen n (d.setGen n g1)

/-- The targets of generator `n` that a step forward to `w` skips (R412). -/
def skippedTargets (w n : Nat) (d : Dev) : Nat := if (d.gen n).stopping then 0 else passedTargets (d.gen n) w

/-- A step forward passes a generator's targets (R412). -/
def skipTargets (w n : Nat) (d : Dev) : Dev :=
  let k := skippedTargets w n d
  if k = 0 then d else useTargets n k { d with time := { d.time with pulsesSkipped := addW 64 d.time.pulsesSkipped k } }

/-- A step forward to `w`: its event comes once if it skips any target (R412), with the lowest generator that skips and the targets of all
(R519; DESIGN CHOICE, log entry 150). -/
def stepForward (w : Nat) (d : Dev) : Dev :=
  let d1 := d.forAll (List.range 4) (skipTargets w)
  match (List.range 4).filter (fun n => skippedTargets w n d ≠ 0) with
  | [] => d1
  | n :: rest => event 114 n (((n :: rest).map (skippedTargets w · d)).sum % 2 ^ 32) d1

/-- The wall time a WT_STEP sets (R418). -/
def stepValue (c : Cmd) (d : Dev) : Nat := if c.arg 0 1 = 0 then c.arg 8 8 else addW 64 (wallNow d) (c.arg 8 8)

/-- A step of wall time at this tick (R409). -/
def applyStep (c : Cmd) (d : Dev) : Dev :=
  if d.time.stepped && !bitOf (c.arg 1 1) 0 then failCmd c (atPayload 0x0915 1) d
  else
    let w := stepValue c d
    let old := wallNow d
    let n := addW 32 d.time.steps 1
    let d1 := event 113 0xFFFF n { d with time := { d.time with w0 := w, r0 := d.time.raw, stepped := true, steps := n } }
    doneCmd c 0x0900 (if old < w then stepForward w d1 else d1)

/-- The WT_STEP whose tick comes first. -/
def nextStep (d : Dev) : Option Cmd :=
  (d.core.cmds.filter (fun c => c.begun && !c.dead && c.op = 0x0981)).foldl
    (fun (m : Option Cmd) c => match m with | none => some c | some b => if c.aux < b.aux then some c else m) none

/-- WT_STEP_APPLY (R418). -/
def wtStepApply (_ : Ctx) (d : Dev) : Dev :=
  match nextStep d with
  | none => d
  | some c => journal c.seq (applyStep c) (advanceTo c.aux d)

/-- WT_RATE (R419, R409): at the first tick after the command begins. -/
def wtRateSpec : CmdSpec where
  op := 0x0982
  len := lenIs 8
  check := fun _ c _ => firstFail [fRangeS c 0 4 (-549755813) 549755813, fRes c 4 4]
  act := fun _ c d0 =>
    let d := advance 1 d0
    doneCmd c 0x0900 { d with time := { d.time with w0 := wallNow d, r0 := d.time.raw, rate := c.argS 0 4 } }

/-! Pulse generators (R411, R412, R420). -/

/-- The generator drives the pin: it is assigned to it, or a pulse in progress is played on it (R411). -/
def WallGen.drives (g : WallGen) (pin : Nat) : Bool := g.on && (g.pin = pin || (g.pulseEnd.isSome && g.pulsePin = pin))

/-- Another generator drives the pin. -/
def pinTaken (d : Dev) (g pin : Nat) : Bool := (List.range 4).any fun h => h ≠ g && (d.gen h).drives pin

/-- COUNT of a WT_PULSE (R420): 0 with CONTINUOUS, 1 for a one-shot; no COUNT is in range for both. -/
def fPulseCount (c : Cmd) : Option Fail :=
  let oneShot := c.arg 16 8 = 0
  if bitOf (c.arg 2 1) 1 then firstFail [fRes c 24 8, fIf oneShot 0x1B 24]
  else if oneShot then fRange c 24 8 1 1 else fRange c 24 8 1 (2 ^ 48 - 1)

/-- WT_PULSE (R420): a new schedule leaves a pulse in progress its pin and WIDTH (R412). -/
def wtPulseSpec : CmdSpec where
  op := 0x0983
  len := lenIs 40
  check := fun _ c d => firstFail [fRange c 0 1 0 3, fRange c 1 1 0 31, fFlags c 2 3, fRes c 3 1, fRange c 4 4 1 4294967295,
    (if c.arg 16 8 = 0 then none else fRange c 16 8 (c.arg 4 4 + 1) (2 ^ 40)), fPulseCount c, fRes c 32 8,
    fIf (bitOf (c.arg 2 1) 0 && pinTaken d (c.arg 0 1) (c.arg 1 1)) 0x0917 1]
  act := fun _ c d =>
    let n := c.arg 0 1
    let g := d.gen n
    let fl := c.arg 2 1
    if bitOf fl 0 then
      let busy (pin : Nat) : Bool := g.pulseEnd.isSome && g.pulsePin = pin
      let d1 := if g.on && g.pin ≠ c.arg 1 1 && !busy g.pin then freePin g.pin d else d
      let g1 : WallGen := { on := true, pin := c.arg 1 1, continuous := bitOf fl 1, lowPulse := bitOf fl 2, width := c.arg 4 4,
                            target := c.arg 8 8, period := c.arg 16 8, left := c.arg 24 8, pulseEnd := g.pulseEnd, pulsePin := g.pulsePin, stopping := false }
      let d2 := { d1 with marker := { d1.marker with owned := d1.marker.owned ||| BitVec.ofNat 32 (2 ^ g1.pin) } }
      doneCmd c 0x0900 (if busy g1.pin then d2.setGen n g1 else driveGen g1 false (d2.setGen n g1))
    else if !g.on then okCmd c 0x0002 0 [] true d
    else if g.pulseEnd.isSome then doneCmd c 0x0900 (d.setGen n { g with stopping := true })
    else doneCmd c 0x0900 (releaseGen n d)

/-- Ticks from now until wall time first reaches `w` (R411). -/
def ticksToWall (d : Dev) (w : Nat) : Nat :=
  let t := d.time
  let dr := ((w - t.w0) * 2 ^ 40 + ((2 : Int) ^ 40 + t.rate).toNat - 1) / ((2 : Int) ^ 40 + t.rate).toNat
  dr - (t.raw + 2 ^ 64 - t.r0) % 2 ^ 64

/-- WT_PULSE_TARGET (R411, R412): the leading edge of the next target. -/
def wtPulseTarget (n : Nat) (_ : Ctx) (d : Dev) : Dev :=
  let g := d.gen n
  if !g.on || g.stopping || g.pulseEnd.isSome then d
  else
    let d1 := advance (ticksToWall d g.target) d
    if d1.marker.safe then useTargets n 1 { d1 with time := { d1.time with pulsesSkipped := addW 64 d1.time.pulsesSkipped 1 } }
    else useTargets n 1 (driveGen g true (d1.setGen n { g with pulseEnd := some (d1.time.raw + g.width), pulsePin := g.pin }))

/-- WT_PULSE_TRAILING_EDGE (R411): a pin that the generator has left since is free now. -/
def wtPulseTrailingEdge (n : Nat) (_ : Ctx) (d : Dev) : Dev :=
  match (d.gen n).pulseEnd with
  | none => d
  | some e =>
    let d1 := advance (e - d.time.raw) d
    let g : WallGen := { d1.gen n with pulseEnd := none }
    let d2 := if g.pulsePin = g.pin then driveGen g false (d1.setGen n g) else freePin g.pulsePin (d1.setGen n g)
    if g.stopping then releaseGen n d2 else d2

/-! The rows. -/
def execTimInputConfig (mb : Fin 32) (h : HostSide) (s : State) : Host.Outcome State Fault Refusal := cmdRow timInputConfigSpec mb h s
def execTimMeasure (mb : Fin 32) (h : HostSide) (s : State) : Host.Outcome State Fault Refusal := cmdRow timMeasureSpec mb h s
def execTimRead (mb : Fin 32) (h : HostSide) (s : State) : Host.Outcome State Fault Refusal := cmdRow timReadSpec mb h s
def execTimAbort (mb : Fin 32) (h : HostSide) (s : State) : Host.Outcome State Fault Refusal := cmdRow timAbortSpec mb h s
def execWtStatus (mb : Fin 32) (h : HostSide) (s : State) : Host.Outcome State Fault Refusal := cmdRow wtStatusSpec mb h s
def execWtStep (mb : Fin 32) (h : HostSide) (s : State) : Host.Outcome State Fault Refusal := cmdRow wtStepSpec mb h s
def execWtStepApply (s : State) : Host.Outcome State Fault Refusal := .next (s.on wtStepApply)
def execWtRate (mb : Fin 32) (h : HostSide) (s : State) : Host.Outcome State Fault Refusal := cmdRow wtRateSpec mb h s
def execWtPulse (mb : Fin 32) (h : HostSide) (s : State) : Host.Outcome State Fault Refusal := cmdRow wtPulseSpec mb h s
def execSyncEdge (falling : Bool) (beforePs : Nat) (s : State) : Host.Outcome State Fault Refusal :=
  .next (s.on (inputEdge 8 falling beforePs))
def execTimSelfCalibrate (scales : List Nat) (s : State) : Host.Outcome State Fault Refusal := .next (s.on (timSelfCalibrate scales))
def execTimWindowOpen (s : State) : Host.Outcome State Fault Refusal := .next (s.on timWindowOpen)
def execTimLatticeStart (s : State) : Host.Outcome State Fault Refusal := .next (s.on timLatticeStart)
def execEventInputEdge (src : Nat) (falling : Bool) (beforePs : Nat) (s : State) : Host.Outcome State Fault Refusal :=
  .next (s.on (inputEdge src falling beforePs))
def execTimWindowClose (s : State) : Host.Outcome State Fault Refusal := .next (s.on timWindowClose)
def execWtPulseTarget (g : Fin 4) (s : State) : Host.Outcome State Fault Refusal := .next (s.on (wtPulseTarget g.val))
def execWtPulseTrailingEdge (g : Fin 4) (s : State) : Host.Outcome State Fault Refusal := .next (s.on (wtPulseTrailingEdge g.val))

end Sys2Proof.Machine
end

