-- ==== Sys2Proof/Machine/Bench.lean ====
section
/-! DEFINITION. Marker vectors and the bench (15): loading and playing vectors, compares, plug sense, HOLD_N, indicators. -/

namespace Sys2Proof.Machine

/-! Marker memory (R421 to R428, R440). -/

/-- A MARK item is queued or playing, or a program runs (R426). -/
def markBusy (d0 : Dev) : Bool :=
  let d := settleMark d0
  running d || !(d.stage 96).queue.isEmpty || d.marker.play.isSome

/-- A compare failure record (R428). -/
def compareBytes (f : CompareFail) : List Byte :=
  le 6 f.shot ++ le 2 f.addr ++ le 8 f.strobe ++ le 4 f.mask.toNat ++ le 4 f.rep ++ le 4 f.observed.toNat ++ zeros 4

/-- MKV_STATUS (R440): LEVEL, what the balls read, is the operand. -/
def mkvStatusSpec (level : BitVec 32) : CmdSpec where
  op := 0x0A00
  len := lenIs 4
  check := fun _ c _ => firstFail [fFlags c 0 1, fRes c 1 3]
  act := fun _ c d0 =>
    let d := settleMark d0
    let m := d.marker
    let clear := bitOf (c.arg 0 1) 0
    let out := le 1 (if m.safe then 2 else if m.play.isSome then 1 else 0) ++ le 1 m.fails.length ++ zeros 2 ++ le 4 level.toNat ++
      le 8 m.items ++ le 8 m.failPeriods ++ le 8 m.failStrobes ++ le 8 d.time.lat ++ zeros 24 ++ m.fails.flatMap compareBytes
    let m1 : Marker := { m with items := 0, failPeriods := 0, failStrobes := 0, fails := [] }
    okCmd c 0x0A00 0 out (!clear) (if clear then { d with marker := m1 } else d)

/-- MKV_PIN_CONFIG (R440). -/
def mkvPinConfigSpec : CmdSpec where
  op := 0x0A01
  len := lenIs 20
  check := fun _ c _ =>
    let half (v : Nat) : Bool := v % 4 = 3 || v / 4 % 4 = 3
    firstFail ((List.range 16).map (fun i => fIf (half (c.arg i 1) || half (c.arg i 1 / 16)) 0x1B i) ++ [fFlags c 16 1, fRes c 17 3])
  act := fun x c d => stageOrApply x c d

/-- The largest offset of a timing set (R423). -/
def maxOfs (period : Nat) : Nat := min (128 * period - 1) 65535

/-- MKV_TSET_WRITE (R423, R440): a BULK payload. -/
def mkvTsetWriteSpec : CmdSpec where
  op := 0x0A02
  len := fun c => c.length == 136 && c.bulk
  check := fun _ c d =>
    let late (i : Nat) : Option Fail :=
      fIf (decide (maxOfs (c.arg 4 4) < c.arg (8 + 4 * i) 2) || decide (maxOfs (c.arg 4 4) < c.arg (10 + 4 * i) 2)) 0x0A12 (8 + 4 * i)
    firstFail ([fRange c 0 1 0 7, fRes c 1 3, fRange c 4 4 2 65536, fNone (markBusy d) 0x0A10] ++ (List.range 32).map late)
  act := fun _ c d =>
    let t : TSet := { period := c.arg 4 4, ofs := (List.range 64).foldl (fun s k => Store.set 0 s k (c.arg (8 + 2 * k) 2)) [] }
    doneCmd c 0x0A00 { d with marker := { d.marker with tsets := Store.set {} d.marker.tsets (c.arg 0 1) t } }

/-- ADDR and COUNT of MKV_WRITE and MKV_READ (R440). -/
def vectorHeader (c : Cmd) : List (Option Fail) :=
  [fRes c 2 2, fRange c 4 4 1 65536, fIf (decide (65536 < c.arg 0 2 + c.arg 4 4)) 0x1B 4]

/-- The generic checks of one vector (R421). -/
def vectorGeneric (c : Cmd) (i : Nat) : Option Fail :=
  let o := 8 + 24 * i
  firstFail [fFlags c (o + 16) 3, fRes c (o + 17) 3, fRange c (o + 20) 4 0 16777216]

/-- The state codes of one vector (R422). -/
def vectorFail (c : Cmd) (i : Nat) : Option Fail :=
  let o := 8 + 24 * i
  fIf ((List.range 32).any fun k => decide (4 < bits (c.arg o 16) (4 * k + 3) (4 * k))) 0x0A11 o

/-- MKV_WRITE (R426, R440). -/
def mkvWriteSpec : CmdSpec where
  op := 0x0A03
  len := fun c => c.length == 8 + 24 * c.arg 4 4
  check := fun _ c d => firstFail (vectorHeader c ++ (List.range (c.arg 4 4)).map (vectorGeneric c) ++
    [fNone (markBusy d) 0x0A10] ++ (List.range (c.arg 4 4)).map (vectorFail c))
  act := fun _ c d =>
    let put (s : Store MkVector) (i : Nat) : Store MkVector :=
      let o := 8 + 24 * i
      Store.set {} s (c.arg 0 2 + i) { states := BitVec.ofNat 128 (c.arg o 16), tset := c.arg (o + 16) 1, rep := c.arg (o + 20) 4 }
    doneCmd c 0x0A00 { d with marker := { d.marker with vectors := (List.range (c.arg 4 4)).foldl put d.marker.vectors } }

/-- The 24 bytes of a vector (R421). -/
def vectorBytes (v : MkVector) : List Byte := le 16 v.states.toNat ++ le 1 v.tset ++ zeros 3 ++ le 4 v.rep

/-- MKV_READ (R440). -/
def mkvReadSpec : CmdSpec where
  op := 0x0A04
  len := lenIs 8
  check := fun _ c _ => firstFail (vectorHeader c)
  act := fun _ c d => replyCmd c 0x0A00 ((List.range (c.arg 4 4)).flatMap (fun i => vectorBytes (d.marker.vector (c.arg 0 2 + i)))) d

/-! Playing (R424, R428). -/

/-- The next vector with a period left to play, from vector `v` after `r` repeats: vectors of REPEAT 0 take no time (R422). -/
def nextPeriod (m : Marker) (stop : Nat) : Nat → Nat → Nat → Option (Nat × Nat)
  | 0, _, _ => none
  | fuel + 1, v, r => if stop ≤ v then none else if r < (m.vector v).rep then some (v, r) else nextPeriod m stop fuel (v + 1) 0

/-- The pins a vector's period compares: codes 2 and 3 on pins no generator drives (R422, R431). -/
def comparedPins (m : Marker) (v : MkVector) : List Nat :=
  (List.range 32).filter fun i => !m.owned.getLsbD i && (pinState v i = 2 || pinState v i = 3)

/-- The compared pins whose strobe fails (R422). -/
def failingPins (m : Marker) (v : MkVector) (below above : BitVec 32) : List Nat :=
  (comparedPins m v).filter fun i => !(if pinState v i = 2 then below.getLsbD i else above.getLsbD i)

/-- A mask of pins. -/
def pinMask (is : List Nat) : BitVec 32 := is.foldl (fun w i => w ||| BitVec.ofNat 32 (2 ^ i)) 0

/-- A failed period is counted, logged among the 16 most recent, and recorded against its shot (R428). -/
def noteCompare (p : MarkPlay) (f : CompareFail) (strobes : Nat) (d : Dev) : Dev :=
  let m := d.marker
  let fails := m.fails ++ [f]
  let m1 : Marker := { m with
    failPeriods := addW 64 m.failPeriods 1, failStrobes := addW 64 m.failStrobes strobes, fails := fails.drop (fails.length - 16),
    play := m.play.map (fun q => { q with fails := q.fails + 1 }) }
  let d1 := onShot p.item.shot (fun s => { s with comparePeriods := s.comparePeriods + 1 }) { d with marker := m1 }
  if m.failShot && running d then
    failShot p.item.shot { at4096 := 32 * f.strobe, inst := 0xFFFF, cause := Cause.compare, detail := 0, item := false } 0 d1
  else d1

/-- MARKER_STROBE: the next period of the item playing, with what the balls read at their strobes (R424, R428): a record gives the instant on
the vertex timeline, which no trim moves. After the last one, the item ends. -/
def markerStrobe (below above : BitVec 32) (_ : Ctx) (d : Dev) : Dev :=
  match d.marker.play with
  | none => d
  | some p =>
    let stop := p.item.addr + p.item.count
    match nextPeriod d.marker stop (p.item.count + 1) p.vec p.rep with
    | none => finishMark (drivePins (advanceTo ((p.at128 + 127) / 128).toNat d))
    | some (a, r) =>
      let v := d.marker.vector a
      let t := d.marker.tset v.tset
      let cmp := comparedPins d.marker v
      let strobe (i : Nat) : Int := p.at128 + Store.get 0 t.ofs (2 * i + 1)
      let last := cmp.foldl (fun n i => max n (strobe i)) p.at128
      let d1 := drivePins (advanceTo (last / 128).toNat d)
      let strobed (q : MarkPlay) : MarkPlay := { q with vec := a, rep := r + 1, at128 := p.at128 + 128 * t.period }
      let d2 := { d1 with marker := { d1.marker with play := d1.marker.play.map strobed } }
      match failingPins d.marker v below above with
      | [] => d2
      | i :: rest =>
        let f : CompareFail := {
          shot := if running d2 then p.item.shot % 2 ^ 48 else 0xFFFFFFFFFFFF, addr := a
          strobe := ((rest.foldl (fun n k => min n (strobe k)) (strobe i) - p.trim128) % 2 ^ 64).toNat
          mask := pinMask (i :: rest), rep := r, observed := pinMask (cmp.filter fun k => above.getLsbD k) }
        noteCompare p f (rest.length + 1) d2

/-! Plug sense (R432 to R435). -/

/-- The smallest flux DC code of at least 20 mV (R175, R432). -/
def fluxSenseCode : Nat := 10486

/-- A flux port's DC level lies below 20 mV: its sense reads 0 (R432). -/
def fluxBelow (d : Dev) (i : Nat) : Bool := portKind i = .flux && decide ((dcNow d (d.port i)).natAbs < fluxSenseCode)

/-- What a port's sense reads now (R432, R433). -/
def senseNow (d : Dev) (i : Nat) : Nat := if fluxBelow d i then 0 else (d.port i).sense

/-- An unplug's cause of the safe condition ends once the port's sense reads 2 and BENCH_RESUME or AUTO lets it (R435). -/
def tryResume (i : Nat) (d : Dev) : Dev :=
  let p := d.port i
  if p.causes.contains .unplug && senseNow d i = 2 && (p.resumed || d.bench.auto.getLsbD i) then
    causeEnded (endCause .unplug i (d.setPort i { p with resumed := false }))
  else d

/-- The port was idle for 1 µs before a test that ends now, and for the 20 µs of the test: a reading is discarded where an item came
meanwhile (R432). -/
def idleForTest (d : Dev) (i : Nat) : Bool :=
  match (d.port i).lastBusy with
  | none => true
  | some t => decide (t + 21000 ≤ d.time.raw)

/-- PLUG_SENSE_TEST (R432, R433, R435): one reading of a port: every 10 ms, at the end of its test, or at any time of a flux port, which is
sensed continuously. Two equal ones put the code in force, and a flux level below 20 mV puts 0 in force by itself. -/
def plugSenseTest (i code : Nat) (x : Ctx) (d0 : Dev) : Dev :=
  let d := settlePort i (if portKind i = .flux then d0 else paced (.sense i) d0)
  let p := d.port i
  let flux := portKind i = .flux
  if 96 ≤ i ∨ !x.fuse.hasPort i ∨ d.bench.senseOff.getLsbD i ∨ (!flux ∧ !idleForTest d i) then d
  else
    let c := if fluxBelow d i then 0 else code
    let inForce := (c = p.lastSense ∨ fluxBelow d i = true) ∧ c ≠ p.sense
    let d1 := d.setPort i { p with lastSense := c, sense := if inForce then c else p.sense }
    tryResume i (if inForce then event (if c = 2 then 121 else 122) i c d1 else d1)

/-- The port is active: released with an item queued or playing, or a flux port whose sense is not 0, whatever its condition (R434). -/
def portActive (d : Dev) (i : Nat) : Bool :=
  let p := d.port i
  let s := d.stage i
  (decide (i < 84) && portCond p = 1 && (!s.queue.isEmpty || !s.playing.isEmpty)) || (portKind i = .flux && senseNow d i ≠ 0)

/-- The effect of an open load on an active port (R434). -/
def unplugActive (i : Nat) (d : Dev) : Dev :=
  let p := d.port i
  event 123 i (senseNow d i) (enterSafe .unplug i (d.setPort i { p with resumed := false }))

/-- OPEN_LOAD_DETECT (R434, R437): during a switch-over gap it waits for the gap's end. -/
def openLoadDetect (i : Nat) (x : Ctx) (d0 : Dev) : Dev :=
  let d := settlePort i d0
  if !x.fuse.hasPort i || !portActive d i then d
  else if inGap d then { d with bench := { d.bench with gapOpens := d.bench.gapOpens ++ [i] } }
  else unplugActive i d

/-! HOLD_N (R436, R437). -/

/-- HOLD_N was low at ready: it counts as pressed 5 ms after (R436). -/
def afterReady (d : Dev) : Dev :=
  match d.bench.lowSince with
  | none => d
  | some t => let d1 := advance (t + 5000000 - d.time.raw) d; { d1 with bench := { d1.bench with lowSince := none } }

/-- HOLD_PRESSED (R436): ignored until ready and in fault-halted state; in a switch-over gap it waits for the gap's end (R437). A hold
already latched stays so: it ends only through
BENCH_RESUME. -/
def holdPressed (x : Ctx) (d0 : Dev) : Dev :=
  if d0.hif.state ≠ .ready || d0.bench.pressed then d0
  else
    let d := afterReady d0
    let b := d.bench
    let b1 : Bench := { b with
      pressed := true, pressHard := b.hard, pressLatch := b.latch || (b.hold = .waiting && b.pressLatch), resumeHold := false,
      hold := match b.hold with
        | .latched => if b.resumeHold then .inForce else .latched
        | .inForce => .inForce
        | _ => .waiting }
    let d1 := event 124 0xFFFF (flag b.hard 0) { d with bench := b1 }
    if b1.hold ≠ .waiting || !firmwareRuns d || (!b.hard && running d) then d1 else takeHold x d1

/-- HOLD_RELEASED (R436): ignored as a press is (R106); before the 5 ms of a HOLD_N low at ready are over, there is no press. -/
def holdReleased (_ : Ctx) (d : Dev) : Dev :=
  let b := d.bench
  if d.hif.state ≠ .ready then d
  else if !b.pressed then { d with bench := { b with lowSince := none } }
  else
    let next : HoldState := match b.hold with
      | .waiting => if b.pressLatch then .waiting else .released
      | .inForce => if b.pressLatch then .latched else .inForce
      | other => other
    let d1 := event 125 0xFFFF (flag b.pressHard 0) { d with bench := { b with pressed := false, hold := next } }
    if next = .inForce ∧ !running d then causeEnded (endHold d1) else d1

/-! The TAP (R550). -/

/-- A port is safe for an EXTEST-class instruction. -/
def tapSafe (x : Ctx) (d : Dev) : Bool := x.fuse.indices.any fun i => (d.port i).causes.contains .tap

/-- While an EXTEST-class instruction is in force, firmware sees every port as held safe, and open shots fail with "hold" (R550). -/
def followTap (x : Ctx) (d : Dev) : Dev :=
  if underExtest d = tapSafe x d then d
  else if underExtest d then
    let f : ShotFail := { at4096 := nowFine d, inst := 0xFFFF, cause := Cause.hold, detail := 0, item := false }
    (allSafe x.fuse .tap d).forAll (d.core.shots.map (·.num)) (fun k => failShot k f 0)
  else causeEnded (endCauseAll .tap d)

/-! Bench commands (R440). -/

/-- The mask of a part's port indices below 96. -/
def portMask (x : Ctx) : BitVec 96 := (x.fuse.indices.filter (· < 96)).foldl (fun w i => w ||| BitVec.ofNat 96 (2 ^ i)) 0

/-- SOURCE of an indicator; IND0 is 1 after reset (R438). -/
def indSource (d : Dev) (i : Nat) : Nat := Store.get (if i = 0 then 1 else 0) d.bench.ind i

/-- Source `src` blinks with a half period of so many ns, in the raw counter's time: 50 % duty, with a free phase (log entry 47). -/
def blinks (d : Dev) (src half : Nat) : Bool := (d.time.raw + Config.blinkPhase src) / half % 2 = 0

/-- Half periods of 0.5 Hz, 2 Hz and 8 Hz. -/
def halfSlow : Nat := 1000000000
def halfMid : Nat := 250000000
def halfFast : Nat := 62500000

/-- The port is safe after an unplug (R435): its cause stands, or has ended and waits for the meridian. -/
def afterUnplug (p : Port) : Bool := p.safe && (p.causes.contains .unplug || (p.causes.isEmpty && p.entered == .unplug))

/-- An indicator with the source that IND_CONFIG gave it is on (R438). -/
def sourceOn (x : Ctx) (d : Dev) (i : Nat) : Bool :=
  let senses := (x.fuse.indices.filter (· < 96)).map (senseNow d)
  match indSource d i with
  | 0 => false
  | 1 => true
  | 2 => blinks d 2 halfSlow
  | 3 => blinks d 3 halfMid
  | 4 => blinks d 4 halfFast
  | 5 => running d
  | 6 => d.bench.hold = .inForce || d.bench.hold = .latched
  | 7 => x.fuse.indices.any (fun p => afterUnplug (d.port p))
  | 8 => senses.any (fun c => c = 1 || c = 3 || c = 4)
  | 9 => (slackAt d false).low || (slackAt d false).isCritical || d.thermal.warning
  | 10 => d.hif.redund = 2 || d.hif.redund = 3
  | _ => [0, 1, 2, 3].any (fun l => (d.link l).stage = 5 && !(d.link l).isIdle)

/-- An indicator is on: IND_CONFIG has effect at ready only; before and in restricted mode IND0 alone blinks, and after a shutdown it
does, at 0.5 Hz, from logic that counts its own time (R106, R438, R503). -/
def indOn (x : Ctx) (d : Dev) (i : Nat) : Bool :=
  if d.thermal.isShut then i = 0 && (d.thermal.shutNs + Config.blinkPhase 2) / halfSlow % 2 = 0
  else
    match d.hif.state with
    | .bootRom => i = 0 && blinks d 3 halfMid
    | .imageLoading => i = 0 && blinks d 3 halfMid
    | .ready => sourceOn x d i
    | .restricted => i = 0 && blinks d 4 halfFast
    | .faultHalted => false

/-- HOLD_STATE (R440). -/
def holdCode (b : Bench) : Nat :=
  match b.hold with
  | .released => 0
  | .waiting => 1
  | .inForce => 2
  | .latched => if b.pressed then 2 else 3

/-- PLUG of a port (R440). -/
def plugByte (x : Ctx) (d : Dev) (i : Nat) : Nat :=
  if !x.fuse.hasPort i then 0
  else senseNow d i % 8 + flag (afterUnplug (d.port i)) 3 + flag (!d.bench.senseOff.getLsbD i) 4

/-- BENCH_STATUS (R440). -/
def benchStatusSpec : CmdSpec where
  op := 0x0A05
  len := lenIs 0
  check := fun _ _ _ => none
  act := fun x c d =>
    let ind := ((List.range 8).map fun i => flag (indOn x d i) i).sum
    replyCmd c 0x0A00 (le 1 (holdCode d.bench) ++ le 1 ind ++ zeros 6 ++ le 8 d.time.lat ++
      (List.range 96).flatMap (fun i => le 1 (plugByte x d i))) d

/-- BENCH_CONFIG (R440): a port that is no longer sensed reads 0; AUTO may end an unplug's cause at once. -/
def benchConfigSpec : CmdSpec where
  op := 0x0A06
  len := lenIs 28
  check := fun x c _ =>
    let absent (o : Nat) : Bool := BitVec.ofNat 96 (c.arg o 12) &&& ~~~(portMask x) ≠ 0
    firstFail [fFlags c 0 2, fRes c 1 3, fIf (absent 4) 0x14 4, fIf (absent 16) 0x14 16]
  act := fun x c d =>
    let sense := BitVec.ofNat 96 (c.arg 4 12)
    let b : Bench := { d.bench with hard := bitOf (c.arg 0 1) 0, latch := bitOf (c.arg 0 1) 1, senseOff := portMask x &&& ~~~sense,
                                    auto := BitVec.ofNat 96 (c.arg 16 12) }
    let quiet (i : Nat) (d : Dev) : Dev := if sense.getLsbD i then d else d.setPort i { d.port i with sense := 0, lastSense := 0 }
    let ports := x.fuse.indices.filter (· < 96)
    doneCmd c 0x0A00 ((({ d with bench := b } : Dev).forAll ports quiet).forAll ports tryResume)

/-- A latched hold that a BENCH_RESUME may end: HOLD_N has been released (R436). -/
def resumable (d : Dev) : Bool := !d.bench.pressed && (d.bench.hold = .latched || (d.bench.hold = .waiting && d.bench.pressLatch))

/-- BENCH_RESUME (R435, R436, R440). -/
def benchResumeSpec : CmdSpec where
  op := 0x0A07
  len := lenIs 16
  check := fun x c _ => firstFail [
    fIf (BitVec.ofNat 96 (c.arg 0 12) &&& ~~~(portMask x) ≠ 0) 0x14 0, fFlags c 12 1, fRes c 13 3]
  act := fun x c d =>
    let ports := BitVec.ofNat 96 (c.arg 0 12)
    let outs := outputs x.fuse
    let hold := bitOf (c.arg 12 1) 0 && resumable d
    let plugs := outs.filter (fun i => ports.getLsbD i && (d.port i).causes.contains .unplug && senseNow d i = 2)
    let holds := outs.filter (fun i => hold && !d.bench.resumeHold && (d.port i).causes.contains .hold)
    let n := (outs.filter (fun i => plugs.contains i || holds.contains i)).length
    let name (i : Nat) (d : Dev) : Dev :=
      if ports.getLsbD i && (d.port i).causes.contains .unplug then tryResume i (d.setPort i { d.port i with resumed := true }) else d
    let d1 := d.forAll outs name
    let d2 := if !hold then d1 else if running d1 then { d1 with bench := { d1.bench with resumeHold := true } } else causeEnded (endHold d1)
    okCmd c (if n = 0 then 0x0002 else 0x0A00) n [] false d2

/-- IND_CONFIG (R438, R440). -/
def indConfigSpec : CmdSpec where
  op := 0x0A08
  len := lenIs 8
  check := fun _ c _ => firstFail ((List.range 8).map fun i => fRange c i 1 0 11)
  act := fun _ c d =>
    let put (s : Store Nat) (i : Nat) : Store Nat := Store.set (if i = 0 then 1 else 0) s i (c.arg i 1)
    doneCmd c 0x0A00 { d with bench := { d.bench with ind := (List.range 8).foldl put d.bench.ind } }

/-! The rows. -/
def execMkvStatus (mb : Fin 32) (h : HostSide) (level : BitVec 32) (s : State) : Host.Outcome State Fault Refusal :=
  cmdRow (mkvStatusSpec level) mb h s
def execMkvPinConfig (mb : Fin 32) (h : HostSide) (s : State) : Host.Outcome State Fault Refusal := cmdRow mkvPinConfigSpec mb h s
def execMkvTsetWrite (mb : Fin 32) (h : HostSide) (s : State) : Host.Outcome State Fault Refusal := cmdRow mkvTsetWriteSpec mb h s
def execMkvWrite (mb : Fin 32) (h : HostSide) (s : State) : Host.Outcome State Fault Refusal := cmdRow mkvWriteSpec mb h s
def execMkvRead (mb : Fin 32) (h : HostSide) (s : State) : Host.Outcome State Fault Refusal := cmdRow mkvReadSpec mb h s
def execBenchStatus (mb : Fin 32) (h : HostSide) (s : State) : Host.Outcome State Fault Refusal := cmdRow benchStatusSpec mb h s
def execBenchConfig (mb : Fin 32) (h : HostSide) (s : State) : Host.Outcome State Fault Refusal := cmdRow benchConfigSpec mb h s
def execBenchResume (mb : Fin 32) (h : HostSide) (s : State) : Host.Outcome State Fault Refusal := cmdRow benchResumeSpec mb h s
def execIndConfig (mb : Fin 32) (h : HostSide) (s : State) : Host.Outcome State Fault Refusal := cmdRow indConfigSpec mb h s
def execMarkerStrobe (belowVtl aboveVth : BitVec 32) (s : State) : Host.Outcome State Fault Refusal :=
  .next (s.on (markerStrobe belowVtl aboveVth))
def execPlugSenseTest (port : Fin 97) (code : Fin 5) (s : State) : Host.Outcome State Fault Refusal :=
  .next (s.on (plugSenseTest port.val code.val))
def execOpenLoadDetect (port : Fin 97) (s : State) : Host.Outcome State Fault Refusal := .next (s.on (openLoadDetect port.val))
def execHoldPressed (s : State) : Host.Outcome State Fault Refusal := .next (s.on holdPressed)
def execHoldReleased (s : State) : Host.Outcome State Fault Refusal := .next (s.on holdReleased)

end Sys2Proof.Machine
end

