-- ==== Sys2Proof/Machine/Calib.lean ====
section
/-! DEFINITION. Calibration (13): its commands, background slices, runs, commits and the recomputation of trims. -/

namespace Sys2Proof.Machine

/-! Commands (R388 to R395). -/

/-- The ports that satisfy `f`, counted. -/
def countPorts (x : Ctx) (f : Nat → Bool) : Nat := (slicePorts x).countP f

/-- How long the longest-due port has been due, in ms (R389). -/
def oldestDueMs (x : Ctx) (d : Dev) : Nat :=
  (slicePorts x).foldl (fun m p => if (d.due p).due then max m ((d.time.raw - (d.due p).since) / 1000000) else m) 0

/-- CAL_STATUS (R389). -/
def calStatusBytes (x : Ctx) (d0 : Dev) : List Byte :=
  let d := noteDue x d0
  let g := d.cal
  let bg := if !g.background then 0 else if slicesPaused d then 2 else 1
  le 1 (flag g.empty 0) ++ le 1 g.slot ++ le 1 bg ++ le 1 g.runState ++ le 2 g.runCause ++ le 2 (countPorts x fun p => (d.due p).due) ++
    le 4 g.gen ++ zeros 4 ++ le 8 g.slices ++ le 8 g.skips ++ le 8 (oldestDueMs x d) ++ le 8 g.commitWt ++ le 8 g.runStart ++
    le 8 g.runEnd ++ (List.range 8).flatMap (fun f => le 1 (Store.get 0 g.assigned f)) ++ le 1 g.unassigned ++
    le 1 (countPorts x fun p => (d.due p).fault) ++ zeros 6 ++ le 8 d.time.lat ++ zeros 8

def calStatusSpec : CmdSpec where
  op := 0x0800
  len := lenIs 0
  check := fun _ _ _ => none
  act := fun x c d => replyCmd c 0x0800 (calStatusBytes x d) d

/-- CAL_CONFIG (R390). -/
def calConfigSpec : CmdSpec where
  op := 0x0801
  len := lenIs 8
  check := fun _ c _ => firstFail [fFlags c 0 1, fRes c 1 3, fRange c 4 4 0 86400]
  act := fun _ c d =>
    let g : Cal := { d.cal with background := bitOf (c.arg 0 1) 0, commitS := c.arg 4 4, commitAt := d.time.raw }
    doneCmd c 0x0800 { d with cal := g }

/-- CAL_RUN (R391): the command ends when the run begins. -/
def calRunSpec : CmdSpec where
  op := 0x0802
  len := lenIs 16
  check := fun x c d => firstFail [
    fIf ((List.range 104).any fun i => bitOf (c.arg 0 13) i && !(decide (i < 97) && x.fuse.hasPort i)) 0x14 0,
    fFlags c 13 1, fRes c 14 2, fNone (running d) 0x0810, fNone d.cal.runOn 0x0811, fNone (!d.hif.lock) 0x0812]
  act := fun _ c d =>
    let ports := (List.range 97).filter (fun i => bitOf (c.arg 0 13) i)
    if ports.isEmpty then okCmd c 0x0002 0 [] true d
    else
      let g : Cal := { d.cal with
        runOn := true, runState := 1, runCause := 0, runDone := [], runFluxDc := bitOf (c.arg 13 1) 0, runStart := d.time.lat,
        assigned := [], unassigned := 0 }
      doneCmd c 0x0800 (startGroup ports { d with cal := g })

/-- CAL_ABORT (R392). -/
def calAbortSpec : CmdSpec where
  op := 0x0803
  len := lenIs 0
  check := fun _ _ _ => none
  act := fun _ c d => if d.cal.runOn then doneCmd c 0x0800 (endCalRun Cause.stopped d) else okCmd c 0x0002 0 [] true d

/-- The header of CAL_READ and CAL_WRITE (R393): VIEW up to `views`, FIRST, COUNT; one that names an index the part lacks fails with
0x0014 (R9, log entry 104). -/
def viewChecks (x : Ctx) (c : Cmd) (views : Nat) : List (Option Fail) := [
  fRange c 0 1 0 views, fRes c 1 1, fRange c 2 2 0 96, fRange c 4 2 1 97, fIf (decide (97 < c.arg 2 2 + c.arg 4 2)) 0x1B 4, fRes c 6 2,
  fIf ((List.range (c.arg 4 2)).any fun i => !x.fuse.hasPort (c.arg 2 2 + i)) 0x14 2]

/-- The in-force view of a port (R393); VALID, SOURCE and WHEN, which the manual does not give there, are free (log entry 42). -/
def inForceBytes (d : Dev) (p n : Nat) : List Byte :=
  let t := d.trim p
  let w := Config.free n
  leI 4 t.delay ++ le 4 t.phase ++ le 2 t.gain ++ leI 2 (cellTemp d p) ++ leI 4 t.dcofs ++ leI 2 t.dcgain ++
    le 1 (w % 8 + flag (d.due p).fault 3 + flag t.dflt 4) ++ le 1 (cellOf p) ++ le 8 (Config.free (n + 1)) ++ zeros 4

/-- The residual view of a port (R393). -/
def residBytes (d : Dev) (p : Nat) : List Byte :=
  let r := d.resid p
  leI 4 r.delay ++ le 4 r.phase ++ le 2 r.gain ++ zeros 22

/-- One entry of a view. -/
def viewBytes (d : Dev) (view p n : Nat) : List Byte :=
  if view = 8 then inForceBytes d p n else if view = 9 then residBytes d p else (d.facet view p).bytes

/-- CAL_READ (R393). -/
def calReadSpec : CmdSpec where
  op := 0x0804
  len := lenIs 8
  check := fun x c _ => firstFail (viewChecks x c 9)
  act := fun _ c d0 =>
    let d := settlePorts d0
    let out := (List.range (c.arg 4 2)).flatMap fun i => viewBytes d (c.arg 0 1) (c.arg 2 2 + i) (d.freeCtr + 2 * i)
    replyCmd c 0x0800 out (if c.arg 0 1 = 8 then { d with freeCtr := d.freeCtr + 2 * c.arg 4 2 } else d)

/-- A trim of an entry lies outside R364. -/
def trimOut (lo hi v : Int) : Bool := decide (v < lo) || decide (hi < v)

/-- The checks of one CAL_WRITE entry (R394, R364): an entry with VALID 0 clears, so its trims are not checked; a trim its
port type does not use is not checked either (log entry 43). -/
def entryFail (c : Cmd) (i : Nat) : Option Fail :=
  let o := 8 + 32 * i
  let p := c.arg 2 2 + i
  let valid := bitOf (c.arg (o + 18) 1) 0
  let kind := portKind p
  let gains := kind = .drive || kind = .probe || kind = .flux
  firstFail [
    fIf (valid && trimOut (-2048000) 2048000 (c.argS o 4)) 0x1B o,
    fIf (valid && gains && trimOut 16384 49152 (c.arg (o + 8) 2)) 0x1B (o + 8),
    fIf (valid && gains && trimOut (-1000000) 1000000 (c.argS (o + 12) 4)) 0x1B (o + 12),
    fIf (valid && kind = .flux && trimOut (-10000) 10000 (c.argS (o + 16) 2)) 0x1B (o + 16),
    fIf (decide (8 ≤ c.arg (o + 18) 1)) 0x13 (o + 18), fRes c (o + 19) 1, fRes c (o + 28) 4]

/-- CAL_WRITE (R394). -/
def calWriteSpec : CmdSpec where
  op := 0x0805
  len := fun c => c.length == 8 + 32 * c.arg 4 2
  check := fun x c d => match firstFail (viewChecks x c 7) with
    | some f => some f
    | none => match firstFail ((List.range (c.arg 4 2)).map (entryFail c)) with
      | some f => some f
      | none => fNone d.cal.runOn 0x0811
  act := fun x c d => stageOrApply x c d

/-- CAL_COMMIT (R395): the command ends with its commit. -/
def calCommitSpec : CmdSpec where
  op := 0x0806
  len := lenIs 0
  check := fun _ _ _ => none
  act := fun _ c d => if d.cal.changed then requestCommit (some c.seq) d else okCmd c 0x0002 0 [] true d

/-! Slices (R370 to R376). -/

/-- The priority of due ports (R371): urgent ones, then the largest movement, then the longest since the last measurement; a tie
goes by the operand of the row (log entry 44). -/
def before (d : Dev) (tie : List Nat) (p q : Nat) : Bool :=
  let a := d.due p
  let b := d.due q
  if a.urgent != b.urgent then a.urgent
  else if movement d p ≠ movement d q then decide (movement d q < movement d p)
  else if a.lastAt ≠ b.lastAt then decide (a.lastAt < b.lastAt)
  else decide (tie.idxOf p ≤ tie.idxOf q)

/-- A chosen port is left out at S (R373). -/
def leftOut (d : Dev) (p : Nat) : Bool :=
  (d.stage p).playing.any (fun t => decide (nowFine d < itemEnd d t)) ||
  (d.stage p).queue.any (fun t => decide (nowFine d < itemEnd d t)) ||
  (d.port p).held || (d.port p).off ||
  (portKind p = .acquire && (List.range 16).any fun u =>
    let q := d.unit u
    q.cfg.edge && q.cfg.aport = p - 84 && (q.st = .armed || q.st = .capturing))

/-- Connect the chosen ports (R372, R373). -/
def connectSlice (acquires : Bool) (tie : List Nat) (x : Ctx) (d0 : Dev) : Dev :=
  let d := noteDue x (settlePorts d0)
  let due := (slicePorts x).filter (fun p => (d.due p).due && (acquires || decide (p < 84)))
  let chosen := (sortBy (before d tie) due).take 4
  let out := chosen.filter (leftOut d)
  let inn := chosen.filter (fun p => !leftOut d p)
  let d1 := loopIn inn 640 d
  { d1 with cal := { d1.cal with
      slice := inn, sliceAt := none, skips := addW 64 d.cal.skips out.length, sliceRaw := if chosen.isEmpty then d.cal.sliceRaw else d.time.raw,
      slices := if inn.isEmpty then d.cal.slices else addW 64 d.cal.slices 1 } }

/-- SLICE_START: at S while a program runs, where MERIDIAN scheduled one; else whenever ports are due, at most one in
10 µs (R372, R376). -/
def sliceStart (tie : List Nat) (x : Ctx) (d : Dev) : Dev :=
  if slicesPaused d || !firmwareRuns d || !d.cal.slice.isEmpty then d
  else if running d then
    match d.cal.sliceAt with
    | none => d
    | some t => connectSlice d.cal.sliceAcq tie x (advanceTo t d)
  else connectSlice true tie x (advance (if d.cal.slices = 0 then 0 else d.cal.sliceRaw + 10000 - d.time.raw) d)

/-- The error a slice measured is within the limits of R375: ±20 ps, ±5° and ±0.5 dB, each where the port type has the trim. -/
def acceptable (m : SliceMeas) : Bool :=
  let k := portKind m.port
  decide (m.delay.natAbs ≤ 20480) &&
  (k = .flux || decide (m.phase.natAbs ≤ 59652323)) &&
  (k = .acquire || decide (30935 ≤ m.gain ∧ m.gain ≤ 34709))

/-- A quarter of an error, nearest, halves toward +∞ (R375, log entry 45). -/
def quarter (v : Int) : Int := roundHalfUp v 4

/-- An accepted measurement: a quarter of each error goes to the residuals (R375). -/
def takeError (m : SliceMeas) (d : Dev) : Dev :=
  let r := d.resid m.port
  let k := portKind m.port
  let r1 : Resid := {
    delay := r.delay + quarter m.delay
    phase := if k = .flux then r.phase else ((r.phase : Int) + quarter m.phase).emod (2 ^ 32) |>.toNat
    gain := if k = .acquire then r.gain else ((r.gain : Int) + quarter ((m.gain : Int) - 32768)).toNat }
  { d with core := { d.core with resid := Store.set {} d.core.resid m.port r1 } }

/-- The facet a slice of a port may write back to now (R375). -/
def writeBackFacet (d : Dev) (p : Nat) : Option Nat :=
  (List.range 8).find? fun f => facetBand f = d.thermal.band && decide ((cellTemp d p - facetTemp f).natAbs ≤ 8)

/-- The trims in force are written into the facet's entry, and the residual is set to zero (R375). -/
def writeBack (p : Nat) (d : Dev) : Dev :=
  match writeBackFacet d p with
  | none => d
  | some f =>
    let t := residTrim d p
    let e : Entry := { delay := t.delay, phase := t.phase, gain := t.gain, temp := cellTemp d p, dcofs := t.dcofs, dcgain := t.dcgain,
                       valid := true, source := 2, wt := wallNow d }
    let d1 := putEntry f p e d
    { d1 with core := { d1.core with resid := Store.set {} d1.core.resid p {} } }

/-- A port's measurement in a slice (R375). -/
def sliceMeasured (m : SliceMeas) (d : Dev) : Dev :=
  let q := d.due m.port
  if acceptable m then writeBack m.port (takeError m (measured m.port (d.setDue m.port { q with rejects := 0, fault := false })))
  else
    let d1 := d.setDue m.port { q with rejects := q.rejects + 1, fault := q.fault || decide (2 ≤ q.rejects) }
    if q.rejects = 2 then event 104 m.port 0 d1 else d1

/-- SLICE_END (R372, R375): 640 ticks after S; a port the operand gives no measurement of stays due. The error in DC offset, which is
measured too (R370), changes no residual: R365 takes DCOFS from the facets alone. -/
def sliceEnd (ms : List SliceMeas) (_ : Ctx) (d : Dev) : Dev :=
  if d.cal.slice.isEmpty then d
  else
    let d1 := advance (d.cal.sliceRaw + 640 - d.time.raw) d
    let found := ms.filter (fun m => d1.cal.slice.contains m.port)
    found.foldl (fun d m => sliceMeasured m d) { d1 with cal := { d1.cal with slice := [], errors := found } }

/-- TRIM_RECOMPUTE: every 1 ms while no program runs (R366). -/
def trimRecompute (x : Ctx) (d : Dev) : Dev := if running d || !firmwareRuns d then d else recomputeTrims x (paced .trims d)

/-- CAL_STARVED (R376): once, until the port has been measured. -/
def calStarved (p : Nat) (x : Ctx) (d0 : Dev) : Dev :=
  let d := noteDue x d0
  let q := d.due p
  if q.due && !q.starved then
    let d1 := advance (q.since + 60000000001 - d.time.raw) d
    event 105 p 0 (d1.setDue p { d1.due p with starved := true })
  else d

/-! Runs (R378 to R380). -/

/-- The facet a run's measurement goes to: the nearest, eligible in the band in force and within 2.0 K (R379). -/
def runFacetOf (d : Dev) (t : Int) : Option Nat :=
  (List.range 8).find? fun f => facetBand f = d.thermal.band && decide ((t - facetTemp f).natAbs ≤ 32)

/-- CAL_GROUP_END (R378, R379). -/
def calGroupEnd (ms : List RunMeas) (_ : Ctx) (d : Dev) : Dev :=
  if !d.cal.runOn || d.cal.runPorts.isEmpty then d
  else
    let d1 := advance (d.cal.runNext - d.time.raw) d
    let group := runGroup d1.cal.runPorts
    let note (m : RunMeas) : RunDone :=
      let t := meanTemp d1 m.port
      { meas := m, temp := t, facet := runFacetOf d1 t, wt := wallNow d1, raw := d1.time.raw }
    let left := d1.cal.runPorts.filter (fun p => !group.contains p)
    startGroup left { d1 with cal := { d1.cal with runDone := d1.cal.runDone ++ (ms.filter (fun m => group.contains m.port)).map note } }

/-- A port's due state after a run has measured it at raw tick `r.raw`: what has made it due since then stands (R371), and may starve again
(R376). -/
def dueAfterRun (r : RunDone) (q : Due) : Due :=
  let since := q.markedAt.filter (fun t => decide (r.raw ≤ t))
  { q with due := since.isSome, urgent := since.isSome && q.urgent, starved := false, since := since.getD q.since,
           lastTemp := r.temp, lastAt := r.raw }

/-- One measurement of a completed run becomes its facet's entry, or the port's residual (R379). -/
def applyRunMeas (fluxDc : Bool) (r : RunDone) (d : Dev) : Dev :=
  let m := r.meas
  let p := m.port
  let d1 := d.setDue p (dueAfterRun r (d.due p))
  match r.facet with
  | some f =>
    let old := d1.facet f p
    let keep := portKind p = .flux && !fluxDc
    let t := usedTrim p { delay := m.delay, phase := m.phase % 2 ^ 32, gain := m.gain,
                          dcofs := if keep then old.dcofs else m.dcofs, dcgain := if keep then old.dcgain else m.dcgain }
    let e : Entry := { delay := t.delay, phase := t.phase, gain := t.gain, temp := r.temp, dcofs := t.dcofs, dcgain := t.dcgain,
                       valid := true, source := 1, wt := r.wt }
    let d2 := putEntry f p e d1
    { d2 with core := { d2.core with resid := Store.set {} d2.core.resid p {} } }
  | none =>
    let t := facetTrim d1 p r.temp
    let u := usedTrim p t
    let q : Resid := {
      delay := m.delay - t.delay
      phase := if portKind p = .flux ∨ p = 96 then 0 else (arc t.phase m.phase % 2 ^ 32).toNat
      gain := if u.gain = 0 then 32768 else (roundHalfUp ((m.gain * 32768 : Nat) : Int) t.gain).toNat }
    { d1 with core := { d1.core with resid := Store.set {} d1.core.resid p q } }

/-- CAL_RUN_END: every selected group has been measured; entries and residuals apply at once, and a commit follows (R379, R380). -/
def calRunEnd (_ : Ctx) (d : Dev) : Dev :=
  if !d.cal.runOn || !d.cal.runPorts.isEmpty then d
  else
    let done := d.cal.runDone
    let d1 := done.foldl (fun d m => applyRunMeas d.cal.runFluxDc m d) d
    let counts : Store Nat := done.foldl (fun s m => match m.facet with | some f => Store.set 0 s f (Store.get 0 s f + 1) | none => s) []
    let g : Cal := { d1.cal with runOn := false, runState := 2, runCause := 0, runDone := [], runEnd := d1.time.lat, assigned := counts,
                                 unassigned := (done.filter (fun m => m.facet.isNone)).length }
    requestCommit none (eventCause 106 0xFFFF 0 0 { d1 with cal := g })

/-- CAL_TIMED_COMMIT (R382): COMMIT_S seconds after the last one, or after CAL_CONFIG or ready; without a changed entry nothing is
written (log entry 113). -/
def calTimedCommit (_ : Ctx) (d : Dev) : Dev :=
  if d.cal.commitS = 0 || !firmwareRuns d then d
  else
    let d1 := advance (d.cal.commitAt + 1000000000 * d.cal.commitS - d.time.raw) d
    let d2 := { d1 with cal := { d1.cal with commitAt := d1.time.raw } }
    if d2.cal.changed then requestCommit none d2 else d2

/-- COMMIT_END (R382). -/
def commitEnd (ok : Bool) (x : Ctx) (d : Dev) : Dev := endCommit ok x d

/-! The rows. -/
def execCalStatus (mb : Fin 32) (h : HostSide) (s : State) : Host.Outcome State Fault Refusal := cmdRow calStatusSpec mb h s
def execCalConfig (mb : Fin 32) (h : HostSide) (s : State) : Host.Outcome State Fault Refusal := cmdRow calConfigSpec mb h s
def execCalRun (mb : Fin 32) (h : HostSide) (s : State) : Host.Outcome State Fault Refusal := cmdRow calRunSpec mb h s
def execCalAbort (mb : Fin 32) (h : HostSide) (s : State) : Host.Outcome State Fault Refusal := cmdRow calAbortSpec mb h s
def execCalRead (mb : Fin 32) (h : HostSide) (s : State) : Host.Outcome State Fault Refusal := cmdRow calReadSpec mb h s
def execCalWrite (mb : Fin 32) (h : HostSide) (s : State) : Host.Outcome State Fault Refusal := cmdRow calWriteSpec mb h s
def execCalCommit (mb : Fin 32) (h : HostSide) (s : State) : Host.Outcome State Fault Refusal := cmdRow calCommitSpec mb h s
def execSliceStart (ports : List Nat) (s : State) : Host.Outcome State Fault Refusal := .next (s.on (sliceStart ports))
def execSliceEnd (ms : List SliceMeas) (s : State) : Host.Outcome State Fault Refusal := .next (s.on (sliceEnd ms))
def execTrimRecompute (s : State) : Host.Outcome State Fault Refusal := .next (s.on trimRecompute)
def execCalGroupEnd (ms : List RunMeas) (s : State) : Host.Outcome State Fault Refusal := .next (s.on (calGroupEnd ms))
def execCalRunEnd (s : State) : Host.Outcome State Fault Refusal := .next (s.on calRunEnd)
def execCalStarved (port : Fin 97) (s : State) : Host.Outcome State Fault Refusal := .next (s.on (calStarved port.val))
def execCalTimedCommit (s : State) : Host.Outcome State Fault Refusal := .next (s.on calTimedCommit)
def execCommitEnd (readBackOk : Bool) (s : State) : Host.Outcome State Fault Refusal := .next (s.on (commitEnd readBackOk))

end Sys2Proof.Machine
end

