-- ==== Sys2Proof/Machine/Ports.lean ====
section
/-! DEFINITION. Drive, flux, probe and acquire port commands (R180 to R188, R266 to R270), the end of a DC ramp and of an
envelope copy. -/

namespace Sys2Proof.Machine

/-- The port of a command has the type it needs, else 0x0314 (R180). -/
def wrongType (c : Cmd) (ok : PortKind → Bool) : Option Fail := fIf (!ok (portKind (c.arg 0 1))) 0x0314 0

/-- A port with an output: drive, flux or probe. -/
def PortKind.output : PortKind → Bool
  | .drive => true
  | .flux => true
  | .probe => true
  | .acquire => false
  | .marker => false
  | .none => false

/-- The frame entries of a drive port (R181). -/
def frameEntries (d : Dev) (i : Nat) : List Byte :=
  (List.range 4).flatMap fun k =>
    let f := d.frame (driveFrame i k)
    le 8 f.ftw ++ le 4 f.z ++ le 4 (flag (isStale d f.epoch) 0)

/-- The lattice time at which a port's ramp ends; 0 with none running (R181). -/
def rampEnd (d : Dev) (p : Port) : Nat :=
  match p.ramp with
  | none => 0
  | some r => addW 64 d.time.lat (r.ns - (d.time.raw + 2 ^ 64 - r.raw) % 2 ^ 64)

/-- The flux layout of PORT_STATE (R181). -/
def fluxState (d : Dev) (p : Port) : List Byte :=
  leI 4 (dcNow d p) ++ leI 4 p.target ++ le 8 (rampEnd d p) ++ leI 4 p.cfg.safeDc ++
    le 4 (flag p.cfg.safeMode 0 + flag p.cfg.pulseRange 1) ++ zeros 40

/-- The result of PRT_STATUS (R181). -/
def prtStatusBytes (x : Ctx) (d : Dev) (i : Nat) : List Byte :=
  let p := d.port i
  le 1 i ++ le 1 (portCond p) ++ le 1 (flag p.cfg.enable 0) ++ le 1 (pagesOf x.fuse d i).length ++ zeros 4 ++
    le 8 p.released ++ le 8 p.clipped ++ le 8 p.underrun ++ le 8 d.time.lat ++
    (match portKind i with | .drive => frameEntries d i | .flux => fluxState d p | _ => zeros 64)

/-- PRT_STATUS (R181), of the port brought up to now. -/
def prtStatusSpec : CmdSpec where
  op := 0x0300
  len := lenIs 4
  check := fun x c _ => firstFail [fPort x c 0, fFlags c 1 1, fRes c 2 2, wrongType c PortKind.output]
  act := fun x c d0 =>
    let i := c.arg 0 1
    let clear := bitOf (c.arg 1 1) 0
    let d := settleOutput i d0
    okCmd c 0x0300 0 (prtStatusBytes x d i) (!clear)
      (if clear then d.setPort i { d.port i with released := 0, clipped := 0, underrun := 0 } else d)

/-- The checks of PRT_DRIVE_CONFIG and PRT_PROBE_CONFIG (R182, R267). -/
def driveChecks (k : PortKind) (x : Ctx) (c : Cmd) (_ : Dev) : Option Fail :=
  firstFail [fPort x c 0, fFlags c 1 1, fRange c 2 2 0 192, fRes c 4 4, wrongType c (· == k)]

/-- PRT_DRIVE_CONFIG (R182). -/
def prtDriveConfigSpec : CmdSpec where
  op := 0x0301
  len := lenIs 8
  check := driveChecks .drive
  act := fun x c d => stageOrApply x c d

/-- PRT_PROBE_CONFIG (R267). -/
def prtProbeConfigSpec : CmdSpec where
  op := 0x0380
  len := lenIs 8
  check := driveChecks .probe
  act := fun x c d => stageOrApply x c d

/-- The checks of PRT_FRAME_SET and PRT_PROBE_TONE (R183, R268). -/
def frameChecks (k : PortKind) (top : Nat) (x : Ctx) (c : Cmd) (_ : Dev) : Option Fail :=
  firstFail [fPort x c 0, fRange c 1 1 0 top, fFlags c 2 2, fRes c 3 1, fRange c 8 8 0 (2 ^ 47 - 1), wrongType c (· == k)]

/-- Stage or apply a frame change; one that sets nothing completes with 0x0002 (R183). -/
def frameAct (x : Ctx) (c : Cmd) (d : Dev) : Dev := if c.arg 2 1 = 0 then okCmd c 0x0002 0 [] true d else stageOrApply x c d

/-- PRT_FRAME_SET (R183). -/
def prtFrameSetSpec : CmdSpec where
  op := 0x0302
  len := lenIs 16
  check := frameChecks .drive 3
  act := frameAct

/-- PRT_PROBE_TONE (R268). -/
def prtProbeToneSpec : CmdSpec where
  op := 0x0381
  len := lenIs 16
  check := frameChecks .probe 15
  act := frameAct

/-- The checks of the 16-byte header of R184. -/
def envChecks (x : Ctx) (c : Cmd) (d : Dev) : Option Fail :=
  firstFail [fPort x c 0, fRes c 1 3, fRange c 8 4 1 65536, fRes c 12 4, wrongType c PortKind.output,
    fIf (decide (envWords x.fuse d (c.arg 0 1) < c.arg 4 4 + c.arg 8 4)) 0x0311 4]

/-- PRT_ENV_WRITE (R184). -/
def prtEnvWriteSpec : CmdSpec where
  op := 0x0303
  len := fun c => c.length == 16 + 4 * c.arg 8 4
  check := envChecks
  act := fun x c d => stageOrApply x c d

/-- PRT_ENV_READ (R185). -/
def prtEnvReadSpec : CmdSpec where
  op := 0x0304
  len := lenIs 16
  check := envChecks
  act := fun x c d =>
    replyCmd c 0x0300 ((List.range (c.arg 8 4)).flatMap fun i =>
      le 4 (Store.get 0 d.env (envAddr x.fuse d (c.arg 0 1) (c.arg 4 4 + i))).toNat) d

/-- The first entry at which a page count is above 16 or the running total above 896 (R186). -/
def pageFail (c : Cmd) : Option Nat :=
  (List.range 84).find? fun i => decide (16 < c.arg i 1) || decide (896 < ((List.range (i + 1)).map (fun j => c.arg j 1)).sum)

/-- PRT_STORE_ASSIGN (R186). -/
def prtStoreAssignSpec : CmdSpec where
  op := 0x0305
  len := lenIs 84
  check := fun x c d => firstFail (
    (List.range 84).map (fun i => fIf (c.arg i 1 ≠ 0 && !x.fuse.hasPort i) 0x14 i) ++
    [fNone (running d) 0x0310, (pageFail c).map (atPayload 0x0312)])
  act := fun x c d => doneCmd c 0x0300 (assignPages x c d)

/-- |DC| plus the pulse range is above 1.25 V: 655,360 codes, with a range of 131,072 or 262,144 (R175). -/
def fluxTooHigh (dc : Int) (wide : Bool) : Bool := decide (655360 < dc.natAbs + (if wide then 262144 else 131072))

/-- PRT_FLUX_CONFIG (R187). -/
def prtFluxConfigSpec : CmdSpec where
  op := 0x0306
  len := lenIs 8
  check := fun x c d =>
    let wide := bitOf (c.arg 1 1) 2
    firstFail [fPort x c 0, fFlags c 1 3, fRes c 2 2, fRangeS c 4 4 (-524288) 524287, wrongType c (· == .flux),
      fIf (fluxTooHigh ((projected x d).port (c.arg 0 1)).target wide || fluxTooHigh (dcCode (c.arg 4 4)) wide) 0x0313 1]
  act := fun x c d => stageOrApply x c d

/-- PRT_FLUX_DC (R188). -/
def prtFluxDcSpec : CmdSpec where
  op := 0x0307
  len := lenIs 12
  check := fun x c d => firstFail [fPort x c 0, fRes c 1 3, fRangeS c 4 4 (-524288) 524287, fRange c 8 4 0 1000000000,
    wrongType c (· == .flux),
    fIf (fluxTooHigh (dcCode (c.arg 4 4)) ((projected x d).port (c.arg 0 1)).cfg.pulseRange) 0x0313 4]
  act := fun x c d => stageOrApply x c d

/-- The DC level reaches its target: the ramp's command ends with 0x0300 (R176, R188). -/
def fluxRampEnd (i : Nat) (_ : Ctx) (d : Dev) : Dev :=
  match (d.port i).ramp with
  | none => d
  | some r =>
    let d1 := advance (r.ns - (d.time.raw + 2 ^ 64 - r.raw) % 2 ^ 64) d
    journal r.seq (fun d => let p := d.port i
      endSeq (some r.seq) (fun c d => doneCmd c 0x0300 d) (d.setPort i { p with dc := p.target, ramp := none })) d1

/-- PRT_ACQ_CONFIG (R269). -/
def prtAcqConfigSpec : CmdSpec where
  op := 0x0382
  len := lenIs 4
  check := fun x c _ => firstFail [fPort x c 0, fFlags c 1 2, fRes c 2 2, wrongType c (· == .acquire)]
  act := fun x c d => stageOrApply x c d

/-- The channels of an acquire port index. -/
def channelsOf (i : Nat) : List Nat := (List.range 16).map (16 * (i - 84) + ·)

/-- The result of PRT_ACQ_STATUS (R270). -/
def acqStatusBytes (d : Dev) (i : Nat) : List Byte :=
  let p := d.port i
  le 1 i ++ le 1 (if p.off then 0 else if p.cfg.enable then 1 else 2) ++ le 1 (flag p.cfg.range 0) ++ zeros 5 ++
    le 8 p.windows ++ le 8 p.discarded ++ le 8 p.overRange ++ le 8 d.time.lat ++
    (channelsOf i).flatMap (fun ch => le 4 (d.chan ch).saturated)

/-- PRT_ACQ_STATUS (R270); `a` are the samples counted by now (log entry 100). -/
def prtAcqStatusSpec (a : AdcSide) : CmdSpec where
  op := 0x0383
  len := lenIs 4
  check := fun x c _ => firstFail [fPort x c 0, fFlags c 1 1, fRes c 2 2, wrongType c (· == .acquire)]
  act := fun _ c d0 =>
    let i := c.arg 0 1
    let clear := bitOf (c.arg 1 1) 0
    let d := countAdc a d0
    let wiped := (d.setPort i { d.port i with windows := 0, discarded := 0, overRange := 0 }).forAll (channelsOf i)
      (fun ch d => d.setChan ch { d.chan ch with saturated := 0 })
    okCmd c 0x0300 0 (acqStatusBytes d i) (!clear) (if clear then wiped else d)

/-- The copy at the head of the envelope copy path ends, at 32 B/ns from its beginning, and its command with it; the next copy begins
then (R166). Shots that the write does not govern go on reading what stood before it (R165). -/
def envCopyEnd (x : Ctx) (d : Dev) : Dev :=
  match d.envCopies with
  | [] => d
  | e :: rest =>
    match e.start8 with
    | none => d
    | some a =>
      let end8 := a + e.data.length
      let d1 := advance ((end8 + 7) / 8 - d.time.raw) d
      let old := match e.last with | none => d1.envPrev | some k => retire k d1.env d1.envPrev
      startCopy end8 (journal e.seq (fun d => endSeq (some e.seq) (fun c d => doneCmd c 0x0300 d)
        { writeEnv x e.port e.addr e.data d with envCopies := rest, envPrev := old }) d1)

/-! The rows. -/
def execPrtStatus (mb : Fin 32) (h : HostSide) (s : State) : Host.Outcome State Fault Refusal := cmdRow prtStatusSpec mb h s
def execPrtDriveConfig (mb : Fin 32) (h : HostSide) (s : State) : Host.Outcome State Fault Refusal := cmdRow prtDriveConfigSpec mb h s
def execPrtFrameSet (mb : Fin 32) (h : HostSide) (s : State) : Host.Outcome State Fault Refusal := cmdRow prtFrameSetSpec mb h s
def execPrtEnvWrite (mb : Fin 32) (h : HostSide) (s : State) : Host.Outcome State Fault Refusal := cmdRow prtEnvWriteSpec mb h s
def execPrtEnvRead (mb : Fin 32) (h : HostSide) (s : State) : Host.Outcome State Fault Refusal := cmdRow prtEnvReadSpec mb h s
def execPrtStoreAssign (mb : Fin 32) (h : HostSide) (s : State) : Host.Outcome State Fault Refusal := cmdRow prtStoreAssignSpec mb h s
def execPrtFluxConfig (mb : Fin 32) (h : HostSide) (s : State) : Host.Outcome State Fault Refusal := cmdRow prtFluxConfigSpec mb h s
def execPrtFluxDc (mb : Fin 32) (h : HostSide) (s : State) : Host.Outcome State Fault Refusal := cmdRow prtFluxDcSpec mb h s
def execFluxRampEnd (port : Fin 97) (s : State) : Host.Outcome State Fault Refusal := .next (s.on (fluxRampEnd port))
def execPrtProbeConfig (mb : Fin 32) (h : HostSide) (s : State) : Host.Outcome State Fault Refusal := cmdRow prtProbeConfigSpec mb h s
def execPrtProbeTone (mb : Fin 32) (h : HostSide) (s : State) : Host.Outcome State Fault Refusal := cmdRow prtProbeToneSpec mb h s
def execPrtAcqConfig (mb : Fin 32) (h : HostSide) (s : State) : Host.Outcome State Fault Refusal := cmdRow prtAcqConfigSpec mb h s
def execPrtAcqStatus (mb : Fin 32) (h : HostSide) (s : State) (a : AdcSide := {}) : Host.Outcome State Fault Refusal :=
  cmdRow (prtAcqStatusSpec a) mb h s
def execEnvCopyEnd (s : State) : Host.Outcome State Fault Refusal := .next (s.on envCopyEnd)

end Sys2Proof.Machine
end

