-- ==== Sys2Proof/Machine/ChordCmds.lean ====
section
/-! DEFINITION. Chord commands (R328 to R332): decision tables, export masks, chord status. -/

namespace Sys2Proof.Machine

/-- The generic checks of one selector (R316, R329). -/
def selectorFail (x : Ctx) (c : Cmd) (d : Dev) (i : Nat) : Option Fail :=
  let off := 32 + 4 * i
  let s := c.arg off 4
  if selEn s then
    if bits s 30 16 ≠ 0 then some (atPayload 0x13 off)
    else if 11 < bits s 7 4 then some (atPayload 0x1B off)
    else if selDev s = d.domain.dev ∧ x.fuse.acquires ≤ bits s 7 4 then some (atPayload 0x14 off)
    else none
  else if s ≠ 0 then some (atPayload 0x13 off) else none

/-- CH_TABLE_WRITE (R329). -/
def chTableWriteSpec : CmdSpec where
  op := 0x05C0
  len := fun c => c.bulk && c.length == 1088
  check := fun x c d => firstFail (
    [fRange c 0 1 0 63, fRes c 1 7, fRange c 8 8 1 (2 ^ 34), fRes c 20 12] ++ (List.range 8).map (selectorFail x c d) ++
    [fIf (decide ((projected x d).lattice.period < c.arg 8 8)) 0x0520 8])
  act := fun x c d => stageOrApply x c d

/-- CH_TABLE_READ (R330). -/
def chTableReadSpec : CmdSpec where
  op := 0x05C1
  len := lenIs 4
  check := fun _ c _ => firstFail [fRange c 0 1 0 63, fRes c 1 3]
  act := fun _ c d =>
    let t := Store.get {} d.core.tables (c.arg 0 1)
    replyCmd c 0x0500 (le 1 (c.arg 0 1) ++ zeros 7 ++ le 8 t.deadline ++ le 4 t.fallback ++ zeros 12 ++
      (selectors t).flatMap (le 4) ++ (List.range 256).flatMap (fun i => le 4 (Store.get 0 t.entries i).toNat)) d

/-- CH_EXPORT (R331). -/
def chExportSpec : CmdSpec where
  op := 0x05C2
  len := lenIs 56
  check := fun x c _ =>
    let top := 2 ^ (16 * x.fuse.acquires)
    firstFail [fRange c 0 1 0 3, fRes c 1 7, fIf (decide (top ≤ c.arg 8 24)) 0x14 8, fIf (decide (top ≤ c.arg 32 24)) 0x14 32]
  act := fun x c d => stageOrApply x c d

/-- CH_STATUS (R332). -/
def chStatusSpec : CmdSpec where
  op := 0x05C3
  len := lenIs 4
  check := fun _ c _ => firstFail [fFlags c 0 1, fRes c 1 3]
  act := fun _ c d =>
    let n := d.chords
    let clear := bitOf (c.arg 0 1) 0
    let out := le 1 d.domain.dev ++ zeros 7 ++ le 8 n.fastSent ++ le 8 n.slowSent ++ le 8 n.missingSent ++ le 8 n.remoteRecv ++
      le 8 n.decisions ++ le 8 n.fbMissing ++ le 8 n.fbLate ++ le 8 n.slotDefer ++ le 8 d.time.lat ++ zeros 8
    okCmd c 0x0500 0 out (!clear) (if clear then { d with chords := { store := n.store } } else d)

/-! The rows. -/
def execChTableWrite (mb : Fin 32) (h : HostSide) (s : State) : Host.Outcome State Fault Refusal := cmdRow chTableWriteSpec mb h s
def execChTableRead (mb : Fin 32) (h : HostSide) (s : State) : Host.Outcome State Fault Refusal := cmdRow chTableReadSpec mb h s
def execChExport (mb : Fin 32) (h : HostSide) (s : State) : Host.Outcome State Fault Refusal := cmdRow chExportSpec mb h s
def execChStatus (mb : Fin 32) (h : HostSide) (s : State) : Host.Outcome State Fault Refusal := cmdRow chStatusSpec mb h s

end Sys2Proof.Machine
end

