-- ==== Sys2Proof/Machine/Ledger.lean ====
section
/-! DEFINITION. The ledgers (R525) and their check (R526), which firmware makes every 1 ms and a D part at every epoch close too. -/

namespace Sys2Proof.Machine

/-- IN_USE: slots posted and not completed (R46). -/
def inUse (b : Mailbox) : Nat := b.busy.length

/-- Shots opened and not decided (R530). -/
def inFlight (d : Dev) : Nat := d.core.shots.length

/-- The rows of R525 whose interval is open on an instance. -/
def rowOpen (d : Dev) (row inst : Nat) : Bool :=
  match row with
  | 1 => d.bells.any (fun b => b.1 = inst) || !d.ledger.flrs.isEmpty
  | 4 => (d.link inst).retrainAt.isSome
  | 5 => d.mirror.sw.isSome
  | _ => false

/-- The instances of a row. -/
def rowInstances : Nat → List Nat
  | 1 => List.range 32
  | 2 => List.range 8
  | 3 => List.range 16
  | 4 => List.range 4
  | _ => [0xFFFF]

/-- The identity of a row of R525 holds on an instance; an entry that waits for the write path has been offered and is neither written
nor dropped yet. -/
def rowHolds (d : Dev) (row inst : Nat) : Bool :=
  match row with
  | 1 => let b := d.mb inst; inUse b = (b.posted - b.done).toNat
  | 2 => let r := d.ring inst; r.owns = r.tail - r.head && r.head.toNat = (r.done.toNat + r.fail.toNat) % 2 ^ 32
  | 3 => let r := d.acqRing inst
    !r.enabled || (decide (r.unread ≤ r.geo.length) && r.offered = (r.written + r.dropped + r.offers.length) % 2 ^ 64)
  | 4 => let k := d.link inst; k.stage ≠ 5 || k.credits + k.outstanding = 32
  | _ => d.core.run.issued = d.core.run.completed + d.core.run.failed + inFlight d && decide (inFlight d ≤ 2)

/-- Identities out of balance now with their interval not open. -/
def unbalanced (d : Dev) : List (Nat × Nat) :=
  [1, 2, 3, 4, 5].flatMap fun row =>
    ((rowInstances row).filter (fun i => !rowHolds d row i && !rowOpen d row i)).map (fun i => (row, i))

/-- A check of every identity (R526): one that a check found out of balance 1 ms ago or more, and every check since, raises
ledger-fault (log entry 119). -/
def checkLedgers (d : Dev) : Dev :=
  let now := unbalanced d
  let since (q : Nat × Nat) : Nat := ((d.ledger.suspects.find? (fun s => s.1 = q)).map (·.2)).getD d.time.raw
  let faults := now.filter (fun q => decide (since q + 1000000 ≤ d.time.raw))
  let suspects := now.map fun q => (q, if faults.contains q then d.time.raw else since q)
  let d1 := { d with ledger := { d.ledger with suspects := suspects, faults := addW 32 d.ledger.faults faults.length } }
  faults.foldl (fun d q => event 52 q.2 q.1 d) d1

end Sys2Proof.Machine
end

