-- ==== Sys2Proof/Machine/HostOps.lean ====
section
/-! DEFINITION. The host interface's shared operations: BAR0 as the host reads it (R15, R39 to R57), the rings' descriptors
(R47 to R51), and a Function Level Reset (R38). -/

namespace Sys2Proof.Machine

/-- Memories with the writes of this row already made. -/
def hostNow (x : Ctx) (d : Dev) : Mem := d.wr.foldl hostAfter x.host
def ddrNow (x : Ctx) (d : Dev) : Mem := d.wr.foldl ddrAfter x.ddr

/-- Register offsets of a mailbox and of a DMA ring (R46, R48). -/
def mbOff (m r : Nat) : Nat := 0x800 + 0x40 * m + r
def dmaOff (n r : Nat) : Nat := 0x400 + 0x40 * n + r

/-! Reads of BAR0 (R15, R39 to R57). -/

/-- The 64-bit value of the RL register whose low half stands at `off` (R17, R45, R46, R48, R56). -/
def rlValue (d : Dev) (off : Nat) : Option Nat :=
  if off = 0x200 then some d.time.lat
  else if off = 0x208 then some d.time.merid
  else if off = 0x210 then some (wallNow d)
  else if off = 0x1058 then some d.evt.lost.toNat
  else if 0x800 ≤ off ∧ off < 0x1000 then
    let b := d.mb ((off - 0x800) / 0x40)
    match off % 0x40 with
    | 0x20 => some b.posted.toNat
    | 0x28 => some b.done.toNat
    | _ => none
  else if 0x400 ≤ off ∧ off < 0x600 then
    let r := d.ring ((off - 0x400) / 0x40)
    match off % 0x40 with
    | 0x20 => some r.done.toNat
    | 0x28 => some r.fail.toNat
    | _ => none
  else none

def dmaStateCode : DmaState → Nat
  | .stopped => 0 | .running => 1 | .stopping => 2 | .configError => 3

/-- Half `hi` of a 64-bit value. -/
def half (v : Nat) (hi : Bool) : Nat := if hi then v / 2 ^ 32 % 2 ^ 32 else v % 2 ^ 32

/-- A mailbox register (R46). -/
def mbWord (d : Dev) (m r : Nat) : Nat :=
  let b := d.mb m
  match r with
  | 0x04 => inUse b
  | 0x08 => (Store.get 0 d.hif.lowHalf (mbOff m 8)).toNat
  | 0x0C => half b.base.toNat true
  | 0x10 => b.log2.toNat
  | 0x14 => b.head.toNat
  | 0x18 => b.tail.toNat
  | 0x1C => flag b.enable 0
  | _ => 0

/-- A DMA ring register (R48). -/
def dmaWord (d : Dev) (n r : Nat) : Nat :=
  let b := d.ring n
  match r with
  | 0x00 => (Store.get 0 d.hif.lowHalf (dmaOff n 0)).toNat
  | 0x04 => half b.base.toNat true
  | 0x08 => b.log2.toNat
  | 0x0C => b.tail.toNat
  | 0x10 => b.head.toNat
  | 0x18 => dmaStateCode b.stat
  | _ => 0

/-- An event register (R56). -/
def evtWord (d : Dev) (off : Nat) : Nat :=
  let e := d.evt
  if off < 0x1020 then e.pend.toNat / 2 ^ (8 * (off - 0x1000)) % 2 ^ 32
  else if off < 0x1040 then e.en.toNat / 2 ^ (8 * (off - 0x1020)) % 2 ^ 32
  else match off with
    | 0x1040 => (Store.get 0 d.hif.lowHalf 0x1040).toNat
    | 0x1044 => half e.base.toNat true
    | 0x1048 => e.log2.toNat
    | 0x104C => e.head.toNat
    | 0x1050 => e.tail.toNat
    | 0x1054 => flag e.enable 0
    | _ => 0

/-- An identity, state, link, window or error register (R43, R44). -/
def hifWord (x : Ctx) (d : Dev) (off : Nat) : Nat :=
  let h := d.hif
  match off with
  | 0x00 => 0x54485659
  | 0x04 => Config.step
  | 0x08 => 2 ^ 24 * h.fwMajor + 2 ^ 16 * h.fwMinor + h.fwBuild
  | 0x0C => 2 ^ 8 * h.ilLow + h.ilHigh
  | 0x10 => flag x.fuse.oven 9 + flag x.fuse.duplex 8 + x.fuse.portsCode
  | 0x18 => half x.fuse.serial.toNat false
  | 0x1C => half x.fuse.serial.toNat true
  | 0x20 => hifStateWord h
  | 0x24 => h.scratch.toNat
  | 0x100 => hifLinkWord h
  | 0x104 => h.bar2Win.toNat
  | 0x108 => 2 ^ 16 * h.ddrResv.toNat + h.ddrGib.toNat
  | 0x10C => h.err.toNat
  | 0x110 => half h.errAddr.toNat false
  | 0x114 => half h.errAddr.toNat true
  | _ => 0

/-- An MSI-X table word (R39). -/
def msixWord (d : Dev) (v lane : Nat) : Nat :=
  let e := Store.get ({} : Msix) d.evt.msix v
  match lane with
  | 0 => half e.addr.toNat false
  | 1 => half e.addr.toNat true
  | 2 => e.data.toNat
  | _ => flag e.mask 0

/-- What a 4-byte read of BAR0 returns (R15, R39): the low half of an RL register its current value, the high half that register's
shadow; a write-only field and an offset not listed 0. -/
def bar0Word (x : Ctx) (d : Dev) (off : Nat) : Nat :=
  match rlValue d off with
  | some v => half v false
  | none =>
    if 4 ≤ off ∧ (rlValue d (off - 4)).isSome then (Store.get 0 d.hif.rlShadow (off - 4)).toNat
    else if off < 0x200 then hifWord x d off
    else if 0x400 ≤ off ∧ off < 0x600 then dmaWord d ((off - 0x400) / 0x40) (off % 0x40)
    else if 0x800 ≤ off ∧ off < 0x1000 then mbWord d ((off - 0x800) / 0x40) (off % 0x40)
    else if 0x1000 ≤ off ∧ off < 0x1100 then evtWord d off
    else if 0x10000 ≤ off ∧ off < 0x20000 then
      fromLe ((List.range 4).map fun i => Store.get 0 d.slots (off - 0x10000 + i))
    else if 0x20000 ≤ off ∧ off < 0x21000 then msixWord d ((off - 0x20000) / 16) (off / 4 % 4)
    else if 0x21000 ≤ off ∧ off < 0x21020 then d.evt.pba.toNat / 2 ^ (8 * (off - 0x21000)) % 2 ^ 32
    else 0

/-! DMA descriptors (R47, R49 to R51). -/

/-- Device-owned descriptors: TAIL − HEAD (R49). -/
def owned (r : DmaRing) : Nat := (r.tail - r.head).toNat

/-- Host address of the descriptor at HEAD. -/
def descAddr (r : DmaRing) : Nat := r.base.toNat + 32 * (r.head.toNat % 2 ^ r.log2.toNat)

/-- A reserved field is not 0, or an address or length is no multiple of 4 (R50, status 0x15). -/
def descBad (b : List Byte) : Bool :=
  fld b 0 8 % 4 ≠ 0 || fld b 8 8 % 4 ≠ 0 || fld b 16 4 % 4 ≠ 0 || decide (4 ≤ fld b 22 1) || fld b 28 4 ≠ 0

/-- The status and DONE_LEN a descriptor ends with if nothing stops it (R50): the checks that move nothing, then the fault the
transfer meets first. `toHost` holds for rings 4 to 7. R50 gives its statuses no order; 0x15, 0x01, 0x12, 0x14 is DESIGN CHOICE, log
entry 92. -/
def descOutcome (toHost : Bool) (d : Dev) (b : List Byte) : Nat × Nat :=
  let n := fld b 16 4
  let host := fld b 0 8
  let dev := fld b 8 8
  if descBad b then (0x15, 0)
  else if n = 0 then (0x01, 0)
  else if ddrFitted d < dev + n then (0x12, 0)
  else if ddrReserved d < dev + n then (0x14, 0)
  else
    let h := (hostFault d host n).getD n
    let e := if toHost then (eccFault d dev n).getD n else n
    if e < n ∧ e ≤ h then (0x13, e) else if h < n then (0x11, h) else (0x00, n)

/-- Where STOP cuts a descriptor that has moved `moved` bytes: the next 4 KiB boundary of its device address (R51). DESIGN CHOICE (log entry
139): one that stands exactly on a boundary stops there. -/
def stopLen (b : List Byte) (moved : Nat) : Nat :=
  let dev := fld b 8 8
  (dev + moved + 4095) / 4096 * 4096 - dev

/-- Move the first `n` bytes of a descriptor (R49). The target's bytes beyond them keep what they held (R50 leaves them open): DESIGN
CHOICE, log entry 93. -/
def moveBytes (toHost : Bool) (x : Ctx) (b : List Byte) (n : Nat) (d : Dev) : Dev :=
  if n = 0 then d
  else if toHost then hostWrite (fld b 0 8) (Mem.read (ddrNow x d) (fld b 8 8) n) d
  else ddrWrite (fld b 8 8) (Mem.read (hostNow x d) (fld b 0 8) n) d

/-- End the descriptor at HEAD of ring `n` (R49 steps 3 and 4): bytes 20 to 27 in one write, then HEAD and the counter in one
update, then the ring's source where IRQ is 1. -/
def endDesc (n : Nat) (b : List Byte) (status len : Nat) (d : Dev) : Dev :=
  let r := d.ring n
  let flags := fld b 22 1
  let d1 := hostWrite (descAddr r + 20) (le 2 (fld b 20 2) ++ le 1 (flags - flags % 2) ++ le 1 status ++ le 4 len) d
  let ok := status < 0x10
  let d2 := d1.setRing n { r with head := r.head + 1, owns := r.owns - 1, done := if ok then r.done + 1 else r.done, fail := if ok then r.fail else r.fail + 1 }
  if bitOf flags 1 then raiseQuiet (32 + n) d2 else d2

/-- The descriptor at HEAD. DESIGN CHOICE (log entry 140): an error of the host's memory on the fetch of a descriptor, or on its write-back,
is not seen; R50 speaks of the data it moves. -/
def headDesc (n : Nat) (x : Ctx) (d : Dev) : List Byte := Mem.read (hostNow x d) (descAddr (d.ring n)) 32

/-- The descriptor at HEAD runs to its end; an uncorrectable line it meets raises DDR5-uncorrectable (R50). -/
def runDesc (n : Nat) (x : Ctx) (d : Dev) : Dev :=
  let b := headDesc n x d
  let o := descOutcome (decide (4 ≤ n)) d b
  let d1 := endDesc n b o.1 o.2 (moveBytes (decide (4 ≤ n)) x b o.2 d)
  if o.1 = 0x13 then ddrError ((fld b 8 8 + o.2) / 64) d1 else d1

/-- STOP ends the descriptor in progress (R51): at the boundary, or at its LENGTH where that comes first; a descriptor that a check or
a fault ends before that ends so. -/
def cutDesc (n moved : Nat) (x : Ctx) (d : Dev) : Dev :=
  let b := headDesc n x d
  let o := descOutcome (decide (4 ≤ n)) d b
  let len := min (stopLen b moved) (fld b 16 4)
  if o.1 = 0x00 ∨ ((o.1 = 0x11 ∨ o.1 = 0x13) ∧ len ≤ o.2) then endDesc n b 0x10 len (moveBytes (decide (4 ≤ n)) x b len d)
  else runDesc n x d

/-- A descriptor that had not begun ends with 0x10 (R51). -/
def refuseDesc (n : Nat) (x : Ctx) (d : Dev) : Dev := endDesc n (headDesc n x d) 0x10 0 d

/-- The descriptor at HEAD is in progress: the ring runs, the host link is up, and OWN is 1 (R49). -/
def inProgress (n : Nat) (x : Ctx) (d : Dev) : Bool :=
  let r := d.ring n
  r.stat = .running && owned r ≠ 0 && d.hif.linkUp && bitOf (fld (headDesc n x d) 22 1) 0

/-- STATE becomes 0 once HEAD equals TAIL (R51). -/
def stopWhenEmpty (n : Nat) (d : Dev) : Dev :=
  if owned (d.ring n) = 0 then d.setRing n { d.ring n with stat := .stopped, cut := none } else d

/-- A stopping ring ends the descriptor at HEAD: the one in progress at its boundary, every other with nothing moved (R51). -/
def stopDesc (n : Nat) (x : Ctx) (d : Dev) : Dev :=
  let d0 := d.setRing n { d.ring n with cut := none }
  stopWhenEmpty n (match (d.ring n).cut with | some moved => cutDesc n moved x d0 | none => refuseDesc n x d0)

/-! Configuration space (R34, R35, R37). -/

/-- The size of a BAR in bytes; 0 where it is absent (R37). -/
def barSize : Nat → Nat
  | 0 => 64 * 2 ^ 20
  | 2 => 8 * 2 ^ 30
  | _ => 0

/-- The Device ID (R37). -/
def deviceId (f : Fuse) : Nat := match f.ports with | .vy96 => 0x0A96 | .vy64 => 0x0A64 | .vy32 => 0x0A32

/-- The Subsystem ID (R37). -/
def subsystemId (f : Fuse) : Nat := flag f.duplex 0 + flag f.oven 1

/-- The identifying 4-byte words of configuration space, in whatever state the device is (R37): the type 0 header of the standard
(log entry 90), base addresses not yet assigned. -/
def cfgWord (f : Fuse) (off : Nat) : Nat :=
  match off with
  | 0x00 => 2 ^ 16 * deviceId f + 0x1F7B
  | 0x08 => 2 ^ 8 * 0x120000
  | 0x10 => 0x4
  | 0x18 => 0xC
  | 0x2C => 2 ^ 16 * subsystemId f + 0x1F7B
  | _ => 0

/-- The other words of configuration space: the capabilities that R34 names, at places of the model's (log entry 90): PCI Express with what
the host has set and what the link has settled at, MSI-X with its table and pending bits (R39), and AER with its status and header log. -/
def capWord (d : Dev) (off : Nat) : Nat :=
  let p := d.pcie
  match off with
  | 0x04 => 2 ^ 20
  | 0x34 => 0x40
  | 0x40 => 0x7010 + 2 ^ 17 + 2 ^ 31
  | 0x44 => 2 + 2 ^ 15 + 2 ^ 28
  | 0x48 => 2 ^ 5 * p.payload.val + 2 ^ 12 * p.readRequest.val
  | 0x4C => 6 + 2 ^ 4 * 8 + 2 ^ 11
  | 0x50 => flag p.aspmL1 1 + 2 ^ 16 * d.hif.linkSpeed + 2 ^ 20 * d.hif.linkWidth
  | 0x64 => 2 ^ 16 + 2 ^ 17
  | 0x70 => 0x11 + 2 ^ 16 * 255
  | 0x74 => 0x20000
  | 0x78 => 0x21000
  | 0x100 => 0x20001
  | 0x104 => p.uncorrectable.toNat
  | 0x110 => p.correctable.toNat
  | 0x11C => p.headerLog.toNat / 2 ^ 96
  | 0x120 => p.headerLog.toNat / 2 ^ 64 % 2 ^ 32
  | 0x124 => p.headerLog.toNat / 2 ^ 32 % 2 ^ 32
  | 0x128 => p.headerLog.toNat % 2 ^ 32
  | _ => 0

/-- A 4-byte word of configuration space (R34, R37). -/
def configWord (f : Fuse) (d : Dev) (off : Nat) : Nat := if off = 0x04 ∨ 0x34 ≤ off then capWord d off else cfgWord f off

/-- The host sets what R34 lets it set, and clears the AER status that it names; what AER has corrected meanwhile is reported. -/
def hostSets (v : PcieSet) (d : Dev) : Dev :=
  let p := d.pcie
  { d with pcie := { p with
      payload := v.payload, readRequest := v.readRequest, aspmL1 := v.aspmL1
      correctable := (p.correctable &&& ~~~v.clearCorrectable) ||| v.corrected
      uncorrectable := p.uncorrectable &&& ~~~v.clearUncorrectable } }

/-- AER reports an uncorrectable error with the header of its request; the standard's status bit and that header are no part of a row:
free values (R34, R59, log entry 90). -/
def aerReport (d : Dev) : Dev :=
  let bit : BitVec 32 := BitVec.ofNat 32 (2 ^ (freeValue d % 32))
  let d1 := useFree d
  useFree { d1 with pcie := { d1.pcie with uncorrectable := d1.pcie.uncorrectable ||| bit, headerLog := BitVec.ofNat 128 (freeValue d1) } }

/-! Function Level Reset (R38). -/

/-- BAR0's ring registers after a Function Level Reset: owned descriptors have failed, HEAD and TAIL keep the ledger of R49. -/
def flrRing (r : DmaRing) : DmaRing :=
  let fail := r.fail + BitVec.ofNat 64 (owned r)
  let ix := BitVec.ofNat 32 (r.done.toNat + fail.toNat)
  { head := ix, tail := ix, done := r.done, fail := fail }

/-- Descriptors owned by the device, all rings. -/
def allOwned (d : Dev) : Nat := ((List.range 8).map fun n => owned (d.ring n)).sum

/-- A held completion was in flight: it counts as ended and appears in the report (R38, R76). -/
def dropHeld (m : Nat) (d : Dev) : Dev :=
  let b := d.mb m
  d.setMb m { b with held := [], done := b.done + BitVec.ofNat 64 b.held.length }

/-- Every mailbox's registers return to reset but POSTED and DONE; slots are free and keep their contents (R38, R62). -/
def flrMailbox (m : Nat) (d : Dev) : Dev :=
  let b := d.mb m
  let y := d.pin m
  let d1 := d.setMb m { posted := b.posted, done := b.done }
  { d1 with core := { d1.core with pins := Store.set {} d1.core.pins m { y with level := 0 } } }

/-- The BAR0 registers outside rings and mailboxes (R38, R17): the registers that report what the reset does not touch (identity,
state, link, DDR5 size) go on reporting it. -/
def flrRegs (d : Dev) : Dev :=
  { d with
    hif := { d.hif with scratch := 0, bar2Win := 0, err := 0, errAddr := 0, rlShadow := [], lowHalf := [] }
    evt := { lost := d.evt.lost, raised := d.evt.raised.map (fun r => { r with msg := false }) } }

/-- The commands in flight at the reset: doorbelled and not yet completed; each loses its slot, those not yet accepted end with
0x001D, and the report waits for all (R38, R75, R529). -/
def flrCommands (d : Dev) : Dev :=
  let heldNow := (List.range 32).flatMap fun m => (d.mb m).held
  let d1 := d.bells.foldl (fun d b => acceptBell b d) d
  let cmds := d1.core.cmds.map (fun c => { c with noSlot := true })
  let f : FlrReport := {
    start := d.time.lat
    descriptors := allOwned d
    waiting := cmds.map (·.seq)
    entries := heldNow.map (fun k => (k.seq, entryBytes d.hif.core k k.status 0))
    completed := heldNow.countP (fun k => completed k.status)
    failed := heldNow.countP (fun k => !completed k.status)
    total := cmds.length + heldNow.length }
  let d2 := { d1 with core := { d1.core with cmds := cmds }, ledger := { d1.ledger with flrs := d1.ledger.flrs ++ [f] } }
  let d3 := d2.forAll (List.range 32) dropHeld
  settleFlrs ((cmds.drop d.core.cmds.length).foldl (fun d c => failCmd c { status := 0x1D } d) d3)

/-- A Function Level Reset (R38): the registers come before the commands, so that nothing is written to host memory; descriptors are
counted before their rings change. DESIGN CHOICE (log entry 138): configuration space stays as it stands; R38 resets BAR0 alone. -/
def functionReset (d : Dev) : Dev :=
  ((flrCommands (flrRegs d)).forAll (List.range 8) fun n d => d.setRing n (flrRing (d.ring n))).forAll (List.range 32) flrMailbox

end Sys2Proof.Machine
end

