-- ==== Sys2Proof/Machine/HostIf.lean ====
section
/-! DEFINITION. The host interface (02, 03): mailbox, DMA, event and BAR2 accesses, the PCIe link, and acceptance. -/

namespace Sys2Proof.Machine

/-! 64-bit RW registers (R42). -/

/-- The low half is kept until the high half is written; bits [11:0] of a base are reserved (R13). -/
def keepLow (off : Nat) (v : BitVec 32) (d : Dev) : Dev :=
  { d with hif := { d.hif with lowHalf := Store.set 0 d.hif.lowHalf off (v &&& 0xFFFFF000) } }

/-- The base that a write makes take effect, if any; the low half stays readable. -/
def newBase (off : Nat) (d : Dev) : CfgWrite → Option (BitVec 64)
  | .baseHigh v => some (BitVec.ofNat 64 (2 ^ 32 * v.toNat + (Store.get 0 d.hif.lowHalf off).toNat))
  | .base v => some (v &&& 0xFFFFFFFFFFFFF000)
  | _ => none

/-- A write to a base and size pair that is not refused: `base` and `size` say how the registers take their values. -/
def cfgWrite (off : Nat) (base : BitVec 64 → Dev → Dev) (size : BitVec 5 → Dev → Dev) (w : CfgWrite) (d : Dev) : Dev :=
  match w with
  | .baseLow v => keepLow off v d
  | .size v => size (v.setWidth 5) d
  | .base v => match newBase off d w with | none => d | some b => base b (keepLow off (v.setWidth 32) d)
  | .baseHigh _ => match newBase off d w with | none => d | some b => base b d

/-- The offset a configuration write falls at, from the offset of the base. -/
def cfgOff (off sizeOff : Nat) : CfgWrite → Nat
  | .baseLow _ => off
  | .baseHigh _ => off + 4
  | .base _ => off
  | .size _ => sizeOff

/-! Mailboxes (R61 to R63, R72 to R75). -/

/-- MB_DOORBELL (R61, R62, R64): the slot number is in bits [3:0]. -/
def doorbell (m : Nat) (value : BitVec 32) (_ : Ctx) (d : Dev) : Dev :=
  let b := d.mb m
  let slot := value.toNat % 16
  if !b.enable || (d.hif.state ≠ .ready && d.hif.state ≠ .restricted) || b.busy.contains slot then accessError (mbOff m 0) d
  else { d.setMb m { b with busy := b.busy ++ [slot] } with bells := d.bells ++ [(m, slot)] }

/-- Write bytes to the command-slot memory. -/
def putSlot (off : Nat) (bytes : List Byte) (d : Dev) : Dev :=
  { d with slots := (bytes.zipIdx).foldl (fun s b => Store.set 0 s (off + b.2) b.1) d.slots }

/-- COMMAND_SLOT_WRITE (R40, R63). -/
def slotWrite (m slot off : Nat) (bytes : List Byte) (_ : Ctx) (d : Dev) : Dev :=
  let at_ := 2048 * m + 128 * slot + off
  if !slotWriteOk off bytes.length || (d.mb m).busy.contains slot then
    accessError (0x10000 + at_) d
  else putSlot at_ bytes d

/-- MB_CTRL.ENABLE = 1 (R74, R75). -/
def mbEnable (m : Nat) (_ : Ctx) (d : Dev) : Dev :=
  let b := d.mb m
  if !b.busy.isEmpty || decide (b.log2.toNat < 4) || decide (12 < b.log2.toNat) then accessError (mbOff m 0x1C) d
  else
    let d1 := d.setMb m { b with enable := true, head := b.tail }
    { d1 with core := { d1.core with pins := Store.set {} d1.core.pins m { d1.pin m with level := 0 } } }

/-- MB_CTRL.ENABLE = 0 (R75): what was doorbelled and not accepted is accepted, in doorbell order, and ends with 0x001D; at once even
while no firmware runs: DESIGN CHOICE, log entry 97. -/
def mbDisable (m : Nat) (_ : Ctx) (d : Dev) : Dev :=
  let d1 := d.setMb m { d.mb m with enable := false }
  (d1.bells.filter (fun b => b.1 = m)).foldl (fun d b => acceptDisabled b d) d1

/-- A new TAIL lies beyond HEAD: it moves further from the old one than HEAD does (R73), so one behind the old TAIL counts as beyond
HEAD: DESIGN CHOICE, log entry 96. -/
def beyondHead (b : Mailbox) (v : BitVec 16) : Bool := decide ((b.head - b.tail).toNat < (v - b.tail).toNat)

/-- MB_CRING_TAIL (R73): checked while the mailbox is enabled or slots are in use; room lets held completions out. -/
def cringTail (m : Nat) (value : BitVec 32) (_ : Ctx) (d : Dev) : Dev :=
  let b := d.mb m
  let v := value.setWidth 16
  if (b.enable || !b.busy.isEmpty) && beyondHead b v then accessError (mbOff m 0x18) d else d.setMb m { b with tail := v }

/-- MB_CRING_BASE and MB_CRING_SIZE (R74). -/
def cringConfig (m : Nat) (w : CfgWrite) (_ : Ctx) (d : Dev) : Dev :=
  let b := d.mb m
  if b.enable || !b.busy.isEmpty then accessError (cfgOff (mbOff m 8) (mbOff m 0x10) w) d
  else cfgWrite (mbOff m 8) (fun v d => d.setMb m { d.mb m with base := v }) (fun v d => d.setMb m { d.mb m with log2 := v }) w d

/-- HELD_COMPLETION_POST (R73). -/
def heldPost (m : Nat) (_ : Ctx) (d : Dev) : Dev := postHeld m d

/-! DMA rings (R48 to R53). -/

/-- LOG2 of a DMA ring is in range (R52). -/
def dmaSizeOk (r : DmaRing) : Bool := decide (4 ≤ r.log2.toNat) && decide (r.log2.toNat ≤ 16)

/-- HIF_DMAn_TAIL (R53). -/
def dmaTail (n : Nat) (value : BitVec 32) (_ : Ctx) (d : Dev) : Dev :=
  let r := d.ring n
  if 2 ^ r.log2.toNat < (value - r.head).toNat then accessError (dmaOff n 0x0C) d else d.setRing n { r with tail := value, owns := r.owns + (value - r.tail) }

/-- START (R48, R52). Written while STATE is 1 or 2 it has no effect: no rule says what it does, DESIGN CHOICE, log entry 130. -/
def dmaStart (n : Nat) (_ : Ctx) (d : Dev) : Dev :=
  let r := d.ring n
  if r.stat = .running ∨ r.stat = .stopping then d
  else if dmaSizeOk r then d.setRing n { r with stat := .running }
  else raiseQuiet (32 + n) (d.setRing n { r with stat := .configError })

/-- STOP (R51, R52): STATE becomes 2 until HEAD equals TAIL; a descriptor in progress has moved `moved` bytes. -/
def dmaStop (n moved : Nat) (x : Ctx) (d : Dev) : Dev :=
  match (d.ring n).stat with
  | .stopped => d
  | .configError => d.setRing n { d.ring n with stat := .stopped }
  | .stopping => d
  | .running => stopWhenEmpty n (d.setRing n { d.ring n with stat := .stopping, cut := if inProgress n x d then some moved else none })

/-- HIF_DMAn_BASE and HIF_DMAn_SIZE (R52). -/
def dmaConfig (n : Nat) (w : CfgWrite) (_ : Ctx) (d : Dev) : Dev :=
  let r := d.ring n
  if r.stat = .running ∨ r.stat = .stopping then accessError (cfgOff (dmaOff n 0) (dmaOff n 8) w) d
  else cfgWrite (dmaOff n 0) (fun v d => d.setRing n { d.ring n with base := v }) (fun v d => d.setRing n { d.ring n with log2 := v }) w d

/-- DMA_DESCRIPTOR_DONE (R49, R51): the descriptor at HEAD of a running ring runs to its end, one of a stopping ring is cut or
refused. A running ring waits at a descriptor whose OWN is 0: DESIGN CHOICE, log entry 94. -/
def descriptorDone (n : Nat) (x : Ctx) (d : Dev) : Dev :=
  if inProgress n x d then runDesc n x d
  else if (d.ring n).stat = .stopping ∧ d.hif.linkUp then stopDesc n x d
  else d

/-! Events (R16, R55 to R57). -/

/-- EVT_PENDk W1C (R16): a bit the device sets in the same cycle, as the operand of the row says (log entry 27), is set after it. -/
def pendClear (k : Nat) (mask raisedNow : BitVec 32) (_ : Ctx) (d : Dev) : Dev :=
  let word (m : BitVec 32) : BitVec 256 := BitVec.ofNat 256 (m.toNat * 2 ^ (32 * k))
  { d with evt := { d.evt with pend := (d.evt.pend &&& ~~~(word mask)) ||| word (mask &&& raisedNow) } }

/-- EVT_LOG_CTRL.ENABLE = 1 (R57). -/
def logEnable (_ : Ctx) (d : Dev) : Dev :=
  let e := d.evt
  if e.enable then d
  else if e.log2.toNat < 6 ∨ 16 < e.log2.toNat then accessError 0x1054 d
  else { d with evt := { e with enable := true, head := e.tail } }

/-- EVT_LOG_CTRL.ENABLE = 0 (R57): later raises, and records not yet begun, are lost. -/
def logDisable (_ : Ctx) (d : Dev) : Dev := { d with evt := { d.evt with enable := false } }

/-- EVT_LOG_TAIL (R57): while enabled, from HEAD − 2^LOG2 to HEAD. -/
def logTail (v : BitVec 32) (_ : Ctx) (d : Dev) : Dev :=
  if d.evt.enable && decide (2 ^ d.evt.log2.toNat < (d.evt.head - v).toNat) then accessError 0x1050 d
  else { d with evt := { d.evt with tail := v } }

/-- EVT_LOG_BASE and EVT_LOG_SIZE (R57). -/
def logConfig (w : CfgWrite) (_ : Ctx) (d : Dev) : Dev :=
  if d.evt.enable then accessError (cfgOff 0x1040 0x1048 w) d
  else cfgWrite 0x1040 (fun v d => { d with evt := { d.evt with base := v } }) (fun v d => { d with evt := { d.evt with log2 := v } }) w d

/-- Send the message held for a vector, if its entry is unmasked and the link is up (R55). -/
def sendHeldMessage (v : Nat) (d : Dev) : Dev :=
  let e := Store.get {} d.evt.msix v
  if d.evt.pba.getLsbD v && !e.mask && d.hif.linkUp then
    sendMessage v { d with evt := { d.evt with pba := d.evt.pba &&& ~~~(srcBit v) } }
  else d

/-- Change an MSI-X entry. -/
def putMsix (v : Nat) (f : Msix → Msix) (d : Dev) : Dev :=
  { d with evt := { d.evt with msix := Store.set {} d.evt.msix v (f (Store.get {} d.evt.msix v)) } }

/-- MSIX_UNMASK (R55). -/
def msixUnmask (v : Nat) (_ : Ctx) (d : Dev) : Dev := sendHeldMessage v (putMsix v (fun e => { e with mask := false }) d)

/-- HIF_ERR W1C (R16, R44); `setNow` as for EVT_PEND (log entry 27). -/
def errClear (mask setNow : BitVec 32) (_ : Ctx) (d : Dev) : Dev :=
  { d with hif := { d.hif with err := (d.hif.err &&& ~~~(mask.setWidth 4)) ||| (mask &&& setNow).setWidth 4 } }

/-- The raise that firmware records next: of the oldest one's source and INSTANCE, the first by LAT (R521). -/
def nextRaise (rs : List Raise) : Option Raise :=
  rs.foldl (fun (m : Option Raise) q => match m with
    | none => some q
    | some r => if q.src = r.src ∧ q.inst = r.inst ∧ q.lat < r.lat then some q else some r) none

/-- LOG_RECORD_WRITE (R55, R521): the next event interrupt is taken and its record written; records wait while the link is down, and while no
core has taken a failed one's place. DESIGN CHOICE (log entry 148): a raise of a device that is not ready or restricted is recorded too. -/
def logRecordWrite (_ : Ctx) (d : Dev) : Dev :=
  match nextRaise d.evt.raised with
  | none => d
  | some r =>
    if inGap d || d.mirror.failed || (!d.hif.linkUp && logHasRoom d.evt) then d
    else writeRecord r { d with evt := { d.evt with raised := d.evt.raised.erase r } }

/-! Reads (R17, R40, R41). -/

/-- The high half of an RL register's value goes to that register's shadow (R15, R17). -/
def latchHigh (off v : Nat) (h : Hif) : Hif := { h with rlShadow := Store.set 0 h.rlShadow off (BitVec.ofNat 32 (half v true)) }

/-- RL_LOW_HALF_READ (R17). -/
def rlLow (off : Nat) (_ : Ctx) (d : Dev) : Dev :=
  match rlValue d off with
  | none => d
  | some v => { d with readData := some (le 4 v), hif := latchHigh off v d.hif }

/-- RL_8BYTE_READ (R41). -/
def rlBoth (off : Nat) (_ : Ctx) (d : Dev) : Dev :=
  match rlValue d off with
  | none => d
  | some v => { d with readData := some (le 8 v), hif := latchHigh off v d.hif }

/-- BAR0_ACCESS_ERROR (R40): an access of another size or alignment than R40 allows. -/
def badAccess (isWrite : Bool) (off size : Nat) (_ : Ctx) (d : Dev) : Dev :=
  if lawfulAccess isWrite off size then d
  else
    let d1 := if isWrite then d else { d with readData := some (List.replicate ((size + 3) / 4 * 4) 0xFF) }
    accessError off d1

/-! REGISTER_WRITE (R15, R42): every field of BAR0; those with a row of their own act as that row does. -/

/-- Bit 0 of an ENABLE register. -/
def byBit (v : BitVec 32) (on off : Ctx → Dev → Dev) (x : Ctx) (d : Dev) : Dev := if v.getLsbD 0 then on x d else off x d

/-- A 4-byte write to a DMA ring's registers (R48). START acts before STOP where both are written, and the descriptor in progress at STOP
has moved nothing: DESIGN CHOICE, log entry 131. -/
def writeDma (n r : Nat) (v : BitVec 32) (x : Ctx) (d : Dev) : Dev :=
  match r with
  | 0x00 => dmaConfig n (.baseLow v) x d
  | 0x04 => dmaConfig n (.baseHigh v) x d
  | 0x08 => dmaConfig n (.size v) x d
  | 0x0C => dmaTail n v x d
  | 0x14 =>
    let d1 := if v.getLsbD 0 then dmaStart n x d else d
    if v.getLsbD 1 then dmaStop n 0 x d1 else d1
  | _ => d

/-- A 4-byte write to a mailbox's registers (R46). -/
def writeMb (m r : Nat) (v : BitVec 32) (x : Ctx) (d : Dev) : Dev :=
  match r with
  | 0x00 => doorbell m v x d
  | 0x08 => cringConfig m (.baseLow v) x d
  | 0x0C => cringConfig m (.baseHigh v) x d
  | 0x10 => cringConfig m (.size v) x d
  | 0x18 => cringTail m v x d
  | 0x1C => byBit v (mbEnable m) (mbDisable m) x d
  | _ => d

/-- A 4-byte write to the event registers (R56). -/
def writeEvt (off : Nat) (v : BitVec 32) (x : Ctx) (d : Dev) : Dev :=
  if off < 0x1020 then pendClear ((off - 0x1000) / 4) v 0 x d
  else if off < 0x1040 then
    let sh := 8 * (off - 0x1020)
    let m : BitVec 256 := BitVec.ofNat 256 ((2 ^ 32 - 1) * 2 ^ sh)
    { d with evt := { d.evt with en := (d.evt.en &&& ~~~m) ||| BitVec.ofNat 256 (v.toNat * 2 ^ sh) } }
  else match off with
    | 0x1040 => logConfig (.baseLow v) x d
    | 0x1044 => logConfig (.baseHigh v) x d
    | 0x1048 => logConfig (.size v) x d
    | 0x1050 => logTail v x d
    | 0x1054 => byBit v logEnable logDisable x d
    | _ => d

/-- A 4-byte write to an MSI-X entry (R39): address, data, or the mask of the vector control word. -/
def writeMsix (n lane : Nat) (v : BitVec 32) (d : Dev) : Dev :=
  match lane with
  | 0 => putMsix n (fun e => { e with addr := (e.addr &&& 0xFFFFFFFF00000000) ||| (v &&& 0xFFFFFFFC).setWidth 64 }) d
  | 1 => putMsix n (fun e => { e with addr := (e.addr &&& 0xFFFFFFFF) ||| BitVec.ofNat 64 (2 ^ 32 * v.toNat) }) d
  | 2 => putMsix n (fun e => { e with data := v }) d
  | _ => sendHeldMessage n (putMsix n (fun e => { e with mask := v.getLsbD 0 }) d)

/-- A 4-byte write to BAR0 (R39): an offset not listed, or a read-only field, ignores it. -/
def writeWord (off : Nat) (v : BitVec 32) (x : Ctx) (d : Dev) : Dev :=
  if off = 0x24 then { d with hif := { d.hif with scratch := v } }
  else if off = 0x104 then { d with hif := { d.hif with bar2Win := v.setWidth 3 } }
  else if off = 0x10C then errClear v 0 x d
  else if 0x400 ≤ off ∧ off < 0x600 then writeDma ((off - 0x400) / 0x40) (off % 0x40) v x d
  else if 0x800 ≤ off ∧ off < 0x1000 then writeMb ((off - 0x800) / 0x40) (off % 0x40) v x d
  else if 0x1000 ≤ off ∧ off < 0x1100 then writeEvt off v x d
  else if 0x10000 ≤ off ∧ off < 0x20000 then
    slotWrite ((off - 0x10000) / 2048) ((off - 0x10000) / 128 % 16) (off % 128) (le 4 v.toNat) x d
  else if 0x20000 ≤ off ∧ off < 0x21000 then writeMsix ((off - 0x20000) / 16) (off / 4 % 4) v d
  else d

/-- A 4-byte write is refused with an access error. -/
def refusesWrite (off : Nat) (v : BitVec 32) (x : Ctx) (d : Dev) : Bool :=
  (writeWord off v x { d with hif := { d.hif with err := 0 } }).hif.err ≠ 0

/-- An 8-byte write covers two registers (R42). It is one access: refused in both halves it raises one error, and HIF_ERR_ADDR
takes the offset of the access (R44). -/
def writePair (off : Nat) (v : BitVec 64) (x : Ctx) (d : Dev) : Dev :=
  let lo := v.setWidth 32
  let hi := (v >>> 32).setWidth 32
  let d1 := writeWord off lo x d
  let d2 := if refusesWrite off lo x d && refusesWrite (off + 4) hi x d1 then d1 else writeWord (off + 4) hi x d1
  if d1.hif.err = 0 && d2.hif.err ≠ 0 then { d2 with hif := { d2.hif with errAddr := BitVec.ofNat 64 off } } else d2

/-- REGISTER_WRITE: 4 or 8 bytes, naturally aligned, or 8 bytes at any multiple of 4 in a command slot (R40). -/
def registerWrite (off : Nat) (eight : Bool) (value : BitVec 64) (x : Ctx) (d : Dev) : Dev :=
  if eight then
    if lawfulAccess true off 8 then writePair off value x d else accessError off d
  else if off % 4 ≠ 0 then accessError off d
  else writeWord off (value.setWidth 32) x d

/-! BAR2 (R58, R59). -/

/-- The DDR5 address of a BAR2 offset (R58). -/
def bar2Addr (d : Dev) (off : Nat) : Nat := d.hif.bar2Win.toNat * 2 ^ 33 + off

/-- The flags an access sets (R59): BAR2_RANGE and BAR2_PROT. -/
def bar2Flags (d : Dev) (a n : Nat) : BitVec 4 :=
  (if ddrFitted d < a + n then 4 else 0) ||| (if ddrReserved d < a + n ∧ a < ddrFitted d then 2 else 0)

/-- A failed BAR2 access: its flags, and source 44 once. -/
def bar2Fail (off n : Nat) (d : Dev) : Dev :=
  let d1 := flagError (bar2Flags d (bar2Addr d off) n) true off d
  event 44 0xFFFF d1.hif.err.toNat d1

/-- BAR2_READ (R59): checked whole; an uncorrectable line poisons the completion, and AER reports it. -/
def bar2Read (off n : Nat) (x : Ctx) (d : Dev) : Dev :=
  let a := bar2Addr d off
  if bar2Flags d a n ≠ 0 then bar2Fail off n { d with readData := some (zeros n) }
  else match eccFault d a n with
    | some k =>
      let d1 := flagError 8 true off { d with readData := none }
      aerReport (ddrError ((a + k) / 64) (event 45 0xFFFF d1.hif.err.toNat d1))
    | none => { d with readData := some (Mem.read x.ddr a n) }

/-- BAR2_WRITE (R59): checked whole. -/
def bar2Write (off : Nat) (bytes : List Byte) (_ : Ctx) (d : Dev) : Dev :=
  let a := bar2Addr d off
  if bar2Flags d a bytes.length ≠ 0 then bar2Fail off bytes.length d else ddrWrite a bytes d

/-! The PCIe link (R30, R36) and its resets (R38, R94). -/

/-- PCIE_LINK_TRAINED (R36): completions and messages that waited for the link go out; `set` is what the host has set (R34, log entry 90). -/
def linkTrained (speed width : Nat) (flit : Bool) (set : Option PcieSet) (_ : Ctx) (d0 : Dev) : Dev :=
  if d0.images.inReset then d0
  else
    let d := match set with | none => d0 | some v => hostSets v d0
    let bad := decide (speed < 6) || decide (width < 8)
    let d1 := { d with hif := { d.hif with linkUp := true, linkSpeed := speed, linkWidth := width, linkFlit := flit, linkDegraded := bad } }
    let d2 := if bad then event 42 0xFFFF (hifLinkWord d1.hif) d1 else d1
    (d2.forAll (List.range 32) postAllHeld).forAll (List.range 256) sendHeldMessage

/-- PCIE_LINK_DOWN (R30). HIF_LINK keeps what the last training reported (R36 speaks of a link that has trained): DESIGN CHOICE, log
entry 95. -/
def linkDown (_ : Ctx) (d : Dev) : Dev := { d with hif := { d.hif with linkUp := false } }

/-- PERST_N, hot reset or link disable (R94): as a Function Level Reset, configuration space is reset, and the link goes down. -/
def conventionalReset (_ : Ctx) (d : Dev) : Dev :=
  let d1 := functionReset d
  { d1 with pcie := {}, hif := { d1.hif with linkUp := false, linkSpeed := 0, linkWidth := 0, linkFlit := false, linkDegraded := false } }

/-! The rows. -/
def execMbDoorbell (mb : Fin 32) (value : BitVec 32) (s : State) : Host.Outcome State Fault Refusal := .next (s.on (doorbell mb value))
def execCommandSlotWrite (mb : Fin 32) (slot : Fin 16) (off : Nat) (bytes : List Byte) (s : State) : Host.Outcome State Fault Refusal :=
  .next (s.on (slotWrite mb slot off bytes))
def execHeldCompletionPost (mb : Fin 32) (s : State) : Host.Outcome State Fault Refusal := .next (s.on (heldPost mb))
def execMbEnable (mb : Fin 32) (s : State) : Host.Outcome State Fault Refusal := .next (s.on (mbEnable mb))
def execMbDisable (mb : Fin 32) (s : State) : Host.Outcome State Fault Refusal := .next (s.on (mbDisable mb))
def execMbCringTailWrite (mb : Fin 32) (value : BitVec 32) (s : State) : Host.Outcome State Fault Refusal := .next (s.on (cringTail mb value))
def execMbCringConfigWrite (mb : Fin 32) (w : CfgWrite) (s : State) : Host.Outcome State Fault Refusal := .next (s.on (cringConfig mb w))
def execDmaTailWrite (ring : Fin 8) (value : BitVec 32) (s : State) : Host.Outcome State Fault Refusal := .next (s.on (dmaTail ring value))
def execDmaStart (ring : Fin 8) (s : State) : Host.Outcome State Fault Refusal := .next (s.on (dmaStart ring))
def execDmaStop (ring : Fin 8) (h : HostSide) (moved : Nat) (s : State) : Host.Outcome State Fault Refusal :=
  .next ((s.sync h).on (dmaStop ring moved))
def execDmaConfigWrite (ring : Fin 8) (w : CfgWrite) (s : State) : Host.Outcome State Fault Refusal := .next (s.on (dmaConfig ring w))
def execDmaDescriptorDone (ring : Fin 8) (h : HostSide) (s : State) : Host.Outcome State Fault Refusal :=
  .next ((s.sync h).on (descriptorDone ring))
def execEvtPendClear (k : Fin 8) (mask raisedNow : BitVec 32) (s : State) : Host.Outcome State Fault Refusal :=
  .next (s.on (pendClear k mask raisedNow))
def execEvtLogEnable (s : State) : Host.Outcome State Fault Refusal := .next (s.on logEnable)
def execEvtLogDisable (s : State) : Host.Outcome State Fault Refusal := .next (s.on logDisable)
def execEvtLogTailWrite (value : BitVec 32) (s : State) : Host.Outcome State Fault Refusal := .next (s.on (logTail value))
def execEvtLogConfigWrite (w : CfgWrite) (s : State) : Host.Outcome State Fault Refusal := .next (s.on (logConfig w))
def execMsixUnmask (v : Fin 256) (s : State) : Host.Outcome State Fault Refusal := .next (s.on (msixUnmask v))
def execHifErrClear (mask setNow : BitVec 32) (s : State) : Host.Outcome State Fault Refusal := .next (s.on (errClear mask setNow))
def execLogRecordWrite (s : State) : Host.Outcome State Fault Refusal := .next (s.on logRecordWrite)
def execRlLowHalfRead (off : Nat) (s : State) : Host.Outcome State Fault Refusal := .next (s.on (rlLow off))
def execRl8byteRead (off : Nat) (s : State) : Host.Outcome State Fault Refusal := .next (s.on (rlBoth off))
def execBar0AccessError (isWrite : Bool) (off size : Nat) (s : State) : Host.Outcome State Fault Refusal :=
  .next (s.on (badAccess isWrite off size))
def execRegisterWrite (off : Nat) (eight : Bool) (value : BitVec 64) (s : State) : Host.Outcome State Fault Refusal :=
  .next (s.on (registerWrite off eight value))
def execBar2Read (off len : Nat) (h : HostSide) (s : State) : Host.Outcome State Fault Refusal := .next ((s.sync h).on (bar2Read off len))
def execBar2Write (off : Nat) (bytes : List Byte) (s : State) : Host.Outcome State Fault Refusal := .next (s.on (bar2Write off bytes))
def execPcieLinkTrained (speed width : Nat) (flit : Bool) (s : State) (set : Option PcieSet := none) : Host.Outcome State Fault Refusal :=
  .next (s.on (linkTrained speed width flit set))
def execPcieLinkDown (s : State) : Host.Outcome State Fault Refusal := .next (s.on linkDown)
def execFunctionLevelReset (s : State) : Host.Outcome State Fault Refusal := .next (s.on (fun _ => functionReset))
def execPcieConventionalReset (s : State) : Host.Outcome State Fault Refusal := .next (s.on conventionalReset)

end Sys2Proof.Machine
end

