-- ==== Sys2Proof/Machine/LinkOps.lean ====
section
/-! DEFINITION. Device links (16): the layout of a frame (R442, R443, R450), what leaving the active state does (R315, R448,
R457), and retrains (R446 to R448). -/

namespace Sys2Proof.Machine

/-! Frames (R442, R443). -/

/-- A chord entry of 24 bits (R443). -/
def chordEntry (shotBase : Nat) (c : Chord) : Nat :=
  bits c.chan 7 0 + 2 ^ 8 * (c.dev % 16) + flag c.slow 12 + 2 ^ 13 * (c.ord % 4) + 2 ^ 15 * (c.shot - shotBase) +
    (match c.state with | none => 2 ^ 18 | some s => 2 ^ 16 * s.toNat)

/-- The chord of an entry. -/
def chordOf (shotBase v : Nat) : Chord :=
  { dev := bits v 11 8, slow := bitOf v 12, chan := bits v 7 0, ord := bits v 14 13, shot := shotBase + bits v 15 15,
    state := if bitOf v 18 then none else some (BitVec.ofNat 2 (bits v 17 16)) }

/-- A fire message (R443). -/
def fireBytes (m : FireMsg) : List Byte := le 1 1 ++ le 1 m.origin ++ le 1 (flag m.copy 0) ++ zeros 5 ++ le 8 m.t
/-- The fire message of 16 bytes, if they hold one. -/
def fireOf (b : List Byte) : Option FireMsg :=
  if fld b 0 1 = 1 then some { origin := fld b 1 1, t := fld b 8 8, copy := bitOf (fld b 2 1) 0 } else none

/-- A control message (R443): armed and refused echo ARM_AT alone. -/
def ctrlBytes (m : CtrlMsg) : List Byte :=
  le 1 m.type ++ le 1 m.origin ++ le 2 m.members ++ le 1 (flag m.continuous 0 + flag m.copy 1) ++ zeros 1 ++ le 2 m.fireDelay ++
    le 8 m.armAt ++ le 4 m.count ++ le 4 m.cycle
/-- The control message of 24 bytes, if they hold one. -/
def ctrlOf (b : List Byte) : Option CtrlMsg :=
  let t := fld b 0 1
  if t = 2 ∨ t = 3 ∨ t = 4 then
    some { type := t, origin := fld b 1 1, members := fld b 2 2, continuous := bitOf (fld b 4 1) 0, copy := bitOf (fld b 4 1) 1,
           fireDelay := fld b 6 2, armAt := fld b 8 8, count := fld b 16 4, cycle := fld b 20 4 }
  else none

/-- Bytes 0 to 235 of a frame (R442). -/
def frameBody (f : LinkFrame) : List Byte :=
  le 2 f.seq ++ le 4 f.slot ++ le 6 f.shotBase ++ le 1 f.chords.length ++ le 1 (flag f.timed 0) ++ le 2 f.ack ++
    f.chords.flatMap (fun c => le 3 (chordEntry f.shotBase c)) ++ zeros (3 * (48 - f.chords.length)) ++
    (match f.fire with | none => zeros 16 | some m => fireBytes m) ++
    (match f.ctrl with | none => zeros 24 | some m => ctrlBytes m) ++
    le 1 f.creditRet ++
    (match f.seg with
     | none => zeros 35
     | some g => le 1 1 ++ le 2 g.seq ++ g.bytes.take 32 ++ zeros (32 - g.bytes.length))

/-- The 240-byte payload. -/
def frameBytes (f : LinkFrame) : List Byte := frameBody f ++ le 4 (crc32c (frameBody f))

/-! Lanes (R441, R442). -/

/-- PRBS-31, one UI on: x^31 + x^28 + 1, the usual sequence of that name (log entry 114). -/
def prbsNext (s : Nat) : Nat := (2 * s + (s / 2 ^ 30 + s / 2 ^ 27) % 2) % 2 ^ 31

/-- One UI of a scrambled lane: the register runs on, and its newest bit scrambles the next data bit. -/
def scrambleUi (a : Nat × Nat × Nat × Nat) : Nat × Nat × Nat × Nat :=
  let s := prbsNext a.1
  (s, a.2.1 / 2, a.2.2.1 + 2 ^ a.2.2.2 * ((a.2.1 + s) % 2), a.2.2.2 + 1)

/-- What lane `m` carries of a payload: byte i travels on lane i mod 4, its least significant bit first (log entry 114). -/
def laneData (bytes : List Byte) (m : Nat) : Nat :=
  fromLe ((List.range 60).map fun i => bytes.getD (4 * i + m) 0)

/-- The 512 UI of one lane, UI 0 in bit 0: the marker, then 480 scrambled UI; and the sequence after them. The sequence runs free, so
it passes the marker too. -/
def laneFrame (s data : Nat) : BitVec 512 × Nat :=
  let s1 := (List.range 32).foldl (fun s _ => prbsNext s) s
  let r := (List.range 480).foldl (fun a _ => scrambleUi a) (s1, data, 0, 0)
  (BitVec.ofNat 512 (Config.laneMarker % 2 ^ 32 + 2 ^ 32 * r.2.2.1), r.1)

/-- A frame on its four lanes. -/
def sendLanes (k : Link) (bytes : List Byte) : Link :=
  let fs := (List.range 4).map fun m => laneFrame (k.scramble.getD m 0) (laneData bytes m)
  { k with lastTx := bytes, lanes := fs.map (·.1), scramble := fs.map (·.2) }

/-- Stage 2 starts every lane's sequence at its own seed (R448). -/
def seedLanes (k : Link) : Link := { k with scramble := (List.range 4).map fun m => Config.laneSeed m % 2 ^ 31 }

/-- The frame of a payload whose CRC holds (R446). -/
def frameOf (b : List Byte) : Option LinkFrame :=
  if b.length ≠ 240 ∨ fld b 236 4 ≠ crc32c (b.take 236) then none
  else
    let base := fld b 6 6
    some { seq := fld b 0 2, slot := fld b 2 4, shotBase := base, timed := bitOf (fld b 13 1) 0, ack := fld b 14 2,
           chords := (List.range (min 48 (fld b 12 1))).map (fun i => chordOf base (fld b (16 + 3 * i) 3)),
           fire := fireOf ((b.drop 160).take 16), ctrl := ctrlOf ((b.drop 176).take 24), creditRet := fld b 200 1,
           seg := if bitOf (fld b 201 1) 0 then some { seq := fld b 202 2, bytes := (b.drop 204).take 32 } else none }

/-- The capability segment (R450): DEPTH is 0xFF where the device is not aligned and not the root. -/
def capabilityBytes (x : Ctx) (d : Dev) : List Byte :=
  let m := d.domain
  let depth := if m.id = 0 then 0xFF else if m.parent = 0xFF then 0 else if m.aligned then m.depth else 0xFF
  le 1 1 ++ le 1 m.dev ++ le 2 m.id ++ le 1 depth ++ le 1 d.hif.ilHigh ++ le 1 32 ++ zeros 1 ++ le 8 x.fuse.serial.toNat ++ zeros 16

/-! Stages (R448). -/

/-- link-error carries how many frames failed in the 1 ms of a CRC failure (R446). -/
def flushCrc (l : Nat) (d : Dev) : Dev :=
  let k := d.link l
  if k.crcWindow = 0 then d else event 138 l k.crcWindow (d.setLink l { k with crcWindow := 0 })

/-- The 1 ms of a CRC failure is over. -/
def closeCrcWindow (l : Nat) (d : Dev) : Dev :=
  if (d.link l).crcWindowAt + 1000000 ≤ d.time.raw then flushCrc l d else d

/-- The link is active (R448, R452). -/
def linkActive (k : Link) : Bool := k.stage = 5 && !k.isIdle

/-- The first frame boundary from now on (R442). -/
def frameBoundary (d : Dev) : Nat := 16 * ((d.time.lat + 15) / 16)

/-- A link enters a stage now; no frame comes before stage 3, so a count of CRC failures that is open ends. -/
def enterStage (l stage : Nat) (d0 : Dev) : Dev :=
  let d := if stage ≤ 2 then flushCrc l d0 else d0
  let k := if stage = 2 then seedLanes (d.link l) else d.link l
  d.setLink l { k with stage := stage, stageAt := d.time.raw, failAt := none }

/-- The CTLE code of the band in force (R451). -/
def ctlePreset (k : Link) (band : Nat) : Nat := k.ctleCodes.getD band 0

/-- The selectors that the decision tables of shot `k` can name on a device reachable only through a link (R315, R454). -/
def remoteSelectors (l k : Nat) (d : Dev) : List Nat :=
  ((governs d.core.tables d.core.tablesPrev k).flatMap (fun t => selectors t.2)).filter fun s =>
    selEn s && selDev s ≠ d.domain.dev && Store.get 0 d.domain.ingress (selDev s) = l

/-- Mark one awaited chord missing, unless it has been received (R315). -/
def markOne (l s k : Nat) (d : Dev) : Dev :=
  if (chordFor d s k).isSome then d
  else
    let d1 := storeChord { dev := selDev s, slow := selSlow s, chan := selChan s, ord := selOrd s, shot := k, state := none } d
    d1.setLink l { d1.link l with markedMissing := (d1.link l).markedMissing + 1 }

/-- Every chord not yet received in an open shot, of a source reachable only through the link, is marked missing (R315). -/
def markMissing (l : Nat) (d : Dev) : Dev :=
  if d.domain.id = 0 then d
  else
    let open_ := d.core.shots.filter (·.opened)
    open_.foldl (fun d k => (remoteSelectors l k.num d).foldl (fun d s => markOne l s k.num d) d) d

/-- The link counts as leaving the active state for chords and messages (R315, R445). -/
def stopTimed (l : Nat) (d : Dev) : Dev :=
  let k := d.link l
  markMissing l (d.setLink l { k with timed := false, chordQ := [], fires := [], ctrls := [], fireAgain := none, ctrlAgain := none })

/-- The link to the parent (R453). -/
def isParent (d : Dev) (l : Nat) : Bool := d.domain.id ≠ 0 && d.domain.parent = l

/-- An LNK_ALIGN in progress fails (log entry 50). -/
def endAlign (d : Dev) : Dev :=
  endSeq d.domain.alignSeq (fun c d => failCmd c { status := 0x0B11, detail := 32 } d) { d with domain := { d.domain with alignSeq := none } }

/-- The parent link stops being active: ALIGNED is cleared, and an LNK_ALIGN in progress fails (R457). -/
def loseParent (l : Nat) (d : Dev) : Dev :=
  if isParent d l then endAlign { d with domain := { d.domain with aligned := false, corr := 0 } } else d

/-- Stage 5 is left: link-down, R315 and the loss of alignment (R448). -/
def leaveActive (l : Nat) (d : Dev) : Dev :=
  if (d.link l).stage ≠ 5 then d
  else
    let d1 := loseParent l (stopTimed l d)
    event 137 l (d1.link l).reason (d1.setLink l { d1.link l with wasActive := true, isIdle := false, exitAt := none })

/-- The interval of a retrain opens, unless one is open already: what it loses counts from here (R525, R528). -/
def openRetrain (l : Nat) (d : Dev) : Dev :=
  let k := d.link l
  if k.retrainAt.isSome then d
  else d.setLink l { k with retrainAt := some d.time.lat, lostSegs := k.unacked.length, resent := 0, markedMissing := 0 }

/-- A retrain from stage 2, the CTLE code held; segments in flight are lost (R446 to R448). -/
def startRetrain (l : Nat) (d : Dev) : Dev :=
  let d1 := leaveActive l (openRetrain l d)
  let k := d1.link l
  enterStage l 2 (d1.setLink l { k with retrains := addW 32 k.retrains 1, held := [], crcTimes := [] })

/-- End every LNK_TRAIN that waits on the link. -/
def endTrains (l : Nat) (f : Cmd → Dev → Dev) (d : Dev) : Dev :=
  let seqs := (d.link l).trainSeqs
  seqs.foldl (fun d n => endSeq (some n) f d) (d.setLink l { d.link l with trainSeqs := [] })

/-- A bring-up fails (R448): a count of CRC failures that is open ends (R446), and the link returns to stage 1 after 100 ms; LNK_TRAIN ends
with 0x0B12 (R462). -/
def linkFail (l reason : Nat) (d : Dev) : Dev :=
  let k := d.link l
  let d1 := flushCrc l (d.setLink l { k with reason := reason, failAt := some d.time.raw, wasActive := false })
  let d2 := if k.wasActive then event 137 l reason d1 else d1
  endTrains l (fun c d => failCmd c { status := 0x0B12, imm := reason } d) d2

end Sys2Proof.Machine
end

