-- ==== Sys2Proof/Machine/Links.lean ====
section
/-! DEFINITION. Device links (16): commands, bring-up, frames, routes and alignment. -/

namespace Sys2Proof.Machine

/-! Commands (R460 to R465). -/

/-- A link number in a byte. -/
def fLink (c : Cmd) (off : Nat) : Option Fail := fRange c off 1 0 3

/-- This device's depth in the timing tree, as its parent's capability segment gives it; 2 while that names none (R453). -/
def treeDepth (d : Dev) : Nat := if d.domain.parent = 0xFF then 0 else min 2 (1 + (d.link d.domain.parent).peerDepth)

/-- The most hops that the tree allows to a member beyond the peer of link `l` (R453): a child's children are 2 away; beyond the parent, 1
above this device's depth. -/
def farthest (d : Dev) (l : Nat) : Nat :=
  if isParent d l then 2 + treeDepth d else if treeDepth d = 0 then 2 else 4

/-- Hops to a member (R455): 1 to the peer of the link it is reached by. How far one beyond it lies is fixed where the tree leaves one
number; else it is not in the device's tables and is free among those the tree leaves, one number for a member of a domain (log entry 48).
-/
def hopsTo (d : Dev) (v : Nat) : Nat :=
  let l := Store.get 0 d.domain.ingress v
  if (d.link l).peerDev = v then 1 else 2 + Config.farHops d.domain.id v % (farthest d l - 1)

/-- Hops to the farthest member that INGRESS names (R455). -/
def hopCount (d : Dev) : Nat :=
  let named := (List.range 16).filter fun v => v ≠ d.domain.dev && decide (Store.get 0 d.domain.ingress v < 4)
  if d.domain.id = 0 then 0 else named.foldl (fun n v => max n (hopsTo d v)) 0

/-- LNK_STATUS (R465). -/
def lnkStatusBytes (d : Dev) (l : Nat) : List Byte :=
  let k := d.link l
  let up := isParent d l
  le 1 l ++ le 1 k.stage ++ le 1 (flag k.timed 0 + flag k.isIdle 1 + flag (up && d.domain.aligned) 2 + flag k.reversed 3) ++
    le 1 k.ctle ++ le 1 k.reason ++ le 1 k.peerDev ++ le 2 k.peerDomain ++ leI 8 k.delayFs ++
    leI 8 (if up then d.domain.theta else 0) ++ le 8 k.crcErrors ++ le 4 k.retrains ++ le 4 k.misrouted ++ le 1 k.credits ++ zeros 1 ++
    le 2 (80 * hopCount d) ++ zeros 4 ++ le 8 k.peerSerial ++ le 8 d.time.lat

def lnkStatusSpec : CmdSpec where
  op := 0x0B00
  len := lenIs 4
  check := fun _ c _ => firstFail [fLink c 0, fFlags c 1 1, fRes c 2 2]
  act := fun _ c d =>
    let l := c.arg 0 1
    let clear := bitOf (c.arg 1 1) 0
    let d1 := if clear then d.setLink l { d.link l with crcErrors := 0, retrains := 0, misrouted := 0 } else d
    okCmd c 0x0B00 0 (lnkStatusBytes d l) (!clear) d1

/-- An active link goes into electrical idle at its next frame boundary (R452): it leaves the active state for R315 and R457, and a count of
CRC failures that is open ends (R446). -/
def goIdle (l : Nat) (d : Dev) : Dev :=
  let d1 := flushCrc l (loseParent l (stopTimed l (advanceTo (frameBoundary d) d)))
  d1.setLink l { d1.link l with isIdle := true, exitAt := none }

/-- A link takes ENABLE, IDLE and its CTLE codes (R461, R452): IDLE set again ends a fast exit. -/
def configLink (l : Nat) (en idle : Bool) (codes : List Nat) (d : Dev) : Dev :=
  let d1 := d.setLink l { d.link l with enable := en, idle := idle, ctleCodes := codes }
  let k := d1.link l
  if !en then endTrains l (fun q d => failCmd q { status := 0x0B11, detail := 32 } d) (enterStage l 0 (leaveActive l d1))
  else if k.stage = 0 then enterStage l 1 (d1.setLink l { k with segSeq := 0, ack := 0, sending := [], unacked := [], segIn := [] })
  else if k.stage ≠ 5 then d1
  else if idle then (if k.isIdle then d1.setLink l { k with exitAt := none } else goIdle l d1)
  else if k.isIdle then d1.setLink l { k with exitAt := some (k.exitAt.getD d1.time.raw) }
  else d1

/-- LNK_CONFIG (R461). -/
def lnkConfigSpec : CmdSpec where
  op := 0x0B01
  len := lenIs 8
  check := fun _ c _ => firstFail ([fLink c 0, fFlags c 1 2] ++ (List.range 4).map (fun i => fRange c (2 + i) 1 0 15) ++ [fRes c 6 2])
  act := fun _ c d =>
    doneCmd c 0x0B00 (configLink (c.arg 0 1) (bitOf (c.arg 1 1) 0) (bitOf (c.arg 1 1) 1) ((List.range 4).map fun i => c.arg (2 + i) 1) d)

/-- LNK_TRAIN (R462): the command ends at stage 5 or with the failure of the bring-up. -/
def lnkTrainSpec : CmdSpec where
  op := 0x0B02
  len := lenIs 4
  check := fun _ c d => firstFail [fLink c 0, fRes c 1 3, fIf ((d.link (c.arg 0 1)).stage = 0) 0x0B11 0]
  act := fun _ c d =>
    let l := c.arg 0 1
    let d1 := if (d.link l).stage = 5 then startRetrain l d else d
    d1.setLink l { d1.link l with trainSeqs := (d1.link l).trainSeqs ++ [c.seq] }

/-- An INGRESS entry is 0 to 3, 0xFE or 0xFF, and 0xFE for the device itself (R463). -/
def fIngress (c : Cmd) (v : Nat) : Option Fail :=
  let i := c.arg (4 + v) 1
  fIf ((decide (3 < i) && decide (i < 0xFE)) || (v = c.arg 2 1 && i ≠ 0xFE)) 0x1B (4 + v)

/-- Every active link retrains (R463). -/
def retrainActive (d : Dev) : Dev := d.forAll [0, 1, 2, 3] fun l d => if linkActive (d.link l) then startRetrain l d else d

/-- LNK_DOMAIN (R463). -/
def lnkDomainSpec : CmdSpec where
  op := 0x0B03
  len := lenIs 32
  check := fun _ c d =>
    let off (o : Nat) : Option Fail := fIf (decide (c.arg o 1 < 4) && !(d.link (c.arg o 1)).enable) 0x0B13 o
    firstFail ([fRange c 2 1 0 15, fIf (decide (3 < c.arg 3 1) && c.arg 3 1 ≠ 0xFF) 0x1B 3] ++ (List.range 16).map (fIngress c) ++
      [fRes c 28 4, fNone (running d) 0x0B10, fIf (c.arg 2 1 ≠ 0 && c.arg 0 2 = 0) 0x0B13 2, off 3] ++
      (List.range 16).map (fun v => off (4 + v)))
  act := fun _ c d =>
    let m : Domain := {
      id := c.arg 0 2, dev := c.arg 2 1, parent := c.arg 3 1
      ingress := (List.range 16).foldl (fun s v => Store.set 0 s v (c.arg (4 + v) 1)) []
      relay := (List.range 4).foldl (fun s j => Store.set 0 s j (BitVec.ofNat 16 (c.arg (20 + 2 * j) 2))) []
      depth := if c.arg 0 2 ≠ 0 ∧ c.arg 3 1 = 0xFF then 0 else 0xFF
      phaseFs := d.domain.phaseFs }
    let d1 := { endAlign d with domain := m }
    doneCmd c 0x0B00 (retrainActive d1)

/-- Half a femtosecond count, toward −∞ (log entry 25). -/
def halfOf (v : Int) : Int := Int.fdiv v 2

/-- The parent's mean: what its segment of TYPE 2 has brought, or, where that comes within the command, its operand (R456). -/
def parentMean (operand : Int) (d : Dev) : Int := (d.link d.domain.parent).peerMean.getD operand

/-- LNK_ALIGN (R464, R456): the child's measured mean and the parent's are the operands; the command ends with its slew. With DOMAIN_ID 0
there is no parent to align to: it fails with 0x0B13, as where the depth would exceed 2, with the payload's offset; it clears ALIGNED as
it begins (DESIGN CHOICE, log entry 118). -/
def lnkAlignSpec (dPC mean : Int) : CmdSpec where
  op := 0x0B04
  len := lenIs 16
  check := fun _ c d =>
    let m := d.domain
    let up := d.link m.parent
    let dCP := parentMean mean d
    let delay := halfOf (dPC + dCP)
    let theta := halfOf (dPC - dCP - c.argS 8 8)
    firstFail [fRes c 0 8, fNone (running d) 0x0B10, fNone (m.parent = 0xFF) 0x0B16, fIf (m.id = 0) 0x0B13 0,
      fIf (!linkActive up) 0x0B11 0, fIf (decide (2 ≤ up.peerDepth) && up.peerDepth ≠ 0xFF) 0x0B13 0,
      (if 20000000 < delay then some { status := 0x0B14, imm := (delay / 1000).toNat } else none),
      (if 10000000000 < theta.natAbs then some { status := 0x0B15, imm := (Int.tdiv theta 1000000 % 2 ^ 32).toNat } else none)]
  act := fun _ c d =>
    let dCP := parentMean mean d
    let delay := halfOf (dPC + dCP)
    let theta := halfOf (dPC - dCP - c.argS 8 8)
    let m : Domain := { d.domain with
      aligned := false, alignSeq := some c.seq, alignDelay := delay, alignTheta := theta, phaseFs := d.domain.phaseFs - theta,
      alignEnd := d.time.raw + 1000 * ((theta.natAbs + 999) / 1000) }
    let l := d.domain.parent
    { d.setLink l { d.link l with delayFs := delay, peerMean := none } with domain := m }

/-- LATTICE_SLEW_END (R456): the verification measurement decides. -/
def latticeSlewEnd (residual : Int) (_ : Ctx) (d0 : Dev) : Dev :=
  match d0.domain.alignSeq with
  | none => d0
  | some n =>
    let d := advance (d0.domain.alignEnd - d0.time.raw) d0
    let m := d.domain
    let l := m.parent
    let ok := decide (residual.natAbs ≤ 500)
    let out := leI 8 m.alignDelay ++ leI 8 m.alignTheta ++ leI 8 residual ++ le 4 ((m.alignTheta.natAbs + 999) / 1000) ++ zeros 4
    let up := (d.link l).peerDepth
    let m1 : Domain := { m with alignSeq := none, aligned := ok, theta := if ok then residual else m.theta,
                                depth := if ok ∧ up ≠ 0xFF then up + 1 else m.depth }
    let finish (c : Cmd) (d : Dev) : Dev :=
      if ok then okCmd c 0x0B00 0 out false d else failCmd c { status := 0x0B17, imm := (residual % 2 ^ 32).toNat } d
    let slew (d : Dev) : Dev :=
      let d1 := { d with domain := m1 }
      endSeq (some n) finish (if ok then event 139 l (residual % 2 ^ 32).toNat d1 else d1)
    journal n slew d

/-- The correction a tracking measurement asks for takes effect (R457). -/
def takeCorrection (d : Dev) : Dev :=
  { d with domain := { d.domain with phaseFs := d.domain.phaseFs - d.domain.corr, corr := 0 } }

/-- A tracking measurement (R457). -/
def trackAlignment (theta : Int) (d : Dev) : Dev :=
  let m := d.domain
  if 5000 < theta.natAbs then
    event 140 m.parent (theta % 2 ^ 32).toNat { d with domain := { m with aligned := false, theta := theta, corr := 0 } }
  else
    let d1 := { d with domain := { m with theta := theta, corr := clampI (-100) 100 theta } }
    if running d then d1 else takeCorrection d1

/-- ALIGN_TRACK (R457), every 1 ms. -/
def alignTrack (theta : Int) (_ : Ctx) (d : Dev) : Dev :=
  if !d.domain.aligned || !linkActive (d.link d.domain.parent) then d else trackAlignment theta (paced .align d)

/-! Bring-up (R448 to R452). -/

/-- The link is in stage `n` and has not failed there. -/
def atStage (d : Dev) (l n : Nat) : Bool := (d.link l).stage = n && (d.link l).failAt.isNone

/-- LINK_RECEIVER_DETECT, every 1 ms. -/
def linkReceiverDetect (l : Nat) (found : Bool) (_ : Ctx) (d : Dev) : Dev :=
  if !atStage d l 1 then d
  else
    let d1 := paced (.detect l) d
    let k := d1.link l
    if found then enterStage l 2 (d1.setLink l { k with ctle := ctlePreset k d1.thermal.band }) else d1

/-- LINK_BIT_LOCK. -/
def linkBitLock (l : Nat) (_ : Ctx) (d : Dev) : Dev := if atStage d l 2 then enterStage l 3 d else d

/-- LINK_MARKER_LOCK (R449): on to stage 4, where credits start at 32, unacknowledged segments go again for a credit each, those received
before give none back, and the capability segment is sent (R447, R450). -/
def linkMarkerLock (l : Nat) (reversed : Bool) (skew : Nat) (x : Ctx) (d : Dev) : Dev :=
  if !atStage d l 3 then d
  else if 64 < skew then linkFail l 4 d
  else
    let k := d.link l
    let again := k.unacked.map (fun g => { g with again := true, lost := true })
    enterStage l 4 (d.setLink l { k with
      reversed := reversed, credits := 32, outstanding := 0, toReturn := 0, unacked := again, resent := again.length
      segIn := k.segIn.map (fun g => { g with lost := true }), ackAtLock := k.ack, regained := []
      sending := capabilityBytes x d :: k.sending })

/-- A capability segment (R450). -/
def isCapability (g : Segment) : Bool := fld g.bytes 0 1 = 1

/-- The parent's mean of TYPE 2 (R456). -/
def takeMean (l : Nat) (g : Segment) (d : Dev) : Dev :=
  if fld g.bytes 0 1 = 2 then d.setLink l { d.link l with peerMean := some (fldS g.bytes 8 8), peerMeanSeq := fld g.bytes 16 2 } else d

/-- What the peer's capability segment says. -/
def takeCapability (l : Nat) (g : Segment) (d : Dev) : Dev :=
  let k := d.link l
  d.setLink l { k with peerDev := fld g.bytes 1 1, peerDomain := fld g.bytes 2 2, peerDepth := fld g.bytes 4 1, peerSerial := fld g.bytes 8 8 }

/-- Firmware frees a class-2 buffer: its credit goes back (R447). -/
def freeBuffer (l : Nat) (g : Segment) (d : Dev) : Dev :=
  let k := d.link l
  d.setLink l { k with segIn := k.segIn.erase g, toReturn := if g.lost then k.toReturn else k.toReturn + 1 }

/-- CAPABILITY_EXCHANGE (R448, R450): the peer's segment has come and the delay has been measured. -/
def capabilityExchange (l : Nat) (delayFs : Int) (_ : Ctx) (d : Dev) : Dev :=
  match (if atStage d l 4 then (d.link l).segIn.find? isCapability else none) with
  | none => d
  | some g =>
    let d1 := takeCapability l g (freeBuffer l g d)
    let k := d1.link l
    let d2 := d1.setLink l { k with delayFs := delayFs }
    if d.domain.id ≠ 0 ∧ k.peerDomain = d.domain.id ∧ k.peerDev = d.domain.dev then linkFail l 6 d2
    else if 20000000 < delayFs then linkFail l 7 d2
    else
      let d3 := event 136 l 0 (enterStage l 5 (d2.setLink l { d2.link l with wasActive := false }))
      let d4 := match k.retrainAt with
        | none => d3
        | some t => publish { kind := 3, inst := l, seq := 0, start := t, finish := d3.time.lat, a := k.lostSegs, b := k.resent,
                              c := k.markedMissing, d := 0, e := 0 } d3
      endTrains l (fun c d => doneCmd c 0x0B00 d) (d4.setLink l { d4.link l with retrainAt := none, markedMissing := 0 })

/-- The limit of a stage in ns (R448). -/
def stageLimit (stage : Nat) : Nat := match stage with | 1 => 100000000 | 2 => 200000 | 3 => 1000000 | _ => 2000000

/-- LINK_STAGE_TIMEOUT (R448): stage 1 goes on sensing and reports reason 1. -/
def linkStageTimeout (l : Nat) (_ : Ctx) (d : Dev) : Dev :=
  let k := d.link l
  if k.failAt.isSome || k.stage = 0 || k.stage = 5 then d
  else
    let d1 := advance (k.stageAt + stageLimit k.stage - d.time.raw) d
    match k.stage with
    | 1 => endTrains l (fun c d => failCmd c { status := 0x0B12, imm := 1 } d) (d1.setLink l { d1.link l with reason := 1 })
    | 2 => linkFail l 2 d1
    | 3 => linkFail l 3 d1
    | _ => linkFail l 5 d1

/-- LINK_RETRY (R448): 100 ms after a failure the link is back at stage 1; a retrain that failed goes on from there, with its segments
(R525). -/
def linkRetry (l : Nat) (_ : Ctx) (d : Dev) : Dev :=
  match (d.link l).failAt with
  | none => d
  | some t =>
    let d1 := advance (t + 100000000 - d.time.raw) d
    let k := d1.link l
    enterStage l 1 (if k.retrainAt.isSome then d1
      else d1.setLink l { k with segSeq := 0, ack := 0, sending := [], unacked := [], segIn := [] })

/-- LINK_IDLE_EXIT (R452): the first frame boundary at least 80 ns after the exit began. -/
def linkIdleExit (l : Nat) (found : Bool) (_ : Ctx) (d : Dev) : Dev :=
  match (d.link l).exitAt with
  | none => d
  | some t =>
    let d0 := advance (t + 80 - d.time.raw) d
    let d1 := advanceTo (frameBoundary d0) d0
    if found then d1.setLink l { d1.link l with isIdle := false, exitAt := none } else startRetrain l d1

/-- LANE_MARKERS_MISSING (R446): on any lane for 4 consecutive frames. -/
def laneMarkersMissing (l : Nat) (_ : Ctx) (d : Dev) : Dev :=
  if (atStage d l 4 || (d.link l).stage = 5) && !(d.link l).isIdle then startRetrain l d else d

/-- CTLE_STEP (R451): one step toward the preset of the band in force. -/
def ctleStep (l : Nat) (_ : Ctx) (d : Dev) : Dev :=
  let k := d.link l
  let want := ctlePreset k d.thermal.band
  if k.stage ≠ 5 then d
  else (paced (.ctle l) d).setLink l { k with ctle := if k.ctle < want then k.ctle + 1 else if want < k.ctle then k.ctle - 1 else k.ctle }

/-! Frames out (R442 to R447). -/

/-- The order in which chords leave (R313, R454): relayed ones in arrival order, then local ones by state instant, port and
channel, fast before slow. -/
def chordBefore (dev : Nat) (a b : Nat × Chord) : Bool :=
  let ra := a.2.dev ≠ dev
  let rb := b.2.dev ≠ dev
  if ra != rb then ra
  else if ra then true
  else if a.1 ≠ b.1 then decide (a.1 < b.1)
  else if a.2.chan ≠ b.2.chan then decide (a.2.chan < b.2.chan)
  else !a.2.slow || b.2.slow

/-- The chords of a slot (R443): ready ones, of the first one's shot and the next, at most 48; and those that stay. -/
def takeChords (dev slot : Nat) (q : List (Nat × Chord)) : Nat × List (Nat × Chord) :=
  match sortBy (chordBefore dev) (q.filter (fun c => c.1 ≤ slot)) with
  | [] => (0, [])
  | c :: rest => (c.2.shot, ((c :: rest).filter (fun e => e.2.shot = c.2.shot ∨ e.2.shot = c.2.shot + 1)).take 48)

/-- The earliest fire, the lower ORIGIN breaking a tie (R444). -/
def firstFire (fs : List FireMsg) : Option FireMsg :=
  fs.foldl (fun (m : Option FireMsg) f => match m with
    | none => some f
    | some g => if f.t < g.t ∨ (f.t = g.t ∧ f.origin < g.origin) then some f else m) none

/-- The class-1 messages of a frame (R444): a repeat copy takes its field; otherwise the first pending one does, and the other
pending fires are discarded. -/
def classOne (k : Link) : Option FireMsg × Option CtrlMsg × Link :=
  let (fire, k1) := match k.fireAgain with
    | some m => (some { m with copy := true }, { k with fireAgain := none })
    | none => (firstFire k.fires, { k with fireAgain := firstFire k.fires, fires := [] })
  match k1.ctrlAgain with
  | some m => (fire, some { m with copy := true }, { k1 with ctrlAgain := none })
  | none => (fire, k1.ctrls.head?, { k1 with ctrlAgain := k1.ctrls.head?, ctrls := k1.ctrls.tail })

/-- The class-2 segment of a frame (R447): one to resend first, then a new one while credits last; one whose credit a retrain has taken
takes one as well. -/
def classTwo (k : Link) : Option Segment × Link :=
  match k.unacked.find? (·.again) with
  | some g =>
    let k1 := { k with unacked := k.unacked.map (fun q => if q.seq = g.seq then { q with again := false, age := 0, lost := false } else q) }
    if !g.lost then (some g, k1)
    else if k.credits = 0 then (none, k)
    else (some { g with lost := false }, { k1 with credits := k.credits - 1, outstanding := k.outstanding + 1 })
  | none => match k.sending with
    | [] => (none, k)
    | b :: rest =>
      if k.credits = 0 then (none, k)
      else
        let g : Segment := { seq := addW 16 k.segSeq 1, bytes := b }
        (some g, { k with segSeq := g.seq, sending := rest, unacked := k.unacked ++ [g], credits := k.credits - 1,
                          outstanding := k.outstanding + 1 })

/-- The parent's mean over 4,096 frames of a child's link, in a segment of TYPE 2 (R456): the mean in fs and SEQ of the first frame. -/
def sendMean (l : Nat) (mean : Option (Int × Nat)) (d : Dev) : Dev :=
  match mean with
  | none => d
  | some (v, seq) =>
    let k := d.link l
    if !linkActive k || d.domain.id = 0 || isParent d l then d
    else d.setLink l { k with sending := k.sending ++ [le 1 2 ++ zeros 7 ++ leI 8 v ++ le 2 seq ++ zeros 14] }

/-- LINK_FRAME_TRANSMIT (R442): one frame at each slot, from stage 3 on, where its marker is what the peer looks for (R449). Segments
go from stage 4 on, and classes 0 and 1 on a timed link (R444, R448). `mean` is a mean that the device has measured as parent. -/
def linkFrameTransmit (l : Nat) (mean : Option (Int × Nat)) (_ : Ctx) (d9 : Dev) : Dev :=
  let d0 := sendMean l mean d9
  let k0 := d0.link l
  if k0.stage < 3 ∨ k0.failAt.isSome ∨ k0.isIdle then d0
  else
    let here := frameBoundary d0
    let slot := if k0.lastSlot = some here then here + 16 else here
    let d := closeCrcWindow l (advanceTo slot d0)
    let k := d.link l
    let (base, out) := if k.timed then takeChords d.domain.dev slot k.chordQ else (0, [])
    let late := (out.filter (fun c => 16 * ((c.1 + 15) / 16) < slot)).length
    let (fire, ctrl, k1) := if k.timed then classOne k else (none, none, k)
    let aged : Link := { k1 with unacked := k1.unacked.map (fun g => { g with age := g.age + 1 }) }
    let (seg, k2) := if k.stage = 3 then (none, aged) else classTwo aged
    let ret := if k.stage = 3 then 0 else min 32 k2.toReturn
    let f : LinkFrame := { seq := k2.seq, slot := slot / 16 % 2 ^ 32, shotBase := base, timed := k2.timed, ack := k2.ack,
                           chords := out.map (·.2), fire := fire, ctrl := ctrl, creditRet := ret, seg := seg }
    let k3 : Link := { k2 with seq := addW 16 k2.seq 1, lastSlot := some slot, toReturn := k2.toReturn - ret,
                               chordQ := out.foldl (fun q c => q.erase c) k2.chordQ }
    { d.setLink l (sendLanes k3 (frameBytes f)) with chords := { d.chords with slotDefer := addW 64 d.chords.slotDefer late } }

/-- SEGMENT_RESEND (R447): the oldest segment not acknowledged within 64 frames goes again under its SEG_SEQ. -/
def segmentResend (l : Nat) (_ : Ctx) (d : Dev) : Dev :=
  let k := d.link l
  match k.unacked.find? (fun g => decide (64 ≤ g.age) && !g.again) with
  | none => d
  | some g => d.setLink l { k with unacked := k.unacked.map (fun q => if q.seq = g.seq then { q with again := true } else q) }

/-! Frames in (R444 to R447, R454). -/

/-- A CRC failure (R446): counted; link-error is raised for each 1 ms that holds one, and 16 within 1 ms retrain the link. -/
def crcFail (l : Nat) (d : Dev) : Dev :=
  let k := d.link l
  let recent := (k.crcTimes ++ [d.time.raw]).filter (fun t => decide (d.time.raw < t + 1000000))
  let fresh := k.crcWindow = 0 || decide (k.crcWindowAt + 1000000 ≤ d.time.raw)
  let k1 : Link := { k with crcErrors := addW 64 k.crcErrors 1, crcTimes := recent,
                            crcWindow := if fresh then 1 else k.crcWindow + 1,
                            crcWindowAt := if fresh then d.time.raw else k.crcWindowAt }
  let d1 := d.setLink l k1
  if 16 ≤ recent.length then startRetrain l d1 else d1

/-- The segment of this SEG_SEQ came before the bring-up in force, and has not come since: its sender has taken a credit anew for it. -/
def comesAgain (k : Link) (g : Segment) : Bool :=
  decide ((k.ackAtLock + 2 ^ 16 - g.seq) % 2 ^ 16 < 2 ^ 15) && !k.regained.contains g.seq

/-- A duplicate is discarded (R447). One that took a credit anew gives it back with its buffer, or at once where that is free already. -/
def dropDuplicate (k : Link) (g : Segment) : Link :=
  if !comesAgain k g then k
  else
    let held := k.segIn.any (fun q => q.seq = g.seq)
    { k with regained := k.regained ++ [g.seq], toReturn := if held then k.toReturn else k.toReturn + 1
             segIn := k.segIn.map (fun q => if q.seq = g.seq then { q with lost := false } else q) }

/-- Acknowledgements, credits and the segment of an intact frame (R447): in order or not at all. -/
def classTwoIn (k : Link) (f : LinkFrame) : Link :=
  let acked (g : Segment) : Bool := decide ((f.ack + 2 ^ 16 - g.seq) % 2 ^ 16 < 2 ^ 15)
  let k1 : Link := { k with unacked := k.unacked.filter (fun g => !acked g), credits := k.credits + f.creditRet,
                            outstanding := k.outstanding - f.creditRet }
  match f.seg with
  | none => k1
  | some g =>
    if g.seq = addW 16 k.ack 1 ∧ k1.segIn.length < 32 then { k1 with ack := g.seq, segIn := k1.segIn ++ [g] }
    else if (k.ack + 2 ^ 16 - g.seq) % 2 ^ 16 < 2 ^ 15 then dropDuplicate k1 g
    else k1

/-- LINK_FRAME_RECEIVE (R445, R446): an intact frame is held; class 2 is served at once. -/
def linkFrameReceive (l : Nat) (bytes : List Byte) (offNs : Int) (_ : Ctx) (d0 : Dev) : Dev :=
  let d := closeCrcWindow l d0
  let k := d.link l
  if k.stage < 4 ∨ k.failAt.isSome ∨ k.isIdle then d
  else match frameOf bytes with
    | none => crcFail l d
    | some f =>
      let timed := k.stage = 5 && d.domain.id ≠ 0 && k.peerDomain = d.domain.id && decide (offNs.natAbs ≤ 4)
      let d1 := if k.timed && !timed then stopTimed l d else d
      let k1 := classTwoIn (d1.link l) f
      d1.setLink l { k1 with timed := timed, held := k1.held ++ [f] }

/-- The slot a frame names, nearest this device's lattice time (R445). -/
def slotNear (lat slot : Nat) : Nat :=
  let here := lat / 16
  let up := here + (slot + 2 ^ 32 - here % 2 ^ 32) % 2 ^ 32
  if here + 2 ^ 31 < up ∧ 2 ^ 32 ≤ up then up - 2 ^ 32 else up

/-- Traffic of this source is accepted on the link (R454). -/
def accepts (d : Dev) (l src : Nat) : Bool := Store.get 0 d.domain.ingress src = l

/-- Traffic from elsewhere is discarded and counted (R454). -/
def misroute (l : Nat) (d : Dev) : Dev := d.setLink l { d.link l with misrouted := addW 32 (d.link l).misrouted 1 }

/-- The timed links a source's traffic is relayed on (R454). -/
def relays (d : Dev) (src : Nat) : List Nat :=
  [0, 1, 2, 3].filter fun j => (Store.get 0 d.domain.relay j).getLsbD src && linkTimed (d.link j)

/-- A received chord: delivered, and relayed in the slot 16 ticks later (R312, R454). -/
def chordIn (l : Nat) (c : Chord) (d : Dev) : Dev :=
  if !accepts d l c.dev then misroute l d
  else
    let d1 := storeChord c { d with chords := { d.chords with remoteRecv := addW 64 d.chords.remoteRecv 1 } }
    d1.forAll (relays d1 c.dev) fun j d => d.setLink j { d.link j with chordQ := (d.link j).chordQ ++ [(d.time.lat + 16, c)] }

/-- A received fire: the first intact copy is acted on, and relayed (R444, R454). -/
def fireArrives (l : Nat) (m : FireMsg) (d : Dev) : Dev :=
  if !accepts d l m.origin then misroute l d
  else
    let k := d.link l
    if k.seenFires.contains (m.origin, m.t) then d
    else
      let d1 := d.setLink l { k with seenFires := k.seenFires ++ [(m.origin, m.t)], fireIn := k.fireIn ++ [{ m with copy := false }] }
      d1.forAll (relays d1 m.origin) fun j d => d.setLink j { d.link j with fires := (d.link j).fires ++ [{ m with copy := false }] }

/-- A received control message (R444, R454). -/
def ctrlArrives (l : Nat) (m : CtrlMsg) (d : Dev) : Dev :=
  if !accepts d l m.origin then misroute l d
  else
    let k := d.link l
    if k.seenCtrls.contains (m.type, m.origin, m.armAt) then d
    else
      let d1 := d.setLink l { k with seenCtrls := k.seenCtrls ++ [(m.type, m.origin, m.armAt)], ctrlIn := k.ctrlIn ++ [{ m with copy := false }] }
      d1.forAll (relays d1 m.origin) fun j d => d.setLink j { d.link j with ctrls := (d.link j).ctrls ++ [{ m with copy := false }] }

/-- LINK_FRAME_RELEASE (R445): the oldest held frame's contents reach the die at 16 × SLOT + 48. -/
def linkFrameRelease (l : Nat) (_ : Ctx) (d : Dev) : Dev :=
  let k := d.link l
  match k.held with
  | [] => d
  | f :: rest =>
    let d1 := (if k.timed then advanceTo (16 * slotNear d.time.lat f.slot + 48) d else d).setLink l { k with held := rest }
    if !linkTimed k then d1
    else
      let d2 := f.chords.foldl (fun d c => chordIn l c d) d1
      let d3 := match f.fire with | none => d2 | some m => fireArrives l m d2
      match f.ctrl with | none => d3 | some m => ctrlArrives l m d3

/-- SEGMENT_RECEIVE (R447): firmware takes the oldest class-2 segment and frees its buffer. -/
def segmentReceive (l : Nat) (_ : Ctx) (d : Dev) : Dev :=
  match (d.link l).segIn with
  | [] => d
  | g :: _ =>
    let d1 := freeBuffer l g d
    if isCapability g then takeCapability l g d1 else takeMean l g d1

/-! The rows. -/
def execLnkStatus (mb : Fin 32) (h : HostSide) (s : State) : Host.Outcome State Fault Refusal := cmdRow lnkStatusSpec mb h s
def execLnkConfig (mb : Fin 32) (h : HostSide) (s : State) : Host.Outcome State Fault Refusal := cmdRow lnkConfigSpec mb h s
def execLnkTrain (mb : Fin 32) (h : HostSide) (s : State) : Host.Outcome State Fault Refusal := cmdRow lnkTrainSpec mb h s
def execLnkDomain (mb : Fin 32) (h : HostSide) (s : State) : Host.Outcome State Fault Refusal := cmdRow lnkDomainSpec mb h s
def execLnkAlign (mb : Fin 32) (h : HostSide) (dPC dCP : Int) (s : State) : Host.Outcome State Fault Refusal :=
  cmdRow (lnkAlignSpec dPC dCP) mb h s
def execLinkFrameTransmit (link : Fin 4) (s : State) (mean : Option (Int × Nat) := none) : Host.Outcome State Fault Refusal :=
  .next (s.on (linkFrameTransmit link.val mean))
def execLinkFrameReceive (link : Fin 4) (bytes : List Byte) (offNs : Int) (s : State) : Host.Outcome State Fault Refusal :=
  .next (s.on (linkFrameReceive link.val bytes offNs))
def execLinkFrameRelease (link : Fin 4) (s : State) : Host.Outcome State Fault Refusal := .next (s.on (linkFrameRelease link.val))
def execLinkReceiverDetect (link : Fin 4) (found : Bool) (s : State) : Host.Outcome State Fault Refusal :=
  .next (s.on (linkReceiverDetect link.val found))
def execLinkBitLock (link : Fin 4) (s : State) : Host.Outcome State Fault Refusal := .next (s.on (linkBitLock link.val))
def execLinkMarkerLock (link : Fin 4) (reversed : Bool) (skewUi : Nat) (s : State) : Host.Outcome State Fault Refusal :=
  .next (s.on (linkMarkerLock link.val reversed skewUi))
def execCapabilityExchange (link : Fin 4) (delayFs : Int) (s : State) : Host.Outcome State Fault Refusal :=
  .next (s.on (capabilityExchange link.val delayFs))
def execLinkStageTimeout (link : Fin 4) (s : State) : Host.Outcome State Fault Refusal := .next (s.on (linkStageTimeout link.val))
def execLinkRetry (link : Fin 4) (s : State) : Host.Outcome State Fault Refusal := .next (s.on (linkRetry link.val))
def execSegmentReceive (link : Fin 4) (s : State) : Host.Outcome State Fault Refusal := .next (s.on (segmentReceive link.val))
def execSegmentResend (link : Fin 4) (s : State) : Host.Outcome State Fault Refusal := .next (s.on (segmentResend link.val))
def execCtleStep (link : Fin 4) (s : State) : Host.Outcome State Fault Refusal := .next (s.on (ctleStep link.val))
def execLinkIdleExit (link : Fin 4) (markersFound : Bool) (s : State) : Host.Outcome State Fault Refusal :=
  .next (s.on (linkIdleExit link.val markersFound))
def execAlignTrack (thetaFs : Int) (s : State) : Host.Outcome State Fault Refusal := .next (s.on (alignTrack thetaFs))
def execLatticeSlewEnd (residualFs : Int) (s : State) : Host.Outcome State Fault Refusal := .next (s.on (latticeSlewEnd residualFs))
def execLaneMarkersMissing (link : Fin 4) (s : State) : Host.Outcome State Fault Refusal := .next (s.on (laneMarkersMissing link.val))

end Sys2Proof.Machine
end

