-- ==== Sys2Proof/Machine/Undo.lean ====
section
/-! DEFINITION. Undoing what commands have changed of the shared blocks, where they fail with 0x001E or 0x00FF (R80, R85, R89; log entry
106): each field returns to what stood before, unless something has set it anew since. -/

namespace Sys2Proof.Machine

/-- A field that stood at `b` before a command and at `a` after it, and is `c` now. -/
def back {α : Type} [DecidableEq α] (b a c : α) : α := if c = a then b else c

/-- A counter that the command cleared counts on from where it stood. -/
def regain (b a c : Nat) : Nat := c + (b - a)

/-- The counter at place `i` of a list. -/
def regainAt (b a : List Nat) (i c : Nat) : Nat := regain (b.getD i 0) (a.getD i 0) c

/-- What one command has added to a list is gone from it, and what it has taken out of it is back. -/
def backList {α : Type} [DecidableEq α] (b a c : List α) : List α :=
  c.filter (fun v => !a.contains v || b.contains v) ++ b.filter (fun v => !a.contains v && !c.contains v)

/-- The entries of a table, each like a field. -/
def backStore {α : Type} [DecidableEq α] (dflt : α) (b a c : Store α) : Store α :=
  ((b ++ a).map (·.1)).foldl (fun s k =>
    if Store.get dflt b k = Store.get dflt a k then s else Store.set dflt s k (back (Store.get dflt b k) (Store.get dflt a k) (Store.get dflt s k))) c

/-- `put` for every entry that the command changed. -/
def forChanged {α : Type} [DecidableEq α] (dflt : α) (b a : Store α) (put : Nat → α → α → Dev → Dev) (d : Dev) : Dev :=
  d.forAll (((b ++ a).map (·.1)).eraseDups.filter fun k => Store.get dflt b k ≠ Store.get dflt a k) fun k d =>
    put k (Store.get dflt b k) (Store.get dflt a k) d

/-! Ports, channels and the marker stage. -/

def undoPort (i : Nat) (b a : PortSet) (d : Dev) : Dev :=
  let p := d.port i
  let n := regainAt b.counts a.counts
  let level := back b.level a.level (p.dc, p.target, p.ramp)
  let causes := backList b.causes a.causes p.causes
  let cond := back b.cond a.cond (p.safe, p.entered, p.resumed)
  let sense := back b.sense a.sense (p.sense, p.lastSense)
  d.setPort i { p with
    cfg := back b.cfg a.cfg p.cfg, dc := level.1, target := level.2.1, ramp := level.2.2
    causes := causes, safe := cond.1 || !causes.isEmpty, entered := cond.2.1, resumed := cond.2.2
    sense := sense.1, lastSense := sense.2
    released := n 0 p.released, clipped := n 1 p.clipped, underrun := n 2 p.underrun, windows := n 3 p.windows
    discarded := n 4 p.discarded, overRange := n 5 p.overRange }

/-- A channel's configuration keeps its distance from a lattice time that has been loaded since (R158). -/
def undoChan (i : Nat) (b a : ChanSet) (d : Dev) : Dev :=
  let q := d.chan i
  let still (g : ChanCfg) : ChanCfg := { g with lag := 0 }
  let moved := still b.cfg ≠ still a.cfg && still q.cfg = still a.cfg
  let states := (b.states.map (·.1)).foldl (fun s k =>
    Store.set 0 s k (regain (Store.get 0 b.states k) (Store.get 0 a.states k) (Store.get 0 s k))) q.states
  d.setChan i { q with
    cfg := if moved then { b.cfg with lag := b.cfg.lag + q.cfg.lag - a.cfg.lag } else q.cfg
    windows := regain b.counts.1 a.counts.1 q.windows, saturated := regain b.counts.2 a.counts.2 q.saturated, states := states }

/-- The pins keep their levels (R475). -/
def undoMarker (b a : Shared) (m : Marker) : Marker :=
  let n := regainAt b.markCounts a.markCounts
  let pins := back b.pinStates a.pinStates (m.idle, m.safeSt, m.failShot)
  let causes := backList b.markCauses a.markCauses m.causes
  let cond := back b.markCond a.markCond (m.safe, m.entered)
  let fails := if a.markFails = [] then b.markFails ++ m.fails else m.fails
  { m with
    vectors := backStore {} b.vectors a.vectors m.vectors, tsets := backStore {} b.tsets a.tsets m.tsets
    idle := pins.1, safeSt := pins.2.1, failShot := pins.2.2, owned := back b.owned a.owned m.owned
    causes := causes, safe := cond.1 || !causes.isEmpty, entered := cond.2
    items := n 0 m.items, failPeriods := n 1 m.failPeriods, failStrobes := n 2 m.failStrobes, fails := fails.drop (fails.length - 16) }

/-! Time. -/

/-- The selection of a reference is taken back: the PLL pulls in to the one that was selected, where it is present (R117, R119). -/
def undoRef (b a : Bool × Bool) (d : Dev) : Dev :=
  let l := d.lattice
  let r := back b a (l.refPN, l.fallback)
  let l1 : Lattice := { l with refPN := r.1, fallback := r.2 }
  if r.1 = l.refPN then { d with lattice := l1 }
  else event 58 (flag r.1 0) 0 { d with lattice := { l1 with pullIn := refPresent l1, holdover := !refPresent l1 } }

/-- Lattice time is loaded back to where it would stand (R149). -/
def undoLoad (b a : Nat × Nat) (d : Dev) : Dev :=
  if b = a || d.time.loads ≠ a.1 then d
  else
    let d1 := loadLattice ((d.time.raw + b.2) % 2 ^ 64) d
    { d1 with time := { d1.time with loads := b.1 } }

/-- A pulse generator has the schedule it had; targets that have passed meanwhile are skipped (R412). -/
def undoGen (n : Nat) (b a : WallGen) (d : Dev) : Dev :=
  let g := d.gen n
  let plan (g : WallGen) : WallGen := { g with target := 0, left := 0, pulseEnd := none, pulsePin := 0 }
  if plan g = plan a then skipTargets (wallNow d) n (d.setGen n { b with pulseEnd := g.pulseEnd, pulsePin := g.pulsePin }) else d

/-! The acquisition engine. -/

/-- The configuration of a ring, and the same without the geometry that waits. -/
def AcqRing.plan (r : AcqRing) : AcqRing :=
  { enabled := r.enabled, everEnabled := r.everEnabled, kind := r.kind, geo := r.geo, ctrl := r.ctrl, gen := r.gen, staged := r.staged }

/-- A ring that a command has taken down or set up is as it was; else only what waits and what the host has read of it is. -/
def undoRing (n : Nat) (b a : AcqRing) (d : Dev) : Dev :=
  let r := d.acqRing n
  if r.plan ≠ a.plan then d
  else if { b.plan with staged := none } = { a.plan with staged := none } then
    d.setAcqRing n { r with staged := b.staged, read := back b.read a.read r.read, rebased := back b.rebased a.rebased r.rebased }
  else d.setAcqRing n b

/-- A unit's configuration, and whether it is armed; a record in progress, or cut by the command, is not touched (R476). -/
def undoUnit (n : Nat) (b a : UnitSet) (d : Dev) : Dev :=
  let u := d.unit n
  let c := regainAt b.counts a.counts
  let arm := if b.arm.1 = .capturing then (u.st, u.continuous, u.left) else back b.arm a.arm (u.st, u.continuous, u.left)
  d.setUnit n { u with
    cfg := back b.cfg a.cfg u.cfg, maskTab := backStore maskReset b.maskTab a.maskTab u.maskTab
    st := arm.1, continuous := arm.2.1, left := arm.2.2
    records := c 0 u.records, failed := c 1 u.failed, missed := c 2 u.missed, violating := c 3 u.violating, lateFires := c 4 u.lateFires }

/-! Links and the domain. -/

/-- A link's ENABLE, IDLE and codes are set back as LNK_CONFIG would (R461). -/
def undoLink (l : Nat) (b a : LinkSet) (d : Dev) : Dev :=
  let k := d.link l
  let c := regainAt b.counts a.counts
  let d1 := d.setLink l { k with delayFs := back b.delayFs a.delayFs k.delayFs, crcErrors := c 0 k.crcErrors, retrains := c 1 k.retrains
                                 misrouted := c 2 k.misrouted }
  let same (p q : LinkSet) : Bool := (p.enable, p.idle, p.ctleCodes) = (q.enable, q.idle, q.ctleCodes)
  if !same b a && same k.set a then configLink l b.enable b.idle b.ctleCodes d1 else d1

/-- The routes of a domain. -/
def Domain.routes (m : Domain) : Domain := { id := m.id, dev := m.dev, parent := m.parent, ingress := m.ingress, relay := m.relay }

/-- Routes that were changed are as they were, and the links retrain (R463); an alignment is taken back (R456). -/
def undoDomain (b a : Domain) (d : Dev) : Dev :=
  let m := d.domain
  let still (g : Domain) : Domain := { g with corr := 0, theta := 0, phaseFs := 0 }
  if b = a || still m ≠ still a then d
  else
    let m1 : Domain := { b with corr := m.corr, theta := back b.theta a.theta m.theta, phaseFs := m.phaseFs + b.phaseFs - a.phaseFs
                                alignSeq := b.alignSeq.filter (fun n => (cmdOf d n).isSome) }
    let d1 := { d with domain := m1 }
    if b.routes = a.routes then d1 else retrainActive d1

/-! Temperature, housekeeping, counters. -/

def undoExtend (b a : Bool × Option Bool) (t : Thermal) : Thermal :=
  if b = a then t
  else if t.extendNext = a.2 then { t with extendNext := b.2 }
  else if a.2 = some t.extend then { t with extend := b.1 } else t

def undoDiode (n : Nat) (b a : Int × Nat) (d : Dev) : Dev :=
  let q := d.remote n
  let v := back b a (q.limit, q.ideal)
  d.setRemote n { q with limit := v.1, ideal := v.2 }

def undoRail (n : Nat) (b a : Int × Int) (d : Dev) : Dev :=
  let r := d.rail n
  if b = a then d else d.setRail n { r with vMin := min b.1 r.vMin, vMax := max b.2 r.vMax }

def undoChords (b a : List Nat) (n : Chords) : Chords :=
  let c := regainAt b a
  { n with fastSent := c 0 n.fastSent, slowSent := c 1 n.slowSent, missingSent := c 2 n.missingSent, remoteRecv := c 3 n.remoteRecv
           decisions := c 4 n.decisions, fbMissing := c 5 n.fbMissing, fbLate := c 6 n.fbLate, slotDefer := c 7 n.slotDefer }

def undoDiscards (b a c : Store Discards) : Store Discards :=
  (b.map (·.1)).foldl (fun s k =>
    let v := Store.get {} s k
    let u := Store.get {} b k
    let w := Store.get {} a k
    Store.set {} s k { late := regain u.late w.late v.late, other := regain u.other w.other v.other }) c

/-! One entry of the journal, and all that a failure undoes. -/

/-- Fields of one command's own, in the blocks that hold them. -/
def undoFields (b a : Shared) (d : Dev) : Dev :=
  let sync := back b.sync a.sync (d.lattice.follow, d.lattice.falling, d.lattice.lead)
  let wall := back b.wall a.wall (d.time.w0, d.time.r0, d.time.rate)
  let steps := back b.steps a.steps (d.time.stepped, d.time.steps)
  let cal := back b.cal a.cal (d.cal.background, d.cal.commitS, d.cal.commitAt)
  let bench := back b.bench a.bench (d.bench.hard, d.bench.latch, d.bench.senseOff, d.bench.auto)
  let hold := back b.hold a.hold (d.bench.hold, d.bench.resumeHold)
  let mirror := back b.mirror a.mirror (d.mirror.takeover, d.mirror.shadow, d.mirror.autoRecover)
  let staged := back b.staged a.staged (d.images.staged, d.images.stagedInEnv)
  { d with
    env := backStore 0 b.env a.env d.env, pages := backStore none b.pages a.pages d.pages, marker := undoMarker b a d.marker
    lattice := { d.lattice with period := back b.period a.period d.lattice.period, armed := back b.armed a.armed d.lattice.armed
                                follow := sync.1, falling := sync.2.1, lead := sync.2.2 }
    time := { d.time with w0 := wall.1, r0 := wall.2.1, rate := wall.2.2, stepped := steps.1, steps := steps.2 }
    acq := { d.acq with group := back b.group a.group d.acq.group }
    cal := { d.cal with background := cal.1, commitS := cal.2.1, commitAt := cal.2.2 }
    bench := { d.bench with hard := bench.1, latch := bench.2.1, senseOff := bench.2.2.1, auto := bench.2.2.2
                            ind := backStore 0 b.ind a.ind d.bench.ind, hold := hold.1, resumeHold := hold.2 }
    thermal := undoExtend b.extend a.extend d.thermal
    house := { d.house with lowPower := back b.lowPower a.lowPower d.house.lowPower }
    chords := undoChords b.chords a.chords d.chords
    discards := undoDiscards b.discards a.discards d.discards, discardTotal := regain b.discardTotal a.discardTotal d.discardTotal
    mirror := { d.mirror with takeover := mirror.1, shadow := mirror.2.1, autoRecover := mirror.2.2 }
    images := { d.images with staged := staged.1, stagedInEnv := staged.2 } }

/-- An event input's conditioning; the phase of its prescaler stays open (R397). -/
def undoInput (n : Nat) (b a : Nat × Nat × Nat) (d : Dev) : Dev :=
  let e := d.evIn n
  let v := back b a (e.hyst, e.prescale, e.holdoff)
  { d with tim := { d.tim with inputs := Store.set {} d.tim.inputs n { e with hyst := v.1, prescale := v.2.1, holdoff := v.2.2 } } }

/-- What one command changed in one go is undone. -/
def undoOne (u : Undo) (d : Dev) : Dev :=
  let b := u.before
  let a := u.after
  let d1 := undoRef b.refSel a.refSel (undoLoad b.loaded a.loaded (undoFields b a d))
  let d2 := forChanged (({} : Port).set) b.ports a.ports undoPort (forChanged (({} : Chan).set) b.chans a.chans undoChan d1)
  let d3 := forChanged {} b.rings a.rings undoRing (forChanged (({} : CapUnit).set) b.units a.units undoUnit d2)
  let d4 := forChanged (({} : Link).set) b.links a.links undoLink (undoDomain b.domain a.domain d3)
  let d5 := forChanged (0, 0, 2) b.inputs a.inputs undoInput (forChanged {} b.gens a.gens undoGen d4)
  setExtension (forChanged (1360, 10080) b.diodes a.diodes undoDiode (forChanged (0, 0) b.rails a.rails undoRail d5))

/-- Shared blocks wait for none of these commands any more. -/
def forget (gone : Nat → Bool) (d : Dev) : Dev :=
  let stay (n : Nat) : Bool := !gone n
  { d with
    envCopies := d.envCopies.filter (fun e => stay e.seq)
    lattice := { d.lattice with pullSeqs := d.lattice.pullSeqs.filter stay, armed := d.lattice.armed.filter (fun a => stay a.seq) }
    links := d.links.map (fun kv => (kv.1, { kv.2 with trainSeqs := kv.2.trainSeqs.filter stay }))
    domain := { d.domain with alignSeq := d.domain.alignSeq.filter stay }
    acq := { d.acq with units := d.acq.units.map (fun kv => (kv.1, { kv.2 with stopSeqs := kv.2.stopSeqs.filter stay }))
                        masters := d.acq.masters.filter (fun m => stay m.seq) }
    house := { d.house with conv := d.house.conv.filter (fun v => stay v.seq) }
    images := { d.images with loadSeq := d.images.loadSeq.filter stay } }

/-- What these commands have changed of the shared blocks is undone, the newest change first (R80, R89). -/
def undoCommands (gone : Nat → Bool) (d : Dev) : Dev :=
  let out := d.mirror.undo.filter (fun u => gone u.seq)
  forget gone (out.foldl (fun d u => undoOne u d) { d with mirror := { d.mirror with undo := d.mirror.undo.filter (fun u => !gone u.seq) } })

end Sys2Proof.Machine
end

