-- ==== Sys2Proof/Machine/MirrorOps.lean ====
section
/-! DEFINITION. The mirror core's shared operations (17): standby states and REDUND (R479), copy epochs (R467 to R470), the
takeover (R475), the end of its gap and its report at M(j) (R476 to R478), and the loss of a core with no takeover (R30, R97). -/

namespace Sys2Proof.Machine

/-! Standby state (R479). -/

/-- REDUND of a standby state (R479). -/
def redundOf (standby : Nat) (pathFault : Bool) : Nat :=
  match standby with
  | 0 => 0 | 1 => 3 | 2 => 2 | 3 => 2 | 4 => if pathFault then 2 else 1 | 5 => 2 | _ => 3

/-- HIF_STATE.REDUND follows the standby; a change raises source 47 (R43). -/
def setRedund (d : Dev) : Dev :=
  let n := redundOf d.mirror.standby (d.mirror.onDieFault || d.mirror.offDieFault)
  if n = d.hif.redund then d else eventState { d with hif := { d.hif with redund := n } }

/-- Completions that waited for an epoch may go out: the epoch has closed, or the standby follows none any more (R470). What a
switch-over will end waits for its report. -/
def releaseWaiting (d : Dev) : Dev :=
  if d.mirror.sw.isSome then d
  else d.forAll (List.range 32) fun m d =>
    postAllHeld m (d.setMb m { d.mb m with held := (d.mb m).held.map (fun k => { k with waitsEpoch := false }) })

/-- The self-test passes of a running standby are counted up to now (R482): one for every 10 s, and how many more, and when the last of those
ended, are free values (log entry 58). -/
def settleBist (d : Dev) : Dev :=
  let m := d.mirror
  let past := d.time.raw - m.bistFrom
  let span := m.bistRest + past
  let more := freeValue d % (past + 1)
  let rest := if more = 0 then span % 10000000000 else Config.free (d.freeCtr + 1) % (min past 9999999999 + 1)
  if m.standby < 3 then d
  else
    let passes := addW 64 m.bistPasses (span / 10000000000 + more)
    useFrees 2 { d with mirror := { m with bistPasses := passes, bistFrom := d.time.raw, bistRest := rest } }

/-- The self-test of a standby that has begun to run begins. -/
def startBist (was : Nat) (d : Dev) : Dev :=
  if was < 3 ∧ 3 ≤ d.mirror.standby then { d with mirror := { d.mirror with bistFrom := d.time.raw, bistRest := 0 } } else d

/-- The standby enters a state: the standby-state event, then REDUND (R479); its self-test runs from state 3 on (R482). -/
def setStandby (n : Nat) (d0 : Dev) : Dev :=
  if n = d0.mirror.standby then setRedund d0
  else
    let d := if n < 3 then settleBist d0 else d0
    let d1 := startBist d.mirror.standby (setRedund (event 155 0xFFFF n { d with mirror := { d.mirror with standby := n } }))
    if followsEpochs d && !followsEpochs d1 then releaseWaiting d1 else d1

/-- HIF_FW and HIF_IL report the image the active core runs (R43, R115). -/
def showImage (d : Dev) : Dev :=
  let i := d.mirror.imgActive
  { d with hif := { d.hif with fwMajor := i.fwMajor, fwMinor := i.fwMinor, fwBuild := i.build, ilLow := i.ilLow, ilHigh := i.ilHigh } }

/-! Copy epochs (R467, R470). -/

/-- The active core closes an epoch with resume point `r`. -/
def closeEpochAt (r : Resume) (d : Dev) : Dev :=
  let n := d.mirror.epochs + 1
  let d1 := { d with mirror := { d.mirror with
    closed := some (n, d.core, r), epochs := n, epochLt := d.time.lat, point := r } }
  if followsEpochs d1 then releaseWaiting d1 else d1

/-- The active core of a D part closes an epoch with this resume point, and checks the ledgers (R467, R526). -/
def closeEpoch (r : Resume) (x : Ctx) (d : Dev) : Dev := if x.fuse.duplex then checkLedgers (closeEpochAt r d) else d

/-- The resume point inside a shot: that of the last meridian's close, and before M(0) the opening of shot 0 (R468). -/
def insideResume (d : Dev) : Resume := if running d && 0 < d.core.run.k then d.mirror.point else d.mirror.resume

/-- The standby applies the epoch closed last (R467): at a new resume point it has what it runs that shot from (R481). -/
def applyClosed (d : Dev) : Dev :=
  match d.mirror.closed with
  | none => d
  | some (n, c, r) => { d with mirror := { d.mirror with
      copy := c, copyResume := r, copyEpoch := n, closed := none
      shadowFrom := if r.shot = d.mirror.copyResume.shot ∧ d.mirror.copyEpoch ≠ 0 then d.mirror.shadowFrom else c } }

/-! Image slots (R98, R111). -/

/-- An image slot's contents. -/
def slotImage (i : Images) (slot : Nat) : Image := if slot = 0 then i.slot0 else i.slot1
def setSlotImage (slot : Nat) (v : Image) (i : Images) : Images := if slot = 0 then { i with slot0 := v } else { i with slot1 := v }

/-- A flash write cut short leaves its slot invalid (R111). -/
def cutWrite (d : Dev) : Dev :=
  if d.images.writeSeq.isNone then d else { d with images := setSlotImage d.images.writeSlot {} { d.images with writeSeq := none } }

/-- The command of a flash write is gone, or a switch-over will end it: the write is cut short. -/
def cutDoomedWrite (d : Dev) : Dev :=
  match d.images.writeSeq with
  | none => d
  | some n => if (cmdOf d n).any (fun c => !c.dead) then d else cutWrite d

/-! The takeover (R473, R475, R476). -/

/-- The standby may take over on the loss of the active core (R472). -/
def mayTakeOver (d : Dev) : Bool := d.mirror.standby = 4 && d.mirror.takeover && d.mirror.sw.isNone

/-- Every item queued or playing, and every token in flight, is discarded with "switch-over"; marker pins keep their levels. -/
def discardEverything (x : Ctx) (d0 : Dev) : Dev :=
  let d := settleMark (settlePorts d0)
  let d1 := (flushFabric Cause.switchOver d).forAll x.fuse.indices (flushStage Cause.switchOver true)
  match d1.marker.play with
  | none => d1
  | some p => discardItem Cause.switchOver p.item { d1 with marker := { d1.marker with play := none } }

/-- Every drive, flux and probe port that is not off enters the held condition, and goes on showing the code it shows (R172, R174). DEDUCED
(log entry 145): one that is safe as well, as R475 says of every port; from M(j) on it is safe again where its causes still stand. -/
def holdPorts (x : Ctx) (d : Dev) : Dev :=
  d.forAll (outputs x.fuse) fun i d =>
    match portCode d i with
    | some v => d.setPort i { d.port i with held := true, heldCode := v }
    | none => d

/-- Ports leave the held condition. -/
def releasePorts (d : Dev) : Dev := { d with ports := d.ports.map (fun kv => (kv.1, { kv.2 with held := false })) }

/-- A measurement and a capture that have been armed go on (R476). -/
def outlasts (op : Nat) : Bool := op = 0x0902 || op = 0x0705

/-- A copied command whose work is redone from the copy, where the deposed core had ended it: one not begun, one staged, a standalone
kernel (R298), a commit that the gap cut short (R386). What had begun in a shared block goes on. -/
def redone (c : Cmd) : Bool := (!c.begun && !outlasts c.op) || c.staged || c.op = 0x0604 || c.op = 0x0806

/-- The copied command of an acceptance number. -/
def copied (d : Dev) (seq : Nat) : Option Cmd := d.mirror.copy.cmds.find? (fun c => c.seq = seq)

/-- Commands after the restore (R85): copied ones that had not ended continue, the unfinished epoch's will end with 0x001E. -/
def restoredCmds (d : Dev) : List Cmd :=
  let keep (c : Cmd) : Option Cmd :=
    let c1 := if c.op = 0x0806 then { c with begun := false } else c
    match cmdOf d c.seq with
    | some l => some { c1 with noSlot := l.noSlot }
    | none => if redone c && (allHeld d).any (fun k => k.seq = c.seq) then some c1 else none
  d.mirror.copy.cmds.filterMap keep ++
    (d.core.cmds.filter (fun c => (copied d c.seq).isNone)).map (fun c => { c with begun := true, dead := true, staged := false })

/-- A completion of the unfinished epoch becomes 0x001E, and waits for the report (R85). -/
def killed (k : Completion) : Completion :=
  { k with status := 0x1E, detail := 0xFFFF, imm := 0, result := [], staged := false, waitsEpoch := true }

/-- A completion of a command accepted in the unfinished epoch, not posted (R470). -/
def isKilled (d : Dev) (k : Completion) : Bool := k.waitsEpoch || decide (d.mirror.copyEpoch ≤ k.acceptEpoch)

/-- A takeover undoes what the command has changed of the shared blocks: it ends with 0x001E, or its work is done again (R80, R85). -/
def undone (d : Dev) (seq : Nat) : Bool :=
  match copied d seq with
  | some c => redone c
  | none => (cmdOf d seq).isSome || (allHeld d).any (fun k => k.seq = seq && isKilled d k)

/-- A completion not yet posted at the takeover (R470): its command goes on, or it stands, or it ends with 0x001E. -/
def heldAfter (d : Dev) (k : Completion) : Option Completion :=
  match copied d k.seq with
  | some c => if redone c then none else some { k with waitsEpoch := false }
  | none => if isKilled d k then some (killed k) else some k

/-- The run as restored: its counters from the epoch, the meridian schedule from the port plane; a program that has ended since
stays ended. -/
def restoredRun (d : Dev) : Run :=
  let l := d.core.run
  if l.active then { d.mirror.copy.run with k := l.k, next := l.next, fixed := l.fixed, delta := l.delta, period := l.period,
                                            mers := l.mers, windows := l.windows, absent := l.absent, switching := true }
  else l

/-- The new active core restores the last complete epoch; undecided shots keep what the port plane has collected of them. It takes the shared
state as it is (R475), but for what commands that end with 0x001E, or are done again, have changed of it (R80, R85). -/
def restoreCore (d0 : Dev) : Dev :=
  let d := undoCommands (undone d0) d0
  let r := d.mirror.copyResume.shot
  let copy := d.mirror.copy
  let core : Core := { copy with
    cmds := restoredCmds d, nextSeq := d.core.nextSeq, run := restoredRun d, fabric := []
    shots := d.core.shots.filter (fun s => r ≤ s.num)
    statuses := if d.core.run.active then copy.statuses else d.core.statuses }
  let mbs := (List.range 32).foldl (fun s m => Store.set ({} : Mailbox) s m { d.mb m with held := (d.mb m).held.filterMap (heldAfter d) }) d.mbs
  { d with core := core, mbs := mbs }

/-- Commands that will end with 0x001E. -/
def doomed (d : Dev) : Nat := (d.core.cmds.filter (·.dead)).length + ((allHeld d).filter (fun k => k.status = 0x1E && k.waitsEpoch)).length

/-- The core that has taken over goes on throttling where the deposed core throttled, till its first meridian shows what it needs itself, and
the deposed core no more (R141, R298). -/
def resumeThrottle (d0 : Dev) : Dev :=
  let was := (d0.slackOf (!d0.hif.core)).throttled
  let d1 := d0.setSlack (!d0.hif.core) { d0.slackOf (!d0.hif.core) with throttled := false }
  let d := d1.setSlack d1.hif.core { d1.slackOf d1.hif.core with throttled := was }
  startCopy (8 * d.time.raw) (pauseRps was d)

/-- A takeover at T = now, for a LAST_REASON (R475). -/
def takeOver (reason : Nat) (x : Ctx) (d0 : Dev) : Dev :=
  let d := applyClosed (cutCommit x (endCalRun Cause.switchOver (abandonSlice d0)))
  let d1 := discardEverything x (holdPorts x (settlePorts d))
  let n := (d1.discardTotal + 2 ^ 64 - d.discardTotal) % 2 ^ 64
  let d2 := restoreCore d1
  let m := d2.mirror
  let g : SwitchOver := { hadRun := running d, t := d.time.lat, reason := reason, firstShot := m.copyResume.shot, discarded := n, aborted := doomed d2 }
  let m1 : Mirror := { m with
    sw := some g, switchovers := addW 32 m.switchovers 1, lastT := d.time.lat, lastReason := reason, planned := none
    imgActive := m.imgStandby, imgStandby := m.imgActive, deposedRunning := true, resyncSeq := none, failed := false }
  let d3 := resumeThrottle (showImage { d2 with hif := { d2.hif with core := !d2.hif.core }, mirror := m1 })
  cutDoomedWrite (setStandby 1 (event 152 (flag d3.hif.core 0) reason d3))

/-! The report (R478). -/

/-- What the switch-over ends with 0x001E ends now (R85). -/
def endDoomed (d : Dev) : Dev :=
  let d1 := (d.core.cmds.filter (·.dead)).foldl (fun d c => failCmd c { status := 0x1E } d) d
  d1.forAll (List.range 32) fun m d =>
    let now (k : Completion) : Completion := if k.status = 0x1E && k.waitsEpoch then { k with waitsEpoch := false, lt := d.time.lat } else k
    postAllHeld m (d.setMb m { d.mb m with held := (d.mb m).held.map now })

/-- The reconciliation report of a switch-over; with no program it names no shot (R478, R528). -/
def reportSwitch (a failed j : Nat) (d : Dev) : Dev :=
  match d.mirror.sw with
  | none => d
  | some g =>
    let d1 := { d with mirror := { d.mirror with sw := none, lastResume := j, lastFailed := failed, lastAborted := g.aborted } }
    let d2 := publish { kind := 1, inst := 0xFF, seq := 0, start := g.t, finish := d.time.lat, a := a, b := failed, c := j, d := g.aborted,
                        e := g.discarded } d1
    releasePorts (endSeq d2.mirror.planSeq (fun c d => doneCmd c (256 * (c.op / 256)) d)
      (endDoomed { d2 with mirror := { d2.mirror with planSeq := none } }))

/-- The shot has been decided and published in a completed epoch: the switch-over leaves it unchanged (R192, R476). -/
def isPublished (d : Dev) (k : Nat) : Bool := (shotOf d k).isNone && d.core.statuses.any (fun s => s.shot = k)

/-- A shot lost to the switch-over fails with it; one that nobody opened has no record (R476, R478). -/
def loseShot (t k : Nat) (d : Dev) : Dev :=
  let f : ShotFail := { at4096 := nowFine d, inst := 0xFFFF, cause := Cause.switchOver, detail := t, item := false }
  if isPublished d k then d
  else match shotOf d k with
    | some s => decideRecord { s with fails := f :: s.fails } d
    | none => decideRecord { num := k, opened := false, fails := [f] } d

/-- Step 2 of M(j) (R478): every shot from the resume point to j − 1 is counted issued and failed, but for one
published before, and shot j issued. -/
def settleSwitch (d : Dev) : Dev :=
  match d.mirror.sw with
  | none => d
  | some g =>
    let j := g.shotJ
    let n := j - g.firstShot
    let ks := (List.range n).map (g.firstShot + ·)
    let d1 := d.forAll ks (loseShot g.t)
    let run := d1.core.run
    let run1 : Run := { run with issued := addW 64 (run.completed + run.failed) 1, lost := run.lost + n }
    reportSwitch g.firstShot (ks.countP fun k => !isPublished d k) j { d1 with core := { d1.core with run := run1 } }

/-- The shots that a halt since T has decided as lost to the switch-over (R476). -/
def lostAtHalt (g : SwitchOver) (d : Dev) : Nat :=
  d.core.statuses.countP fun s => s.cause = Cause.switchOver && decide (g.firstShot ≤ s.shot) && decide (g.t ≤ s.decided)

/-- A switch-over with no program left to resume closes at once (R475): the shot tokens that the halt has decided since T were issued, and
the report names the resume point of the program that ran at T, the shots lost, and shot j where it has opened (R525, R528). -/
def settleIdleSwitch (d : Dev) : Dev :=
  match d.mirror.sw with
  | none => d
  | some g =>
    if g.gapOver && !running d then
      let run := d.core.run
      let d1 := if g.hadRun then { d with core := { d.core with run := { run with issued := addW 64 (run.completed + run.failed) 0 } } } else d
      if g.hadRun then reportSwitch g.firstShot (lostAtHalt g d1) g.shotJ d1 else reportSwitch 0 0 0 d1
    else d

/-- With no program left to resume, what was staged is applied now (R29, R85). -/
def applyIdle (x : Ctx) (d : Dev) : Dev := if running d then d else causeEnded (settleEnable x.fuse (applyAtOnce x d))

/-! The gap's end (R475, R477). -/

/-- The frame changes that have taken their place since the opening of shot `r`, done again on its frames (R246, R477). -/
def redoFrames (r : Nat) (d : Dev) : Dev := (d.core.frameDone.filter (fun c => r ≤ c.1)).foldl (fun d c => applyFrameSet c.2 d) d

/-- The rays and frames of the resume point, with the shot renamed from `r` to `j`, and the frame changes applied since (R227). -/
def resumeShot (j : Nat) (d : Dev) : Dev :=
  let p := d.mirror.copyResume
  let rays := p.rays.map (fun kv => (kv.1, { kv.2 with shot := kv.2.shot + j - p.shot }))
  let run := d.core.run
  let shot : Shot := { num := j, fails := firstFails d }
  let run1 : Run := { run with shotNext := j, switching := false }
  let d1 := settleFrames j (redoFrames p.shot { d with core := { d.core with
    rays := rays, frames := p.frames, run := run1, shots := d.core.shots.filter (fun s => s.num < j) ++ [shot] } })
  let m := d1.mirror
  let p1 : Resume := { shot := j, rays := rays, frames := d1.core.frames }
  { d1 with mirror := { m with sw := m.sw.map (fun g => { g with shotJ := j })
                               resume := p1, point := p1 } }

/-- What fell in the gap takes effect (R437). -/
def gapEffects (x : Ctx) (d : Dev) : Dev :=
  let d1 := followTap x (d.bench.gapOpens.foldl (fun d i => unplugActive i d) { d with bench := { d.bench with gapOpens := [] } })
  if d1.bench.hold = .waiting ∧ (d1.bench.pressHard ∨ !running d1) then takeHold x d1 else d1

/-- The gap ends `ns` after T. Where the program has halted since the epoch, the frame changes that its copy still holds back take their
place (R227, R246). -/
def endGap (ns : Nat) (x : Ctx) (d : Dev) : Dev :=
  match d.mirror.sw with
  | none => d
  | some g =>
    if g.gapOver ∨ 2000 < ns then d
    else
      let d1 := advanceTo (g.t + ns) d
      let d2 := { d1 with mirror := { d1.mirror with sw := some { g with gapOver := true }, lastGap := ns } }
      if running d2 then gapEffects x (resumeShot d2.core.run.k d2)
      else gapEffects x (applyIdle x (settleIdleSwitch (settleFrames d2.core.run.k d2)))

/-! A core lost with no takeover (R30, R97, R472). -/

/-- Every output goes safe, the program halts, open shots fail with "core fault"; a switch-over that was planned is over (R115). -/
def loseCore (x : Ctx) (d0 : Dev) : Dev :=
  let d := { d0 with mirror := { d0.mirror with failed := false, planned := none, planSeq := none } }
  endCalRun Cause.coreFault (holdNow x (haltProgram Cause.coreFault 6 x (allSafe x.fuse .coreFault (abandonSlice d))))

/-- The core reloads the image it ran (R97): loci, ray programs, read-out processor memories and staged configuration are lost, and
the commands it held will end when it is back (log entry 54): what they have changed of the shared blocks is undone (R89). -/
def reloadCore (x : Ctx) (d : Dev) : Dev :=
  let d0 := cutCommit x (loseCore x d)
  let d1 := undoCommands (fun n => (cmdOf d0 n).isSome) d0
  let core : Core := { d1.core with
    progMem := [], progs := [], loci := [], rays := [], rps := [], fabric := [], frameDefer := []
    cmds := d1.core.cmds.map (fun c => { c with begun := true, dead := true, staged := false }) }
  eventState { d1 with
    core := core, envCopies := []
    hif := { d1.hif with state := .imageLoading }
    images := { d1.images with reloading := true, bootSrc := some d1.mirror.imgActive.src } }

/-- The active core of the device is lost or reset: takeover, or a reload (R97, R472). -/
def activeLost (x : Ctx) (d : Dev) : Dev :=
  if !firmwareRuns d && !d.mirror.failed then d else if mayTakeOver d then takeOver 2 x d else reloadCore x d

/-! Planned switch-overs (R486, R115). -/

/-- The standby a planned switch-over needs, and TAKEOVER (R487, R115, R489). -/
def plannedOk (d : Dev) (reason : Nat) : Bool := d.mirror.takeover && (d.mirror.standby = 4 || (reason = 4 && d.mirror.standby = 5))

/-- The planned switch-over can take place. -/
def plannedFits (d : Dev) : Bool := d.mirror.planned.any (plannedOk d)

/-- The planned switch-over is refused: its command fails, and the active core goes on. -/
def refuseSwitch (d : Dev) : Dev :=
  let f : Fail := if d.mirror.planned = some 4 then { status := 0x0E18 } else { status := 0x0C10, imm := d.mirror.standby }
  endSeq d.mirror.planSeq (fun c d => failCmd c f d) { d with mirror := { d.mirror with planned := none, planSeq := none } }

/-- The requested switch-over takes place: the epoch closes with resume point `r`, and the active core resigns (R486). -/
def switchNow (r : Resume) (x : Ctx) (d : Dev) : Dev :=
  match d.mirror.planned with
  | none => d
  | some reason =>
    if plannedOk d reason then takeOver reason x (closeEpoch r x d) else refuseSwitch d

/-- A switch-over is requested by command `c`: at once with no program, else at the meridian that decides the last open shot. -/
def requestSwitch (reason : Nat) (x : Ctx) (c : Cmd) (d : Dev) : Dev :=
  let d1 := { d with mirror := { d.mirror with planned := some reason, planSeq := some c.seq } }
  if running d then d1 else switchNow d1.mirror.resume x d1

end Sys2Proof.Machine
end

