-- ==== Sys2Proof/Machine/Mirror.lean ====
section
/-! DEFINITION. The mirror core (17): its commands (R484 to R489), copy epochs (R467), heartbeats (R471 to R474), the deposed core
(R473), resynchronisation (R480) and the standby's self-tests (R481, R482). -/

namespace Sys2Proof.Machine

/-! Heartbeats (R471 to R474). -/

/-- Key of a path as one core receives it. -/
def pathKey (offDie mirror : Bool) : Nat := flag offDie 1 + flag mirror 0

/-- The core runs firmware that sends and receives heartbeats: at ready alone (R106, R479). -/
def coreUp (d : Dev) (mirror : Bool) : Bool :=
  d.hif.state = .ready &&
  (if mirror = d.hif.core then !d.mirror.failed else decide (3 ≤ d.mirror.standby) || d.mirror.deposedRunning)

/-- The path carries the other core, as core `mirror` sees it (R471). -/
def carries (d : Dev) (offDie mirror : Bool) : Bool :=
  coreUp d mirror && coreUp d (!mirror) && decide (d.time.raw ≤ Store.get 0 d.mirror.seen (pathKey offDie mirror) + 12000)

/-- A path is faulted (R474). -/
def pathFaulted (d : Dev) (offDie : Bool) : Bool := if offDie then d.mirror.offDieFault else d.mirror.onDieFault
def setPathFault (offDie v : Bool) (d : Dev) : Dev :=
  { d with mirror := if offDie then { d.mirror with offDieFault := v } else { d.mirror with onDieFault := v } }

/-- The sequence number of the heartbeat that a core sent last. -/
def beatOf (m : Mirror) (mirror : Bool) : Nat := if mirror then m.beats.2 else m.beats.1

/-- A core's turn on the loop that the two share: 2 µs after the other one's heartbeat (R471). -/
def interleaved (mirror : Bool) (d : Dev) : Dev :=
  advance (match Store.get none d.last (Pace.heartbeat (!mirror)).key with | none => 0 | some t => t + 2000 - d.time.raw) d

/-- HEARTBEAT_SEND, every 4 µs: the sequence number of a running core's heartbeats advances. -/
def heartbeatSend (mirror : Bool) (x : Ctx) (d : Dev) : Dev :=
  let b := d.mirror.beats
  if !x.fuse.duplex || !coreUp d mirror then d
  else
    let d1 := paced (.heartbeat mirror) (interleaved mirror d)
    { d1 with mirror := { d1.mirror with beats := if mirror then (b.1, b.2 + 1) else (b.1 + 1, b.2) } }

/-- HEARTBEAT_RECEIVE: a running core notes when it heard the other one, from when on without a gap of 12 µs, and what the heartbeat
carries: its sender, sequence number, the active core's last closed epoch and the health bit. -/
def heartbeatReceive (byMirror offDie healthy : Bool) (x : Ctx) (d : Dev) : Dev :=
  let m := d.mirror
  let key := pathKey offDie byMirror
  if !x.fuse.duplex || !coreUp d byMirror then d
  else { d with mirror := { m with
    seen := Store.set 0 m.seen key d.time.raw
    heard := Store.set none m.heard key (some { mirror := !byMirror, seq := beatOf m (!byMirror), epoch := m.epochs, healthy := healthy })
    heardFrom := if Store.get 0 m.seen key + 12000 < d.time.raw then Store.set 0 m.heardFrom key d.time.raw else m.heardFrom
    sick := Store.set 0 m.sick key (if healthy then 0 else 1) } }

/-- A path's fault, unless it stands already (R474): the second of whole heartbeats that clears it begins after it. -/
def faultPath (offDie : Bool) (d : Dev) : Dev :=
  if pathFaulted d offDie then d
  else
    let from_ := Store.set 0 (Store.set 0 d.mirror.heardFrom (pathKey offDie false) d.time.raw) (pathKey offDie true) d.time.raw
    setRedund (event 153 (flag offDie 0) 0 (setPathFault offDie true { d with mirror := { d.mirror with heardFrom := from_ } }))

/-- The standby has lost both paths, or one direction of each: it is ineligible (R474, R479). -/
def bothFaulted (d : Dev) : Dev :=
  if d.mirror.onDieFault && d.mirror.offDieFault && followsEpochs d then setStandby 6 d else d

/-- The instant at which the path has been silent for 12 µs, for the receiver that heard it least recently. -/
def silentAt (offDie : Bool) (d : Dev) : Nat :=
  min (Store.get 0 d.mirror.seen (pathKey offDie false)) (Store.get 0 d.mirror.seen (pathKey offDie true)) + 12000

/-- A core has heard nothing on a path for 12 µs. -/
def silent (d : Dev) (offDie mirror : Bool) : Bool :=
  decide (Store.get 0 d.mirror.seen (pathKey offDie mirror) + 12000 ≤ d.time.raw)

/-- A core misses the other one's heartbeats on a path, while the other path carries them (R474). -/
def missesOnly (d : Dev) (offDie mirror : Bool) : Bool := silent d offDie mirror && !silent d (!offDie) mirror

/-- What 12 µs of silence on a path do. When the standby hears the active core on neither path it takes over, or, where it may not, the
active core is lost as on an S part (R472, R489). Else the path is faulted where the other one carries what it lacks (R474); where the active
core hears the standby on neither, neither is (log entry 31). -/
def pathSilent (offDie : Bool) (x : Ctx) (d : Dev) : Dev :=
  let standby := !d.hif.core
  if silent d false standby && silent d true standby then (if mayTakeOver d then takeOver 1 x d else activeLost x d)
  else if missesOnly d offDie standby || missesOnly d offDie d.hif.core then bothFaulted (faultPath offDie d)
  else d

/-- HEARTBEAT_TIMEOUT (R472, R474). -/
def heartbeatTimeout (offDie : Bool) (x : Ctx) (d : Dev) : Dev :=
  if !x.fuse.duplex || d.hif.state ≠ .ready || decide (d.mirror.standby < 3) || d.mirror.sw.isSome then d
  else pathSilent offDie x (advance (silentAt offDie d - d.time.raw) d)

/-- When a path that carries in both directions has done so for 1 s (R474). -/
def wholeAt (offDie : Bool) (d : Dev) : Nat :=
  max (Store.get 0 d.mirror.heardFrom (pathKey offDie false)) (Store.get 0 d.mirror.heardFrom (pathKey offDie true)) + 1000000000

/-- Both cores have heard heartbeats on the path up to now. -/
def heardNow (offDie : Bool) (d : Dev) : Dev :=
  let t := d.time.raw
  { d with mirror := { d.mirror with seen := Store.set 0 (Store.set 0 d.mirror.seen (pathKey offDie false) t) (pathKey offDie true) t } }

/-- HEARTBEAT_PATH_RESTORED (R474): a faulted path that carries in both directions clears after 1 s of heartbeats. -/
def heartbeatPathRestored (offDie : Bool) (_ : Ctx) (d : Dev) : Dev :=
  if !pathFaulted d offDie || !carries d offDie false || !carries d offDie true then d
  else
    let d1 := heardNow offDie (advance (wholeAt offDie d - d.time.raw) d)
    setRedund (event 154 (flag offDie 0) 0 (setPathFault offDie false d1))

/-- CORE_RESIGN (R472). -/
def coreResign (x : Ctx) (d : Dev) : Dev := if x.fuse.duplex then activeLost x d else d

/-! Standby states (R473, R479, R480). -/

/-- The standby begins to resynchronise; both cores listen from now on. -/
def startResync (d : Dev) : Dev :=
  let t := d.time.raw
  let seen := [0, 1, 2, 3].foldl (fun s k => Store.set 0 s k t) d.mirror.seen
  setStandby 3 { d with mirror := { d.mirror with seen := seen, heardFrom := seen } }

/-- The standby loads an image (R114, R479, R488). -/
def startLoad (src : Nat) (d : Dev) : Dev := setStandby 2 { d with mirror := { d.mirror with loadSrc := src } }

/-- The standby core is reset: it loads the image it ran, or the one it was loading, and resynchronises (R97), but for one whose self-test
has latched (R482). -/
def resetStandby (d : Dev) : Dev := if d.mirror.standby ≤ 2 || d.mirror.errLatched then d else startLoad d.mirror.imgStandby.src d

/-- DEPOSED_LATCH_SEEN (R473): with AUTO_RECOVER the deposed core loads the new active core's image. -/
def deposedLatchSeen (_ : Ctx) (d : Dev) : Dev :=
  if !d.mirror.deposedRunning then d
  else
    let d1 := { d with mirror := { d.mirror with deposedRunning := false } }
    if d1.mirror.autoRecover then startLoad d1.mirror.imgActive.src d1 else d1

/-- The state a resynchronisation ends in (R479, R480). -/
def resyncState (m : Mirror) : Nat :=
  if m.imgActive.copyFormat ≠ m.imgStandby.copyFormat ∨ (m.onDieFault ∧ m.offDieFault) then 6
  else if m.imgActive.hash = m.imgStandby.hash then 4 else 5

/-- A MIR_RESYNC ends as the standby stands (R488). -/
def endResync (d : Dev) : Dev :=
  let n := d.mirror.standby
  let done (c : Cmd) (d : Dev) : Dev :=
    if n = 4 ∨ n = 5 then doneCmd c 0x0C00 d else failCmd c { status := 0x0C13, imm := n } d
  endSeq d.mirror.resyncSeq done { d with mirror := { d.mirror with resyncSeq := none } }

/-- RESYNC_COMPLETE (R480): the standby holds the whole per-core state. -/
def resyncComplete (_ : Ctx) (d : Dev) : Dev :=
  if d.mirror.standby ≠ 3 ∨ !firmwareRuns d then d
  else
    let m : Mirror := { d.mirror with copy := d.core, copyResume := insideResume d, copyEpoch := d.mirror.epochs, closed := none,
                                      shadowFrom := d.core, resyncEnd := d.time.raw }
    endResync (setStandby (resyncState m) { d with mirror := m })

/-- A self-test event (R482): `arg` 0 BIST, 1 shadow mismatch. The third one, each within 1 s of the end of the resynchronisation
before it, leaves the standby ineligible; any other starts a resynchronisation. -/
def selfTestFailed (arg : Nat) (d : Dev) : Dev :=
  let m := d.mirror
  let n := if m.recentErrors ≠ 0 ∧ d.time.raw ≤ m.resyncEnd + 1000000000 then m.recentErrors + 1 else 1
  let d1 := event 156 0xFFFF arg { d with mirror := { m with recentErrors := n } }
  if 3 ≤ n then
    let d2 := setStandby 6 { d1 with mirror := { d1.mirror with errLatched := true, recentErrors := 0 } }
    endResync d2
  else startResync d1

/-- What the comparator compares of a token (R481). -/
def shadowTok (t : Tok) : ShadowTok :=
  { stage := t.stage, voff := t.voff, locus := if t.kind = .play then locusBytes t.locus else [], ftw := t.car.ftw, z := t.car.z,
    operands := if t.kind = .window then [t.chan, t.len, flag t.trace 0] else if t.kind = .mark then [t.addr, t.count] else [] }

/-- Ray `r` of the shadow run executes its next word: as the active core's rays do, but for a DECIDE, which takes the decision of the active
core's (R326): FALLBACK where its shot has fallen back on that table. -/
def shadowRay (x : Ctx) (fallbacks : List (Nat × Nat × Nat)) (r : Nat) (d : Dev) : Dev :=
  let decide_ (d : Dev) : Dev := match (d.ray r).st with
    | .chord gd tb =>
      if fallbacks.any (fun f => f.1 = r && f.2.1 = tb) then decideWith r gd (tableFor d tb (d.ray r).shot).fallback d else resolve r gd tb false d
    | _ => d
  match runProg d with
  | none => d
  | some p => match rayWord d p (d.ray r) / 2 ^ 56 with
    | 0x01 => doHalt r x d
    | 0x02 => doMerid r x d
    | 0x03 => doBarr r x d
    | 0x08 => doAt r x d
    | 0x09 => doWait r x d
    | 0x10 => doPlay r x d
    | 0x11 => doPlays r x d
    | 0x14 => doSetf r x d
    | 0x15 => doVz r x d
    | 0x18 => doAcq r x d
    | 0x1C => doMark r x d
    | 0x20 => doLoop r x d
    | 0x21 => doEndl r x d
    | 0x24 => doJump r x d
    | 0x25 => doBr r x d
    | 0x28 => decide_ (rayExec 0x28 r (fun w y d => whenOpen r y (fun d => d.setRay r { y with st := .chord (bits w 55 52) (bits w 51 46) }) d) d)
    | 0x30 => doSetg r x d
    | 0x31 => doAddg r x d
    | _ => d

/-- The shadow run goes on while its rays do: their frame updates are applied in issue order, and its tokens reach the comparator, no release
stage (R22). -/
def shadowLoop (x : Ctx) (fallbacks : List (Nat × Nat × Nat)) : Nat → Dev → List Tok → List Tok
  | 0, _, out => out
  | fuel + 1, d, out =>
    let d1 := applyFrames (fun _ => true) ((progRays d).foldl (fun d r => shadowRay x fallbacks r d) d)
    if d1.core.rays = d.core.rays then out
    else shadowLoop x fallbacks fuel { d1 with core := { d1.core with fabric := [] } } (out ++ d1.core.fabric)

/-- The tokens that the standby issues for shot `k`, run from its resume point on its own copy (R481). -/
def shadowRun (k : Nat) (x : Ctx) (d : Dev) : List Tok :=
  let m := d.mirror
  let run : Run := { d.core.run with shotNext := k, stopping := none, windows := [] }
  let start : Dev := { d with
    stages := [], mirror := { m with sw := none, failed := false }
    core := { m.shadowFrom with rays := m.copyResume.rays, frames := m.copyResume.frames, run := run, fabric := [], shots := d.core.shots } }
  (shadowLoop x (match shotOf d k with | none => [] | some s => s.fallbacks) (2 ^ 48) start []).filter (fun t => t.shot = k)

/-- No ray of the active core issues a token for shot `k` any more. -/
def raysPast (d : Dev) (k : Nat) : Bool :=
  (progRays d).all fun r => match (d.ray r).st with | .halted => true | .merid => decide (k ≤ (d.ray r).shot) | _ => decide (k < (d.ray r).shot)

/-- A token of the shadow shot that the active core's release stream for that shot does not hold (R481): `faults` are the tokens, by place,
that an error of the standby has changed. One that it computes rightly may still be on its way to the active core's stages. -/
def shadowBad (faults : List (Nat × ShadowTok)) (x : Ctx) (d : Dev) : Bool :=
  let k := shotNow d
  let run := (shadowRun k x d).map shadowTok
  let got := run.zipIdx.map fun t => ((faults.find? (fun f => f.1 = t.2)).map (·.2)).getD t.1
  let stream := (d.mirror.shadowStream ++ d.core.fabric.filter (fun t => t.kind.isItem && t.framed && t.shot = k)).map shadowTok
  running d && shadows d k && d.mirror.copyResume.shot = k && got.any fun t => !stream.contains t && (raysPast d k || !run.contains t)

/-- SHADOW_MISMATCH (R481, R482): the comparator finds a token of the shadow shot in progress that the active core has not issued. -/
def shadowMismatch (faults : List (Nat × ShadowTok)) (x : Ctx) (d : Dev) : Dev :=
  if shadowBad faults x d then selfTestFailed 1 { d with mirror := { d.mirror with mismatches := addW 64 d.mirror.mismatches 1 } } else d

/-- BIST_ERROR (R482): a standby whose self-test has latched raises its event and stays as it is. -/
def bistError (_ : Ctx) (d : Dev) : Dev :=
  let d1 := { d with mirror := { d.mirror with bistErrors := addW 32 d.mirror.bistErrors 1 } }
  if d.mirror.standby < 3 then d else if d.mirror.errLatched then event 156 0xFFFF 0 d1 else selfTestFailed 0 d1

/-! Copy epochs (R467). -/

/-- A switch-over whose program has ended since closes here, and what was staged is applied (R475, R29). -/
def applyIdleSwitch (x : Ctx) (d : Dev) : Dev :=
  let d1 := settleIdleSwitch d
  if d.mirror.sw.isSome && d1.mirror.sw.isNone then applyIdle x d1 else d1

/-- EPOCH_TIMER_CLOSE: 64 µs after the last close. A planned switch-over left without a program takes place (R486). -/
def epochTimerClose (x : Ctx) (d : Dev) : Dev :=
  if !x.fuse.duplex || !firmwareRuns d then d
  else
    let d1 := advance (min 64000 (d.mirror.epochLt + 64000 - d.time.lat)) d
    let d2 := applyIdleSwitch x (closeEpoch (insideResume d1) x d1)
    if running d2 then d2 else switchNow d2.mirror.resume x d2

/-- EPOCH_APPLY: the standby applies the epoch closed last, or discards it where its stream or marker is not whole. -/
def epochApply (intact : Bool) (_ : Ctx) (d : Dev) : Dev :=
  if !followsEpochs d then d else if intact then applyClosed d else { d with mirror := { d.mirror with closed := none } }

/-! Commands (R484 to R489). -/

/-- S parts fail every mirror command with 0x0014 (R483). -/
def fDuplex (x : Ctx) : Option Fail := fNone (!x.fuse.duplex) 0x14

/-- MIR_STATUS (R485). -/
def mirStatusBytes (d : Dev) : List Byte :=
  let m := d.mirror
  let both (off : Bool) : Bool := carries d off false && carries d off true
  let up := decide (3 ≤ m.standby)
  le 1 (flag d.hif.core 0) ++ le 1 d.hif.redund ++ le 1 m.standby ++
    le 1 (flag (both false) 0 + flag (both true) 1 + flag m.onDieFault 2 + flag m.offDieFault 3) ++
    le 2 m.imgActive.copyFormat ++ le 2 (if up then m.imgStandby.copyFormat else 0) ++
    (if up then (m.imgStandby.hash ++ zeros 16).take 16 else zeros 16) ++
    le 8 m.epochs ++ le 8 m.epochLt ++ le 8 m.point.shot ++ le 8 m.shadowShots ++ le 8 m.mismatches ++ le 8 m.bistPasses ++
    le 4 m.bistErrors ++ le 4 m.switchovers ++ le 8 m.lastT ++ le 4 m.lastGap ++ le 1 m.lastReason ++ zeros 3 ++ le 8 m.lastResume ++
    le 4 m.lastFailed ++ le 4 m.lastAborted ++ le 8 d.time.lat

def mirStatusSpec : CmdSpec where
  op := 0x0C00
  len := lenIs 0
  check := fun x _ _ => fDuplex x
  act := fun _ c d0 => let d := settleBist d0; replyCmd c 0x0C00 (mirStatusBytes d) d

/-- MIR_SWITCH (R487). -/
def mirSwitchSpec : CmdSpec where
  op := 0x0C01
  len := lenIs 0
  check := fun x _ d =>
    let m := d.mirror
    let bad := m.standby ≠ 4 || !m.takeover || m.planned.isSome || m.sw.isSome
    firstFail [fDuplex x, fNone (m.standby = 5) 0x0C11, (if bad then some { status := 0x0C10, imm := m.standby } else none)]
  act := fun x c d => requestSwitch 3 x c d

/-- MIR_RESYNC (R488, R482). -/
def mirResyncSpec : CmdSpec where
  op := 0x0C02
  len := lenIs 4
  check := fun x c d =>
    let m := d.mirror
    let stuck := !bitOf (c.arg 0 1) 0 && (m.standby = 1 || (m.standby = 6 && m.errLatched))
    firstFail [fDuplex x, fFlags c 0 1, fRes c 1 3, fNone (m.standby = 2 || m.standby = 3) 0x0C12,
      (if stuck then some { status := 0x0C13, imm := m.standby } else none)]
  act := fun _ c d =>
    let d1 := { d with mirror := { d.mirror with resyncSeq := some c.seq } }
    if bitOf (c.arg 0 1) 0 then startLoad d1.mirror.imgStandby.src { d1 with mirror := { d1.mirror with errLatched := false } }
    else startResync d1

/-- MIR_CONFIG (R489). -/
def mirConfigSpec : CmdSpec where
  op := 0x0C03
  len := lenIs 4
  check := fun x c _ => firstFail [fDuplex x, fFlags c 0 3, fRes c 1 3]
  act := fun _ c d =>
    let fl := c.arg 0 1
    doneCmd c 0x0C00 { d with mirror := { d.mirror with takeover := bitOf fl 0, shadow := bitOf fl 1, autoRecover := bitOf fl 2 } }

/-! The rows. -/
def execMirStatus (mb : Fin 32) (h : HostSide) (s : State) : Host.Outcome State Fault Refusal := cmdRow mirStatusSpec mb h s
def execMirSwitch (mb : Fin 32) (h : HostSide) (s : State) : Host.Outcome State Fault Refusal := cmdRow mirSwitchSpec mb h s
def execMirResync (mb : Fin 32) (h : HostSide) (s : State) : Host.Outcome State Fault Refusal := cmdRow mirResyncSpec mb h s
def execMirConfig (mb : Fin 32) (h : HostSide) (s : State) : Host.Outcome State Fault Refusal := cmdRow mirConfigSpec mb h s
def execEpochTimerClose (s : State) : Host.Outcome State Fault Refusal := .next (s.on epochTimerClose)
def execEpochApply (intact : Bool) (s : State) : Host.Outcome State Fault Refusal := .next (s.on (epochApply intact))
def execHeartbeatSend (mirror : Bool) (s : State) : Host.Outcome State Fault Refusal := .next (s.on (heartbeatSend mirror))
def execHeartbeatReceive (byMirror offDie healthy : Bool) (s : State) : Host.Outcome State Fault Refusal :=
  .next (s.on (heartbeatReceive byMirror offDie healthy))
def execHeartbeatTimeout (offDie : Bool) (s : State) : Host.Outcome State Fault Refusal := .next (s.on (heartbeatTimeout offDie))
def execHeartbeatPathRestored (offDie : Bool) (s : State) : Host.Outcome State Fault Refusal := .next (s.on (heartbeatPathRestored offDie))
def execCoreResign (s : State) : Host.Outcome State Fault Refusal := .next (s.on coreResign)
def execSwitchoverGapEnd (gapNs : Nat) (s : State) : Host.Outcome State Fault Refusal := .next (s.on (endGap gapNs))
def execDeposedLatchSeen (s : State) : Host.Outcome State Fault Refusal := .next (s.on deposedLatchSeen)
def execResyncComplete (s : State) : Host.Outcome State Fault Refusal := .next (s.on resyncComplete)
def execShadowMismatch (s : State) (faults : List (Nat × ShadowTok) := []) : Host.Outcome State Fault Refusal :=
  .next (s.on (shadowMismatch faults))
def execBistError (s : State) : Host.Outcome State Fault Refusal := .next (s.on bistError)

end Sys2Proof.Machine
end

