-- ==== Sys2Proof/Machine/Images.lean ====
section
/-! DEFINITION. Firmware images and boot (04): the directory (R99), the checks of an image (R100, R101), the image commands (R107 to
R115), slot selection (R102), loading and ready (R103, R104). -/

namespace Sys2Proof.Machine

/-! The directory (R99). -/

/-- MAGIC of a directory copy. -/
def dirMagic : Nat := 0x52494456

/-- The 16 bytes of a directory copy. -/
def dirBytes (c : DirCopy) : List Byte :=
  let head := le 4 dirMagic ++ le 4 c.gen ++ le 1 c.preferred ++ le 1 c.nextOnce ++ zeros 2
  head ++ le 4 (crc32c head)

/-- MAGIC and CRC are correct. -/
def dirValid (b : List Byte) : Bool := fld b 0 4 = dirMagic && fld b 12 4 = crc32c (b.take 12)

/-- What a copy says. -/
def dirOf (b : List Byte) : DirCopy := { gen := fld b 4 4, preferred := fld b 8 1, nextOnce := fld b 9 1 }

/-- The copy in force (R99): `false` is A; none where neither is valid. DESIGN CHOICE (log entry 141): of two valid copies of equal GEN it is
A. -/
def dirPick (i : Images) : Option Bool :=
  if dirValid i.dirA && dirValid i.dirB then some (decide ((dirOf i.dirA).gen < (dirOf i.dirB).gen))
  else if dirValid i.dirA then some false else if dirValid i.dirB then some true else none

/-- The directory in force; with none valid PREFERRED 0 and NEXT_ONCE 0xFF. -/
def dirNow (i : Images) : DirCopy := match dirPick i with | none => {} | some b => dirOf (if b then i.dirB else i.dirA)

/-- The copy that a write goes to (R99): the one not in force (`true` is B). DESIGN CHOICE (log entry 141): with neither valid it is A, and
GEN counts as 0 until then. -/
def dirTarget (i : Images) : Bool := dirPick i = some false

/-- Put bytes into a copy. -/
def setDir (b : Bool) (v : List Byte) (i : Images) : Images := if b then { i with dirB := v } else { i with dirA := v }

/-- A write goes to the copy not in force, with GEN + 1. -/
def writeDir (preferred nextOnce : Nat) (i : Images) : Images :=
  setDir (dirTarget i) (dirBytes { gen := ((dirNow i).gen + 1) % 2 ^ 32, preferred := preferred, nextOnce := nextOnce }) i

/-- A copy whose write was cut after `n` bytes: the rest of it is erased (log entry 35). -/
def tornAt (n : Nat) (b : List Byte) : List Byte := b.take n ++ List.replicate (16 - n) 0xFF

/-- A copy found torn: neither valid nor erased, or erased though the other one shows that it has been written (log entry 35). -/
def isTorn (b other : List Byte) : Bool :=
  !dirValid b && (b ≠ List.replicate 16 0xFF || (dirValid other && decide (2 ≤ (dirOf other).gen)))

/-! Images (R100, R101). -/

/-- Check 1: the offset of the first header field that fails. `n` is the length of the image. -/
def formatFail (b : List Byte) : Option Nat :=
  let len := fld b 8 4
  if fld b 0 4 ≠ 0x4D495956 then some 0
  else if fld b 4 2 ≠ 1 then some 4
  else if fld b 6 2 ≠ 0 then some 6
  else if len < 4 ∨ 12 * 2 ^ 20 - 512 < len ∨ len % 4 ≠ 0 then some 8
  else if fld b 22 2 ≠ 0 then some 22
  else if fld b 176 240 ≠ 0 then some 176
  else none

/-- Check 2: the hash of the body. -/
def hashOk (b : List Byte) : Bool := Config.sha384 (b.drop 512) = (b.drop 32).take 48

/-- Check 3: the fused key and the signature; an unprogrammed entry matches nothing, nor does a KEY_INDEX above 3 (R100), which
IMG_STAGE refuses before (log entry 103). -/
def authOk (b : List Byte) : Bool :=
  let key := (b.drop 80).take 96
  let ix := fld b 20 1
  decide (ix < 4) && (Config.fusedKey ix == some (Config.sha384 key)) && Config.ecdsaOk key (b.take 416) ((b.drop 416).take 96)

/-- Check 4: STEP_TABLE lists this die's stepping. -/
def stepListed (b : List Byte) : Bool := (((b.drop 24).take 8).take (fld b 21 1)).any (fun v => v.toNat = Config.step)

/-- The summary of an authentic image (R109). -/
def imageOf (b : List Byte) : Image :=
  { valid := 3, stepOk := stepListed b, fwMajor := fld b 12 1, fwMinor := fld b 13 1, build := fld b 14 2, copyFormat := fld b 18 2,
    ilLow := fld b 16 1, ilHigh := fld b 17 1, bodyLen := fld b 8 4, hash := (b.drop 32).take 16 }

/-- A core runs the image. -/
def runOf (src : Nat) (i : Image) : RunImage :=
  { src := src, copyFormat := i.copyFormat, hash := i.hash, fwMajor := i.fwMajor, fwMinor := i.fwMinor, build := i.build,
    ilLow := i.ilLow, ilHigh := i.ilHigh, stepOk := i.stepOk }

/-- The recovery firmware (R104). -/
def recoveryImage : RunImage :=
  { src := 3, hash := zeros 16, build := Config.romRevision, ilLow := Config.ilLow, ilHigh := Config.ilHigh }

/-- The image a source holds: a slot, or the staged image, in whose place the image the active core runs stands when none is staged
(log entry 62). -/
def sourceImage (d : Dev) (src : Nat) : RunImage :=
  if src < 2 then runOf src (slotImage d.images src)
  else match d.images.staged with
    | some i => runOf 2 i
    | none => { d.mirror.imgActive with src := src }

/-- A core runs the image of this slot (R108: 0x0E14). -/
def slotRuns (x : Ctx) (d : Dev) (slot : Nat) : Bool :=
  d.mirror.imgActive.src = slot || (x.fuse.duplex && decide (3 ≤ d.mirror.standby) && d.mirror.imgStandby.src = slot)

/-! Commands (R107 to R115). -/

/-- A summary (R109). -/
def summaryBytes (i : Image) : List Byte :=
  if i.valid = 0 then zeros 32
  else le 1 i.valid ++ le 1 (flag i.stepOk 0) ++ le 1 i.fwMajor ++ le 1 i.fwMinor ++ le 2 i.build ++ le 2 i.copyFormat ++ le 1 i.ilLow ++
    le 1 i.ilHigh ++ zeros 2 ++ le 4 i.bodyLen ++ (i.hash ++ zeros 16).take 16

/-- SRC_PRIMARY and SRC_MIRROR (R109). -/
def sourceOf (x : Ctx) (d : Dev) (mirror : Bool) : Nat :=
  let m := d.mirror
  if mirror && (!x.fuse.duplex || (!d.hif.core && m.standby = 1)) then 0xFF
  else if mirror = d.hif.core then m.imgActive.src else m.imgStandby.src

/-- IMG_STATUS (R109). With a flash that did not answer at boot it reports the flash's contents as the model holds them: R109 does not say
what it reports then, DESIGN CHOICE, log entry 134. -/
def imgStatusBytes (x : Ctx) (d : Dev) : List Byte :=
  let i := d.images
  let dir := dirNow i
  le 1 (sourceOf x d false) ++ le 1 (sourceOf x d true) ++ le 1 d.hif.restrict ++ le 1 dir.nextOnce ++ le 1 dir.preferred ++
    le 1 (flag i.staged.isSome 0) ++ zeros 2 ++ le 4 dir.gen ++ zeros 4 ++ summaryBytes i.slot0 ++ summaryBytes i.slot1 ++
    summaryBytes (i.staged.getD {})

def imgStatusSpec : CmdSpec where
  op := 0x0E00
  len := lenIs 0
  check := fun _ _ _ => none
  act := fun x c d => replyCmd c 0x0E00 (imgStatusBytes x d) d

/-- Images are staged in the envelope store (R105). Where reason 1 is the one reported, and DDR5 is untrained as well, the rule names no
place for them: the reported reason decides, DESIGN CHOICE, log entry 133. -/
def stagesInEnv (d : Dev) : Bool := decide (2 ≤ d.hif.restrict) && d.hif.ddrGib = 0

/-- Checks 1 to 3 on a staged image (R101, R108). -/
def stageFail (b : List Byte) : Option Fail :=
  match formatFail b with
  | some o => some (atPayload 0x0E10 o)
  | none => firstFail [fNoneAt (!hashOk b) 0x0E11 64, fNoneAt (!authOk b) 0x0E12 52]
where
  fNoneAt (bad : Bool) (status detail : Nat) : Option Fail := if bad then some { status := status, detail := detail } else none

/-- IMG_STAGE (R110, R105). -/
def imgStageSpec : CmdSpec where
  op := 0x0E01
  len := fun c => c.bulk && decide (512 ≤ c.length) && c.length == 512 + c.arg 8 4
  check := fun _ c _ => firstFail [fRange c 20 1 0 3, fRange c 21 1 1 8, fIf (((c.payload.drop 24).take 8).drop (c.arg 21 1) |>.any (· ≠ 0)) 0x13 24]
  act := fun _ c d =>
    let inEnv := stagesInEnv d
    let d1 := if inEnv then { d with images := { d.images with staged := none } } else d
    match stageFail c.payload with
    | some f => failCmd c f d1
    | none =>
      let i := imageOf c.payload
      doneCmd c (if i.stepOk then 0x0E00 else 0x0E01) { d1 with images := { d1.images with staged := some i, stagedInEnv := inEnv } }

/-- IMG_WRITE (R111): it ends with its read-back. -/
def imgWriteSpec : CmdSpec where
  op := 0x0E02
  len := lenIs 4
  check := fun x c d => firstFail [fRange c 0 1 0 1, fRes c 1 3, fNone d.images.staged.isNone 0x0E13,
    fIf (slotRuns x d (c.arg 0 1)) 0x0E14 0, fNone (!d.images.flashOk) 0x0E17]
  act := fun _ c d => { d with images := { d.images with writeSeq := some c.seq, writeSlot := c.arg 0 1 } }

/-- SLOT_WRITE_END (R111, R108): a mismatch leaves the slot invalid, as does a write whose command is gone. -/
def slotWriteEnd (ok : Bool) (_ : Ctx) (d : Dev) : Dev :=
  match d.images.writeSeq with
  | none => d
  | some n =>
    match (cmdOf d n).filter (fun c => !c.dead) with
    | none => cutWrite d
    | some c =>
      let i := if ok then d.images.staged.getD {} else {}
      let d1 := { d with images := setSlotImage d.images.writeSlot i { d.images with writeSeq := none } }
      if ok then doneCmd c 0x0E00 d1 else failCmd c (atPayload 0x0E15 0) d1

/-- IMG_SELECT (R112). -/
def imgSelectSpec : CmdSpec where
  op := 0x0E03
  len := lenIs 4
  check := fun _ c d => firstFail [fRange c 0 1 0 1, fRange c 1 1 0 2, fRes c 2 2, fNone (!d.images.flashOk) 0x0E17,
    fIf (c.arg 1 1 ≠ 2 && (slotImage d.images (c.arg 0 1)).valid ≠ 3) 0x0E1B 0]
  act := fun _ c d =>
    let dir := dirNow d.images
    let images := match c.arg 1 1 with
      | 0 => writeDir (c.arg 0 1) dir.nextOnce d.images
      | 1 => writeDir dir.preferred (c.arg 0 1) d.images
      | _ => writeDir dir.preferred 0xFF d.images
    doneCmd c 0x0E00 { d with images := images }

/-- ENABLE of every mailbox is cleared; what has not been accepted ends with 0x001D, in doorbell order (R64, R75). -/
def disableAll (x : Ctx) (d : Dev) : Dev :=
  (d.bells.foldl (fun d b => acceptDisabled b d) d).forAll (List.range 32) (fun m => mbDisable m x)

/-- IMG_REBOOT (R113): every mailbox is disabled, what has not begun ends with 0x0E1A, and the completion is posted. -/
def imgRebootSpec : CmdSpec where
  op := 0x0E04
  len := lenIs 4
  check := fun _ c d => firstFail [fRange c 0 1 0 1, fFlags c 1 1, fRes c 2 2, fNone (c.arg 0 1 = 1 && d.images.staged.isNone) 0x0E13,
    fIf (running d && !bitOf (c.arg 1 1) 0) 0x0E16 1]
  act := fun x c d =>
    let d1 := disableAll x d
    let waiting := d1.core.cmds.filter (fun q => !q.begun)
    let d2 := waiting.foldl (fun d q => failCmd q { status := 0x0E1A } d) d1
    let d3 := haltAndApply Cause.unlock 5 x d2
    let images : Images := { d3.images with rebootSrc := some (c.arg 0 1), stagedInEnv := d3.images.stagedInEnv || c.arg 0 1 = 1 }
    okCmd c 0x0E00 0 [] true { d3 with images := images }

/-- The standby loads an image and stays as it is: in restricted mode, which holds the mirror in reset (R104), and where its self-test has
latched state 6, which MIR_RESYNC with RESET alone ends (R482, log entry 107). -/
def heldStandby (d : Dev) : Bool := d.hif.state = .restricted || d.mirror.errLatched

/-- IMG_LOAD_STANDBY (R114): it ends when the image is loaded and, where nothing holds the standby, runs. -/
def imgLoadStandbySpec : CmdSpec where
  op := 0x0E05
  len := lenIs 4
  check := fun x c d =>
    let src := c.arg 0 1
    let i : Image := if src = 2 then d.images.staged.getD {} else slotImage d.images src
    firstFail [fDuplex x, fRange c 0 1 0 2, fRes c 1 3, fNone (src = 2 && d.images.staged.isNone) 0x0E13,
      fNone (src ≠ 2 && !d.images.flashOk) 0x0E17, fIf (!i.stepOk && i.valid = 3) 0x0E19 0, fIf (i.valid ≠ 3) 0x0E1B 0]
  act := fun _ c d =>
    let d1 := { d with images := { d.images with loadSeq := some c.seq } }
    if heldStandby d then { d1 with mirror := { d1.mirror with loadSrc := c.arg 0 1 } } else startLoad (c.arg 0 1) d1

/-- IMG_HANDOVER (R115): with TAKEOVER 0 no standby takes over (R489, log entry 38). -/
def imgHandoverSpec : CmdSpec where
  op := 0x0E06
  len := lenIs 0
  check := fun x _ d => firstFail [fDuplex x, fNone (!followsEpochs d || !d.mirror.takeover || d.mirror.planned.isSome || d.mirror.sw.isSome) 0x0E18]
  act := fun x c d => requestSwitch 4 x c d

/-! Slot selection (R102). -/

/-- The order in which slots are considered. -/
def bootOrder (dir : DirCopy) : List Nat := ([dir.nextOnce, dir.preferred, 1 - dir.preferred].filter (· < 2)).eraseDups

/-- An authentic image that lists the stepping. -/
def fits (i : Image) : Bool := i.valid = 3 && i.stepOk

/-- Slots up to the first that fits are considered, and those rejected by checks 1 to 3 are named. -/
def considered (i : Images) (order : List Nat) : List Nat :=
  match order with
  | [] => []
  | s :: rest => if fits (slotImage i s) then [s] else s :: considered i rest

/-- STATE becomes 1; where it is 1 already nothing changes, and source 47 is not raised (R43). -/
def enterLoading (d : Dev) : Dev :=
  if d.hif.state = .imageLoading then d else eventState { d with hif := { d.hif with state := .imageLoading } }

/-- The ROM loads an image: both cores of a D part will run it (R103). -/
def loadFrom (src : Nat) (d : Dev) : Dev := enterLoading { d with images := { d.images with bootSrc := some src } }

/-- The ROM starts its recovery firmware, which needs no loading (R103, step 4); restricted mode will follow with this reason. -/
def startRecovery (reason : Nat) (d : Dev) : Dev :=
  enterLoading { d with hif := { d.hif with restrict := reason }
                        images := { d.images with bootSrc := none }
                        mirror := { d.mirror with imgActive := recoveryImage } }

/-- A slot that checks 1 to 3 have rejected in this boot: the slot-rejected event names it and the check (R102). -/
def rejectSlot (s : Nat) (d : Dev) : Dev :=
  event 184 s ((slotImage d.images s).valid + 1) { d with images := { d.images with rejected := d.images.rejected ++ [s] } }

/-- The choice among the slots in an order (R102). -/
def chooseSlot (order : List Nat) (d : Dev) : Dev :=
  let bad := (considered d.images order).filter (fun s => (slotImage d.images s).valid ≠ 3 && !d.images.rejected.contains s)
  let d1 := bad.foldl (fun d s => rejectSlot s d) d
  match order.find? (fun s => fits (slotImage d.images s)) with
  | some s => loadFrom s d1
  | none => match order.find? (fun s => (slotImage d.images s).valid = 3) with
    | some s => loadFrom s d1
    | none => startRecovery 2 d1

/-- Selection from the directory: NEXT_ONCE is cleared before the trial image runs, and a torn copy, or no valid one, is reported. -/
def selectSlot (d : Dev) : Dev :=
  let i := d.images
  let dir := dirNow i
  let d1 := if isTorn i.dirA i.dirB || isTorn i.dirB i.dirA || (dirPick i).isNone then event 185 0xFFFF dir.gen d else d
  let d2 := if dir.nextOnce = 0xFF then d1
    else { d1 with images := { writeDir dir.preferred 0xFF d1.images with romWrote := some (dirTarget i) } }
  chooseSlot (bootOrder dir) d2

/-- DIE_RESET_RELEASE (R95, R98, R102, R113, R554): nothing where no reset holds the die. SMB_ADDR1 and SMB_ADDR0 are sampled. The PLL
starts on the default reference of the
part, and ORF_WARM reads 1 on an X part (R11). -/
def dieResetRelease (bootRecovLow flashOk : Bool) (smbAddr : BitVec 2) (x : Ctx) (d : Dev) : Dev :=
  if !d.images.inReset || d.thermal.isShut then d
  else
    let again := d.images.bootStaged && (d.images.staged.any (fun i => i.valid = 3))
    let d1 := { d with images := { d.images with inReset := false, bootStaged := false, flashOk := flashOk }
                       hif := { d.hif with orfWarm := d.hif.orfWarm || !x.fuse.oven }
                       lattice := { d.lattice with refPN := !x.fuse.oven }
                       bench := { d.bench with smbAddr := 0x58 + smbAddr.toNat } }
    let d2 := if bootRecovLow then startRecovery 4 d1 else if again then loadFrom 2 d1 else if flashOk then selectSlot d1 else startRecovery 2 d1
    if !x.fuse.duplex then { d2 with mirror := { d2.mirror with standby := 0 } }
    else setStandby (if d2.hif.restrict = 0 then 2 else 1) d2

/-! Loading and ready (R103). -/

/-- The active core's image is loaded: after a die reset both cores of a D part run it; a core that reloads runs what it ran (R97). -/
def activeLoaded (src : Nat) (x : Ctx) (d : Dev) : Dev :=
  let images : Images := { d.images with bootSrc := none, romWrote := none }
  if d.images.reloading then { d with images := images }
  else
    let i := sourceImage d src
    { d with images := images, mirror := { d.mirror with imgActive := i, imgStandby := if x.fuse.duplex then i else d.mirror.imgStandby } }

/-- The standby's image runs: resynchronisation begins, and IMG_LOAD_STANDBY ends (R114); a standby that is held keeps the image for its
next start. -/
def standbyLoaded (d : Dev) : Dev :=
  let seq := d.images.loadSeq
  let d1 := { d with images := { d.images with loadSeq := none }, mirror := { d.mirror with imgStandby := sourceImage d d.mirror.loadSrc } }
  endSeq seq (fun c d => doneCmd c 0x0E00 d) (if heldStandby d then d1 else startResync d1)

/-- The loaded copy fails check `n` of checks 1 to 3 (R103): after a staged image the directory selects (R113); a slot counts as
rejected, and the other one is chosen. STATE stays 1 while the ROM selects again: DESIGN CHOICE, log entry 108. A flash that does not answer
is not read (R98). -/
def bootLoadFailed (src n : Nat) (d : Dev) : Dev :=
  let d1 := { d with images := { d.images with bootSrc := none } }
  if !d1.images.flashOk then startRecovery 2 d1
  else if 2 ≤ src then selectSlot d1
  else
    let bad := { slotImage d1.images src with valid := n - 1 }
    chooseSlot (bootOrder (dirNow d1.images)) (rejectSlot src { d1 with images := setSlotImage src bad d1.images })

/-- How IMG_LOAD_STANDBY fails at check `n` (R108); the offset that check 1 names is free (log entry 108). -/
def loadFail (n : Nat) (d : Dev) : Fail :=
  match n with
  | 1 => atPayload 0x0E10 (Config.free d.freeCtr % 416)
  | 2 => atPayload 0x0E11 32
  | _ => { status := 0x0E12, detail := 52 }

/-- The standby's copy fails a check: the command that loads it ends, and the standby is held in reset (log entry 108). -/
def standbyLoadFailed (n : Nat) (d : Dev) : Dev :=
  let f := loadFail n d
  let d0 := useFree { d with images := { d.images with loadSeq := none } }
  let d1 := if d.mirror.errLatched then d0 else setStandby 1 d0
  endResync (endSeq d.images.loadSeq (fun c d => failCmd c f d) d1)

/-- IMAGE_LOAD_COMPLETE (R103, R114): `failed` is the check of R101 that the loaded copy fails, 0 for none. DESIGN CHOICE (log entry 142): a
core that reloads the image it ran (R97) runs it whatever a check says. -/
def imageLoadComplete (mirror : Bool) (failed : Nat) (x : Ctx) (d : Dev) : Dev :=
  if mirror = d.hif.core then
    match d.images.bootSrc with
    | none => d
    | some src =>
      if d.hif.state ≠ .imageLoading then d
      else if failed = 0 ∨ d.images.reloading then activeLoaded src x d
      else bootLoadFailed src failed d
  else if (d.mirror.standby = 2 ∨ (d.images.loadSeq.isSome ∧ heldStandby d)) ∧ firmwareRuns d then
    (if failed = 0 then standbyLoaded d else standbyLoadFailed failed d)
  else d

/-- The reason for restricted mode (R104): the lowest that applies, 0 for none. -/
def restrictReason (d : Dev) (trained : Bool) : Nat :=
  if !d.mirror.imgActive.stepOk then 1 else if d.hif.restrict = 2 then 2 else if !trained then 3 else d.hif.restrict

/-- Commands that a core's loss left behind end (log entry 54). -/
def endLost (d : Dev) : Dev := (d.core.cmds.filter (·.dead)).foldl (fun d c => failCmd c { status := 0x00FF } d) d

/-- A core that reloaded its image is back (R97). -/
def readyAgain (x : Ctx) (d : Dev) : Dev :=
  let d1 := endLost (cutWrite { d with images := { d.images with reloading := false } })
  let st : DevState := if d1.hif.restrict = 0 then .ready else .restricted
  followTap x (causeEnded (endCauseAll .coreFault (eventState { d1 with hif := { d1.hif with state := st } })))

/-- Outputs at ready or restricted: they leave the off condition for the safe level; acquire converters start at ready only (R106). -/
def startPorts (restricted : Bool) (x : Ctx) (d : Dev) : Dev :=
  d.forAll (x.fuse.indices.filter (fun i => i < 96 && (i < 84 || !restricted))) fun i d => d.setPort i { d.port i with off := false }

/-- Steps 5 and 6 of the boot (R103): versions, DDR5, calibration store and the trims it gives, an envelope store of 0, event inputs. -/
def firmwareUp (ddrGib : BitVec 16) (reason : Nat) (trained : Bool) (x : Ctx) (d : Dev) : Dev :=
  let d1 := showImage d
  let h : Hif := { d1.hif with
    restrict := reason, ddrGib := if trained then ddrGib else 0, ddrResv := if trained then BitVec.ofNat 16 Config.reservedMiB else 0 }
  let d2 := recomputeTrims x (readStore x { d1 with hif := h })
  { d2 with cal := { d2.cal with commitAt := d2.time.raw }, env := [], tim := { d2.tim with inputs := resetInputs x.fuse }, images := { d2.images with staged := none, stagedInEnv := false, romWrote := none } }

/-- A boot ends: ready, or restricted with every output held safe (R104, R106). -/
def bootReady (ddrGib : BitVec 16) (trained : Bool) (x : Ctx) (d : Dev) : Dev :=
  let reason := restrictReason d trained
  let d1 := startPorts (reason ≠ 0) x (firmwareUp ddrGib reason trained x d)
  let d2 := if d1.images.thermalBoot then event 175 0xFFFF d1.thermal.shutdowns { d1 with images := { d1.images with thermalBoot := false } } else d1
  let st : DevState := if reason = 0 then .ready else .restricted
  let d3 := eventState { d2 with hif := { d2.hif with state := st }, mirror := { d2.mirror with epochLt := d2.time.lat } }
  let d4 := if reason = 0 then d3 else allSafe x.fuse .restricted d3
  let d5 := followTap x d4
  if !x.fuse.duplex then d5 else if reason = 0 then startResync d5 else setStandby 1 d5

/-- A HOLD_N that is low at ready counts as pressed 5 ms later: a HOLD_PRESSED row says so (R436). -/
def noteHold (low : Bool) (d : Dev) : Dev :=
  if low && d.hif.state = .ready then { d with bench := { d.bench with lowSince := some d.time.raw } } else d

/-- FIRMWARE_READY (R103, R104): after a boot, or after a core's reload. -/
def firmwareReady (ddrGib : BitVec 16) (trained holdLow : Bool) (x : Ctx) (d : Dev) : Dev :=
  let loaded := d.images.bootSrc.isNone && d.hif.state = .imageLoading
  if d.images.inReset || !loaded then d
  else noteHold holdLow (if d.images.reloading then readyAgain x d else bootReady ddrGib trained x d)

/-! The rows. -/
def execImgStatus (mb : Fin 32) (h : HostSide) (s : State) : Host.Outcome State Fault Refusal := cmdRow imgStatusSpec mb h s
def execImgStage (mb : Fin 32) (h : HostSide) (s : State) : Host.Outcome State Fault Refusal := cmdRow imgStageSpec mb h s
def execImgWrite (mb : Fin 32) (h : HostSide) (s : State) : Host.Outcome State Fault Refusal := cmdRow imgWriteSpec mb h s
def execImgSelect (mb : Fin 32) (h : HostSide) (s : State) : Host.Outcome State Fault Refusal := cmdRow imgSelectSpec mb h s
def execImgReboot (mb : Fin 32) (h : HostSide) (s : State) : Host.Outcome State Fault Refusal := cmdRow imgRebootSpec mb h s
def execImgLoadStandby (mb : Fin 32) (h : HostSide) (s : State) : Host.Outcome State Fault Refusal := cmdRow imgLoadStandbySpec mb h s
def execImgHandover (mb : Fin 32) (h : HostSide) (s : State) : Host.Outcome State Fault Refusal := cmdRow imgHandoverSpec mb h s
def execSlotWriteEnd (ok : Bool) (s : State) : Host.Outcome State Fault Refusal := .next (s.on (slotWriteEnd ok))
def execDieResetRelease (bootRecovLow flashOk : Bool) (s : State) (smbAddr : BitVec 2 := 0) : Host.Outcome State Fault Refusal :=
  .next (s.on (dieResetRelease bootRecovLow flashOk smbAddr))
def execImageLoadComplete (mirror : Bool) (s : State) (failed : Fin 4 := 0) : Host.Outcome State Fault Refusal :=
  .next (s.on (imageLoadComplete mirror failed.val))
def execFirmwareReady (ddrGib : BitVec 16) (trained holdLow : Bool) (s : State) : Host.Outcome State Fault Refusal :=
  .next (s.on (firmwareReady ddrGib trained holdLow))

end Sys2Proof.Machine
end

