-- ==== Sys2Proof/Machine/Program.lean ====
section
/-! DEFINITION. Program and locus commands (R208 to R218) and the opening of a shot (R25). -/

namespace Sys2Proof.Machine

/-! RAY_STATUS (R213). -/

/-- STATE of a ray entry (R213). -/
def RayState.code : RayState → Nat
  | .idle => 0 | .running => 1 | .blocked => 2 | .chord _ _ => 3 | .barrier _ _ => 4 | .merid => 5 | .opening => 5 | .halted => 6

/-- One ray's entry. -/
def rayEntry (d : Dev) (r : Nat) : List Byte :=
  let y := d.ray r
  le 1 y.st.code ++ le 1 y.loops.length ++ le 1 (match y.st with | .barrier b _ => b | _ => 0xFF) ++ zeros 1 ++ le 4 y.pc ++
    le 8 y.c.toNat

/-- Programs resident, as a bit mask. -/
def residentMask (d : Dev) : Nat := ((List.range 16).map fun i => flag (d.prog i).isSome i).sum

/-- RAY_STATUS (R213). -/
def rayStatusBytes (d : Dev) : List Byte :=
  let r := d.core.run
  let st := if r.active then (if r.stopping.isSome then 3 else 2) else if residentMask d = 0 then 0 else 1
  le 1 st ++ le 1 r.progId ++ le 2 (residentMask d) ++ le 1 (if r.active then 0 else r.endReason) ++ zeros 3 ++ le 8 r.shotNext ++
    le 8 r.issued ++ le 8 r.completed ++ le 8 r.failed ++ le 8 r.deferred ++ le 8 r.m0 ++ le 8 d.time.lat ++
    (List.range 128).flatMap (rayEntry d)

def rayStatusSpec : CmdSpec where
  op := 0x0400
  len := lenIs 0
  check := fun _ _ _ => none
  act := fun _ c d => replyCmd c 0x0400 (rayStatusBytes d) d

/-! PROG_LOAD (R214, R195, R197). -/

/-- The running program has this PROG_ID. -/
def isRunningProg (d : Dev) (id : Nat) : Bool := running d && d.core.run.progId == id

/-- Resident programs a load removes (R195). -/
def removedBy (d : Dev) (id base blocks : Nat) : List Nat :=
  (List.range 16).filter fun i =>
    match d.prog i with
    | none => false
    | some p => i == id || (!isRunningProg d i && overlaps base blocks (p.base / 4096) (blocksOf p.words))

/-- The blocks do not lie within program memory and clear of the running program (R197 check 2). -/
def blocksBad (d : Dev) (base blocks : Nat) : Bool :=
  decide (128 < base + blocks) ||
  (match runProg d with | none => false | some p => overlaps base blocks (p.base / 4096) (blocksOf p.words))

/-- Static extent plus MARGIN of an image, in ticks (R197 check 4). -/
def imgExtent (d : Dev) (c : Cmd) (m : Img) : Nat := ticksUp (staticExtent (imgCode c m) d.locus (m.rays.map (·.2))) + m.margin

/-- PROG_LOAD (R214). Its payload comes with BULK = 1: one given inline fails as LENGTH does, 0x0015 DETAIL 8 (DESIGN CHOICE, log entry
105). -/
def progLoadSpec : CmdSpec where
  op := 0x0401
  len := fun c => c.bulk && decide (96 ≤ c.length)
  check := fun x c d =>
    let m := imgOf c
    let code := imgCode c m
    let entries := m.rays.map (·.2)
    firstFail ([fRange c 0 1 0 15, fRes c 1 3, fRange c 4 2 0 127, fRes c 6 10, fIf (isRunningProg d (c.arg 0 1)) 0x0410 0,
      imageFail c, fIf (blocksBad d (c.arg 4 2) (blocksOf m.codeWords)) 0x0411 4] ++
      (List.range code.length).map (wordFail x d code entries) ++
      [barrFail code m.rays m.barriers,
       (if d.lattice.period < imgExtent d c m then some { status := 0x0412, imm := imgExtent d c m } else none)])
  act := fun _ c d =>
    let m := imgOf c
    let gone := removedBy d (c.arg 0 1) (c.arg 4 2) (blocksOf m.codeWords)
    let base := 4096 * c.arg 4 2
    let p : Prog := { base := base, words := m.codeWords, margin := m.margin, rays := m.rays, barriers := m.barriers }
    let mem := ((imgCode c m).zipIdx).foldl (fun s w => Store.set 0 s (base + w.2) (BitVec.ofNat 64 w.1)) d.core.progMem
    let progs := gone.foldl (fun s i => Store.set none s i none) d.core.progs
    okCmd c 0x0400 gone.length [] false
      { d with core := { d.core with progMem := mem, progs := Store.set none progs (c.arg 0 1) (some p) } }

/-! PROG_START (R208, R215). -/

/-- The first locus a program names, in the order of its code, that fails R199 (R215; which of several is named is DESIGN CHOICE, log entry
129). -/
def namedLocusFail (x : Ctx) (d : Dev) (p : Prog) : Option Fail :=
  firstFail ((immediateLoci (progCode d p)).map fun i => locusFail x d i (d.locus i))

/-- Record the resume point at the opening of shot `k` (R468). -/
def recordResume (k : Nat) (d : Dev) : Dev :=
  { d with mirror := { d.mirror with resume := { shot := k, rays := d.core.rays, frames := d.core.frames } } }

/-- What a stage still holds of an earlier program. -/
def outliveStage (d : Dev) (s : Stage) : Stage :=
  { s with queue := s.queue.map (outlive d), playing := s.playing.map (outlive d), tails := s.tails.map (outlive d) }

/-- Results of an earlier program that a read-out processor still holds (R291). -/
def outliveRp (r : Rp) : Rp :=
  let later (q : RpResult) : RpResult := { q with shot := outliveShot q.shot }
  { r with res := later r.res, queue := r.queue.map later }

/-- A stage holds an item of an earlier program: its port's configuration goes on for it (R165). -/
def stageHolds (s : Stage) : Bool := !s.playing.isEmpty || !s.queue.isEmpty

/-- A window of the channel is open or awaits its state instant: it goes on needing the samples that were invalid in it (R254). -/
def windowWaits (d : Dev) (ch : Nat) : Bool := (d.stage (84 + ch / 16)).playing.any (fun t => t.chan = ch)

/-- The program starts: shot 0 opens (R208), rays at their ENTRY with every register 0 (R189); the chord store (R312) and
the shot statuses (R524) are emptied. -/
def startProgram (id : Nat) (p : Prog) (m0 shots : Nat) (continuous : Bool) (d : Dev) : Dev :=
  let run : Run := { active := true, progId := id, everRun := true, continuous := continuous, shots := shots, issued := 1, m0 := m0,
                     next := m0, fixed := true, period := periodNow d, before := d.core.run.mers, beforeEnd := d.core.run.endAt
                     absent := d.core.run.absent.map (fun a => (outliveShot a.1, a.2)) }
  let first : Shot := { num := 0, fails := firstFails d }
  let rays := p.rays.foldl (fun s r => Store.set ({} : Ray) s r.1 { st := .running, pc := r.2 }) []
  recordResume 0 { d with
    core := { d.core with
              run := run, shots := [first], statuses := [], rays := rays, fabric := []
              tablesPrev := [], exportsPrev := [], frameDone := [], rps := d.core.rps.map (fun kv => (kv.1, outliveRp kv.2)) }
    chords := { d.chords with store := [] }
    stages := d.stages.map (fun kv => (kv.1, outliveStage d kv.2))
    envPrev := []
    envCopies := d.envCopies.map (fun e => { e with last := none })
    ports := d.ports.map (fun kv => (kv.1, { kv.2 with prev := if stageHolds (d.stage kv.1) then outliveCfgs kv.2.cfg kv.2.prev else [] }))
    acq := { d.acq with
      rings := d.acq.rings.map (fun kv => (kv.1, { kv.2 with offers := kv.2.offers.map outliveOffer }))
      units := d.acq.units.map (fun kv => (kv.1, { kv.2 with trigShot := outliveShot kv.2.trigShot })) }
    chans := d.chans.map (fun kv => (kv.1, { kv.2 with
      prev := if windowWaits d kv.1 then outliveCfgs kv.2.cfg kv.2.prev else []
      invalid := kv.2.invalid.filter (fun v => windowWaits d kv.1 || decide (d.time.lat < v.2)) })) }

/-- PROG_START (R215). -/
def progStartSpec : CmdSpec where
  op := 0x0402
  len := lenIs 24
  check := fun x c d =>
    let when1 := bitOf (c.arg 1 1) 0
    let p := d.prog (c.arg 0 1)
    firstFail [fRange c 0 1 0 15, fFlags c 1 2, fRes c 2 6, (if when1 then none else fRes c 8 8),
      (if bitOf (c.arg 1 1) 1 then fRes c 16 8 else fRange c 16 8 0 (2 ^ 48 - 1)),
      fNone (running d) 0x0410, fNone (!d.hif.lock) 0x0418, fIf p.isNone 0x0417 0,
      fIf (when1 && decide (c.arg 8 8 < d.time.lat + 20000)) 0x0416 8, p.bind (namedLocusFail x d),
      p.bind (fun p => if periodNow d < progExtent d p then some { status := 0x0412, imm := progExtent d p } else none)]
  act := fun _ c d =>
    let cont := bitOf (c.arg 1 1) 1
    match d.prog (c.arg 0 1) with
    | none => d
    | some p =>
      if c.arg 16 8 = 0 ∧ !cont then okCmd c 0x0002 0 [] true d
      else
        let m0 := if bitOf (c.arg 1 1) 0 then c.arg 8 8 else d.time.lat + 20000
        let d1 := endCalRun Cause.preempted (cancelArmed 0x0216 0xFFFF d)
        let d2 := event 50 (c.arg 0 1) 0 (startProgram (c.arg 0 1) p m0 (c.arg 16 8) cont d1)
        doneCmd c 0x0400 d2

/-- PROG_STOP (R216, R210): it ends with the program. -/
def progStopSpec : CmdSpec where
  op := 0x0403
  len := lenIs 4
  check := fun _ c _ => firstFail [fRange c 0 1 0 1, fRes c 1 3]
  act := fun x c d =>
    if !running d then okCmd c 0x0002 0 [] true d
    else
      let r := d.core.run
      let d1 := { d with core := { d.core with run := { r with stopSeqs := r.stopSeqs ++ [c.seq] } } }
      if r.stopping = some 1 then d1
      else if c.arg 0 1 = 1 then stopNow Cause.stopped 3 x d1
      else if r.stopping.isSome then d1
      else { d1 with core := { d1.core with run := { d1.core.run with stopping := some 0, endReason := 3 } } }

/-! Loci (R217, R218). -/

/-- Range checks of the 8-byte header of LOC_WRITE and LOC_READ. -/
def locRange (c : Cmd) : List (Option Fail) :=
  [fRange c 0 4 0 40959, fIf (c.arg 4 4 = 0 || decide (40960 < c.arg 0 4 + c.arg 4 4)) 0x1B 4]

/-- The generic fault of new locus `j` of a LOC_WRITE. -/
def newLocusGeneric (x : Ctx) (c : Cmd) (j : Nat) : Option Fail :=
  let o := 8 + 64 * j
  (locusGeneric x (locusAt c.payload o) (fun off n => c.arg (o + off) n)).map fun f => atPayload f.1 (o + f.2)

/-- The running program would outgrow the period with these loci (R217): the lowest index at which it does. -/
def locExtentFail (x : Ctx) (c : Cmd) (d : Dev) : Option Fail :=
  let q := projected x d
  match runProg d with
  | none => none
  | some p =>
    let withLoci (n : Nat) : Nat → Locus := fun i =>
      if c.arg 0 4 ≤ i ∧ i < c.arg 0 4 + n then locusAt c.payload (8 + 64 * (i - c.arg 0 4)) else q.locus i
    let long (n : Nat) : Bool :=
      decide (q.lattice.period < ticksUp (staticExtent (progCode d p) (withLoci n) (p.rays.map (·.2))) + p.margin)
    if long (c.arg 4 4) then
      ((List.range (c.arg 4 4)).find? (fun j => long (j + 1))).map fun j => { status := 0x0419, detail := 12, imm := c.arg 0 4 + j }
    else none

/-- LOC_WRITE (R217). -/
def locWriteSpec : CmdSpec where
  op := 0x0404
  len := fun c => c.length == 8 + 64 * c.arg 4 4
  check := fun x c d => firstFail (locRange c ++ (List.range (c.arg 4 4)).map (newLocusGeneric x c) ++
    (List.range (c.arg 4 4)).map (fun j => locusFail x d (c.arg 0 4 + j) (locusAt c.payload (8 + 64 * j))) ++ [locExtentFail x c d])
  act := fun x c d => stageOrApply x c d

/-- LOC_READ (R218). -/
def locReadSpec : CmdSpec where
  op := 0x0405
  len := lenIs 8
  check := fun _ c _ => firstFail (locRange c)
  act := fun _ c d => replyCmd c 0x0400 ((List.range (c.arg 4 4)).flatMap fun i => locusBytes (d.locus (c.arg 0 4 + i))) d

/-! The opening of a shot (R25, R191, R192). -/

/-- Shot `k` may open now: every ray has passed the MERID ending shot k − 1, M(k − 1) has occurred (R191), and the run has
not ended or stopped. -/
def mayOpen (d : Dev) (k : Nat) : Bool :=
  let rays := progRays d
  let passed (r : Nat) : Bool := match (d.ray r).st with | .halted => true | _ => decide (k ≤ (d.ray r).shot)
  let halted (r : Nat) : Bool := match (d.ray r).st with | .halted => true | _ => false
  running d && !d.mirror.failed && d.core.run.stopping.isNone && !d.core.run.switching && d.mirror.planned.isNone && decide (k ≤ d.core.run.k) &&
    rays.all passed && !(rays.all halted && decide (d.core.run.lastHalt < k)) && (match shotLimit d with | none => true | some n => decide (k < n))

/-- SHOT_OPEN: the next shot opens; one already decided is only marked opened (R192). -/
def shotOpen (_ : Ctx) (d : Dev) : Dev :=
  let k := d.core.run.shotNext + 1
  if !mayOpen d k then d
  else
    let run := { d.core.run with shotNext := k }
    let d1 := recordResume k (settleFrames k { d with core := { d.core with run := run } })
    if pastDecision d k then d1
    else
      let s : Shot := { num := k, period := d.core.run.period, fails := firstFails d }
      { d1 with core := { d1.core with shots := d1.core.shots ++ [s], run := { run with issued := addW 64 run.issued 1 } } }

/-! The rows. -/
def execRayStatus (mb : Fin 32) (h : HostSide) (s : State) : Host.Outcome State Fault Refusal := cmdRow rayStatusSpec mb h s
def execProgLoad (mb : Fin 32) (h : HostSide) (s : State) : Host.Outcome State Fault Refusal := cmdRow progLoadSpec mb h s
def execProgStart (mb : Fin 32) (h : HostSide) (s : State) : Host.Outcome State Fault Refusal := cmdRow progStartSpec mb h s
def execProgStop (mb : Fin 32) (h : HostSide) (s : State) : Host.Outcome State Fault Refusal := cmdRow progStopSpec mb h s
def execLocWrite (mb : Fin 32) (h : HostSide) (s : State) : Host.Outcome State Fault Refusal := cmdRow locWriteSpec mb h s
def execLocRead (mb : Fin 32) (h : HostSide) (s : State) : Host.Outcome State Fault Refusal := cmdRow locReadSpec mb h s
def execShotOpen (s : State) : Host.Outcome State Fault Refusal := .next (s.on shotOpen)

end Sys2Proof.Machine
end

