-- ==== Sys2Proof/Machine/Thermal.lean ====
section
/-! DEFINITION. Temperature, housekeeping and rails (18): sensor checks, bands, the warning, throttling, host conversions,
rail scans and their commands. -/

namespace Sys2Proof.Machine

/-! Sensors (R490 to R496). -/

/-- The neighbours of a sensor in the 4 × 6 grid (R490). -/
def neighbours (n : Nat) : List Nat :=
  (List.range 24).filter fun m =>
    m ≠ n && decide (((m / 6 : Nat) : Int) - (n / 6 : Nat) ≤ 1 ∧ ((n / 6 : Nat) : Int) - (m / 6 : Nat) ≤ 1 ∧
      ((m % 6 : Nat) : Int) - (n % 6 : Nat) ≤ 1 ∧ ((n % 6 : Nat) : Int) - (m % 6 : Nat) ≤ 1)

/-- A reading in 1/16 °C, `none` for an open or short diode. -/
def SensorReading.value : SensorReading → Option Int
  | .temp v => some v
  | .openCircuit => none
  | .shorted => none

/-- Check 1: from −40 °C to 150 °C (R493). -/
def inRange : Option Int → Bool
  | none => false
  | some v => decide (-640 ≤ v ∧ v ≤ 2400)

/-- Twice the median of a list of readings (R493): with an even count, the sum of the two middle values. -/
def median2 (vs : List Int) : Int :=
  let s := sortBy (fun a b => decide (a ≤ b)) vs
  if s.length % 2 = 1 then 2 * s.getD (s.length / 2) 0 else s.getD (s.length / 2 - 1) 0 + s.getD (s.length / 2) 0

/-- The neighbours whose readings stand for check 2: in service and in range (R493, log entry 51). -/
def validReadings (d : Dev) (vs : List (Option Int)) (n : Nat) : List Int :=
  ((neighbours n).filter (fun m => (d.sensor m).state = 0 && inRange (vs.getD m none))).filterMap (fun m => vs.getD m none)

/-- The first check that a reading fails, or 0 (R493). -/
def checkReading (d : Dev) (vs : List (Option Int)) (n : Nat) : Nat :=
  match vs.getD n none with
  | none => 1
  | some v =>
    let near := validReadings d vs n
    if !inRange (some v) then 1
    else if near ≠ [] ∧ 192 < (2 * v - median2 near).natAbs then 2
    else match (d.sensor n).accepted with
      | none => 0
      | some (a, t) => if 16000000000 + 1600 * (d.time.raw - t) < (v - a).natAbs * 1000000000 then 3 else 0

/-- A sensor after its reading: a failed one returns after 100 consecutive readings that pass (R493, R494). -/
def sensorAfter (q : Sensor) (fail : Nat) (v : Int) (raw : Nat) : Sensor :=
  if q.state = 0 then (if fail = 0 then { q with value := v, accepted := some (v, raw), good := 0 } else { q with state := fail, good := 0 })
  else if fail ≠ 0 then { q with good := 0 }
  else if 99 ≤ q.good then { value := v, state := 0, accepted := some (v, raw), good := 0 }
  else { q with good := q.good + 1 }

def Dev.setSensor (d : Dev) (n : Nat) (v : Sensor) : Dev :=
  { d with thermal := { d.thermal with sensors := Store.set {} d.thermal.sensors n v } }

/-- Read sensor `n`; `fails` are the checks of this sample. -/
def readSensor (fails : List Nat) (vs : List (Option Int)) (n : Nat) (d : Dev) : Dev :=
  let q := d.sensor n
  let q1 := sensorAfter q (fails.getD n 0) ((vs.getD n none).getD 0) d.time.raw
  let d1 := d.setSensor n q1
  if q.state = 0 ∧ q1.state ≠ 0 then event 168 n q1.state d1 else if q.state ≠ 0 ∧ q1.state = 0 then event 169 n 0 d1 else d1

/-- The highest value of sensors in service among some. -/
def highestOf (d : Dev) (ns : List Nat) : Option Int :=
  ns.foldl (fun (m : Option Int) n =>
    if (d.sensor n).state ≠ 0 then m
    else match m with | none => some (d.sensor n).value | some v => some (max v (d.sensor n).value)) none

/-- The substitute of a failed sensor (R494). -/
def substitute (d : Dev) (n : Nat) : Int :=
  match highestOf d (neighbours n) with
  | some v => v + 48
  | none => match highestOf d (List.range 24) with
    | some v => v + 48
    | none => 1840

/-- Failed sensors take their substitutes (R494). -/
def substituteAll (d : Dev) : Dev :=
  (List.range 24).foldl (fun e n => if (d.sensor n).state = 0 then e else e.setSensor n { e.sensor n with value := substitute d n }) d

/-- T_up and the sensor that gives it, the lowest of several (R495; log entry 121). -/
def topValue (d : Dev) : Int × Nat :=
  (List.range 24).foldl (fun (m : Int × Nat) n => if m.1 < (d.sensor n).value then ((d.sensor n).value, n) else m) ((d.sensor 0).value, 0)

/-- T_down: T_up and the last valid reading of each failed sensor (R495). -/
def holdDown (d : Dev) (tUp : Int) : Int :=
  (List.range 24).foldl (fun m n =>
    if (d.sensor n).state = 0 then m else match (d.sensor n).accepted with | none => m | some (v, _) => max m v) tUp

/-- The sample period after a sample, in µs (R496). -/
def samplePeriod (tUp : Int) (level : Nat) : Nat :=
  let dist := min (min (tUp - 1520).natAbs (tUp - 1600).natAbs) (tUp - 1840).natAbs
  if dist ≤ 32 then 100 else if dist ≤ 80 ∨ 1 ≤ level then 1000 else 10000

/-! Bands, warning and throttling (R497 to R502). -/

/-- The band of a temperature (R497). -/
def bandOf (t : Int) : Nat := if t < 960 then 0 else if t < 1360 then 1 else if t ≤ 1600 then 2 else 3

/-- The threshold below which T_down must stay for a band to fall: its lower boundary less 2 K (R497). -/
def bandFloor (band : Nat) : Int := match band with | 1 => 928 | 2 => 1328 | _ => 1568

/-- The throttle level of a temperature, and the release thresholds (R499). -/
def tempLevel (t : Int) : Nat := if t < 1600 then 0 else if t < 1632 then 1 else if t < 1664 then 2 else 3
def levelFloor (level : Nat) : Int := match level with | 1 => 1568 | 2 => 1600 | _ => 1632

/-- How long a temperature has stayed below a threshold: the raw tick it began. -/
def coolSince (was : Option Nat) (below : Bool) (raw : Nat) : Option Nat := if below then some (was.getD raw) else none

/-- The throttle level changes (R500): thermal-throttle is raised, and a calibration run fails when it rises from 0 (R502). -/
def setLevel (n : Nat) (d : Dev) : Dev :=
  let t := d.thermal
  if n = t.level then d
  else
    let ms := if t.level ≠ 0 ∧ n = 0 then t.throttleMs + (d.time.raw - t.throttleSince) else t.throttleMs
    let t1 : Thermal := { t with level := n, release := false, throttleMs := ms, throttleSince := if t.level = 0 then d.time.raw else t.throttleSince }
    let d1 := setExtension { d with thermal := t1 }
    let d2 := if t.level = 0 then endCalRun Cause.thermal d1 else d1
    event 174 0xFFFF n d2

/-- Step 5 of R28: the level at a meridian (R500), and a change of EXTEND (R515). -/
def throttleAtMeridian (d : Dev) : Dev :=
  let t := d.thermal
  let d1 := { d with thermal := { t with extend := t.extendNext.getD t.extend, extendNext := none } }
  let up := tempLevel t.tUp
  if t.level < up then setLevel up d1 else if t.release ∧ 0 < t.level then setLevel (t.level - 1) d1 else setExtension d1

/-- After a sample: T_up, T_down, how long each threshold has held, rises of the band, warning and level (R495 to R500). -/
def noteTemperature (d : Dev) : Dev :=
  let t := d.thermal
  let (tUp, src) := topValue d
  let tDown := holdDown d tUp
  let raw := d.time.raw
  let cools (floor : Nat → Int) (was : Store (Option Nat)) : Store (Option Nat) :=
    [1, 2, 3].foldl (fun s i => Store.set none s i (coolSince (Store.get none was i) (decide (tDown < floor i)) raw)) []
  let band := max t.band (bandOf tUp)
  let levelCool := cools levelFloor t.levelCool
  let t1 : Thermal := { t with
    tUp := tUp, tUpSrc := src, tDown := tDown, band := band, warning := t.warning || decide (1520 ≤ tUp),
    bandCool := cools bandFloor t.bandCool, levelCool := levelCool, warnCool := coolSince t.warnCool (decide (tDown < 1488)) raw,
    release := t.release && (Store.get none levelCool t.level).isSome }
  let d1 := { d with thermal := t1 }
  let d2 := if band ≠ t.band then event 172 0xFFFF band d1 else d1
  let d3 := if t1.warning && !t.warning then event 173 0xFFFF 1 d2 else d2
  let d4 := if running d3 then d3 else setLevel (max d3.thermal.level (tempLevel tUp)) d3
  { d4 with thermal := { d4.thermal with periodUs := samplePeriod tUp d4.thermal.level } }

/-! Remote diodes (R491). -/

/-- A remote diode is read (R491). -/
def readRemote (r : SensorReading) (n : Nat) (d : Dev) : Dev :=
  let q := d.remote n
  match r with
  | .openCircuit => let d1 := d.setRemote n { q with state := 1 }; if q.state = 1 then d1 else event 170 n 1 d1
  | .shorted => let d1 := d.setRemote n { q with state := 2 }; if q.state = 2 then d1 else event 170 n 2 d1
  | .temp v =>
    let above := decide (q.limit < v)
    let q1 : Remote := { q with value := v, state := if above then 3 else 0, excursion := above || (q.excursion && decide (q.limit - 32 < v)) }
    let d1 := d.setRemote n q1
    if above && !q.excursion then event 171 n 3 d1 else d1

/-- DDR5 channel `ch` refreshes at 1.95 µs (R497). -/
def fastRefresh (d : Dev) (ch : Nat) : Bool :=
  decide (2 ≤ d.thermal.band) || decide (1360 < (d.remote (2 + ch)).value) || d.thermal.mr4.getLsbD ch

/-! The rows of sensors and throttling. -/

/-- A firmware scan moves the ADC's mux: the next 2 host results settle again (R505, R506). -/
def scanMux (chan : Nat) (d : Dev) : Dev :=
  { d with house := { d.house with lastSel := (chan, 0, 0), lastSettle := 0, conv := d.house.conv.map (fun c => { c with settle := 2 }) } }

/-- One sample of the 24 sensors and the 4 remote diodes (R493 to R500). -/
def takeSample (ts td : List SensorReading) (x : Ctx) (d : Dev) : Dev :=
  let vs := ts.map SensorReading.value
  let fails := (List.range 24).map (checkReading d vs)
  let d1 := substituteAll (d.forAll (List.range 24) (readSensor fails vs))
  let d2 := d1.forAll (List.range 4) (fun n d => readRemote (td.getD n .openCircuit) n d)
  noteDue x (noteRunTemps (noteTemperature (scanMux 27 d2)))

/-- SENSOR_SAMPLE (R493 to R500), at the period of R496. -/
def sensorSample (ts td : List SensorReading) (x : Ctx) (d : Dev) : Dev :=
  if !firmwareRuns d ∨ ts.length ≠ 24 ∨ td.length ≠ 4 then d
  else takeSample ts td x (paced .sensors d)

/-- BAND_FALL (R497): one band, once T_down has stayed below its floor for 1 s. -/
def bandFall (x : Ctx) (d : Dev) : Dev :=
  let b := d.thermal.band
  match (if b = 0 then none else Store.get none d.thermal.bandCool b) with
  | none => d
  | some t =>
    let d1 := advance (t + 1000000000 - d.time.raw) d
    noteDue x (event 172 0xFFFF (b - 1) { d1 with thermal := { d1.thermal with band := b - 1 } })

/-- THERMAL_WARNING_CLEAR (R498). -/
def thermalWarningClear (_ : Ctx) (d : Dev) : Dev :=
  match (if d.thermal.warning then d.thermal.warnCool else none) with
  | none => d
  | some t =>
    let d1 := advance (t + 1000000000 - d.time.raw) d
    { d1 with thermal := { d1.thermal with warning := false } }

/-- THROTTLE_RELEASE (R499, R500): at the next meridian while a program runs, else at once. -/
def throttleRelease (_ : Ctx) (d : Dev) : Dev :=
  let n := d.thermal.level
  match (if n = 0 then none else Store.get none d.thermal.levelCool n) with
  | none => d
  | some t =>
    let d1 := advance (t + 100000000 - d.time.raw) d
    if running d1 then { d1 with thermal := { d1.thermal with release := true } } else setLevel (n - 1) d1

/-- MR4_POLL (R497), every 1 ms. -/
def mr4Poll (ch : Nat) (fast : Bool) (_ : Ctx) (d0 : Dev) : Dev :=
  let d := paced (.mr4 ch) d0
  let m := if fast then d.thermal.mr4 ||| BitVec.ofNat 2 (2 ^ ch) else d.thermal.mr4 &&& ~~~(BitVec.ofNat 2 (2 ^ ch))
  { d with thermal := { d.thermal with mr4 := m } }

/-! Commands (R513 to R518). -/

/-- Low-power mode is in force (R507). -/
def lowPowerNow (d : Dev) : Bool := d.house.lowPower && d.thermal.periodUs = 10000

/-- THROTTLE_MS now (R514). -/
def throttleMsNow (d : Dev) : Nat :=
  let t := d.thermal
  (t.throttleMs + (if t.level = 0 then 0 else d.time.raw - t.throttleSince)) / 1000000

/-- THM_STATUS (R514). -/
def thmStatusBytes (d : Dev) : List Byte :=
  let t := d.thermal
  let failed := (List.range 24).filter (fun n => (d.sensor n).state ≠ 0)
  le 1 t.band ++ le 1 t.level ++
    le 1 (flag t.warning 0 + flag (t.extendNext.getD t.extend) 1 + flag (failed.any (fun n => (d.sensor n).accepted.isSome)) 2 + flag (lowPowerNow d) 3) ++
    le 1 failed.length ++ leI 2 t.tUp ++ le 1 t.tUpSrc ++ zeros 1 ++ le 4 t.periodUs ++ le 4 t.shutdowns ++ le 8 (throttleMsNow d) ++
    le 8 d.time.lat ++
    (List.range 24).flatMap (fun n => leI 2 (d.sensor n).value ++ le 1 (d.sensor n).state ++ zeros 1) ++
    (List.range 4).flatMap (fun n => leI 2 (d.remote n).value ++ le 1 (d.remote n).state ++ zeros 1) ++
    le 1 t.shutTrip.toNat ++ zeros 15

def thmStatusSpec : CmdSpec where
  op := 0x0D00
  len := lenIs 0
  check := fun _ _ _ => none
  act := fun _ c d => replyCmd c 0x0D00 (thmStatusBytes d) d

/-- THM_CONFIG (R515): a change of EXTEND takes effect at the next meridian. -/
def thmConfigSpec : CmdSpec where
  op := 0x0D01
  len := lenIs 24
  check := fun _ c _ => firstFail ([fFlags c 0 1, fRes c 1 3] ++ (List.range 4).map (fun n => fRangeS c (4 + 2 * n) 2 0 2400) ++
    (List.range 4).map (fun n => fRange c (12 + 2 * n) 2 9000 11000) ++ [fRes c 20 4])
  act := fun _ c d =>
    let d1 := { d with thermal := { d.thermal with extendNext := some (bitOf (c.arg 0 1) 0) } }
    doneCmd c 0x0D00 (d1.forAll (List.range 4) fun n d =>
      d.setRemote n { d.remote n with limit := c.argS (4 + 2 * n) 2, ideal := c.arg (12 + 2 * n) 2 })

/-- HKA_CONVERT (R516, R505): the command ends with its last sample. -/
def hkaConvertSpec : CmdSpec where
  op := 0x0D02
  len := lenIs 16
  check := fun x c d =>
    let ch := c.arg 0 1
    firstFail [fRange c 0 1 0 63, (if 40 ≤ ch then fRange c 1 1 0 3 else fRes c 1 1),
      fIf (decide (40 ≤ ch) && !x.fuse.hasPort (4 * (ch - 40) + c.arg 1 1)) 0x14 1, fRange c 2 1 0 2, fRes c 3 1,
      fRange c 4 4 1 65536, fIf (decide (c.arg 8 4 < 500) || decide (1000000000 < c.arg 8 4) || c.arg 8 4 % 500 ≠ 0) 0x1B 8,
      fRes c 12 4, fNone d.house.conv.isSome 0x0D10]
  act := fun _ c d =>
    let sel := (c.arg 0 1, c.arg 1 1, c.arg 2 1)
    let v : Convert := { channel := c.arg 0 1, sub := c.arg 1 1, gain := c.arg 2 1, count := c.arg 4 4, interval := c.arg 8 4, seq := c.seq,
                         due := d.time.raw + c.arg 8 4, settle := if d.house.lastSel = sel then d.house.lastSettle else 2 }
    { d with house := { d.house with conv := some v, lastSel := sel } }

/-- One entry of a host conversion (R508). -/
def hkaEntry (lat : Nat) (v : Convert) (code : BitVec 12) (value : Int) (settling retaken : Bool) : List Byte :=
  le 8 lat ++ le 2 code.toNat ++ le 1 v.channel ++ le 1 (flag settling 0 + flag retaken 1 + 4 * v.gain + 16 * v.sub) ++ leI 4 value

/-- HKA_SAMPLE (R505 to R508, R516): the next host sample is taken, INTERVAL_NS after the one before, or after the command's beginning,
or later where a scan was in the way (log entry 120); a retaken one and the next are settling. In low-power mode each
sample follows a wake, so each is settling. -/
def hkaSample (code : BitVec 12) (value : Int) (retaken : Bool) (_ : Ctx) (d0 : Dev) : Dev :=
  match d0.house.conv with
  | none => d0
  | some v =>
    let d := advance (v.due - d0.time.raw) d0
    let settle := if retaken then 2 else v.settle
    let settling := decide (0 < settle) || lowPowerNow d
    let taken := v.taken ++ hkaEntry d.time.lat v code value settling retaken
    let house : House := { d.house with lastSel := (v.channel, v.sub, v.gain), lastSettle := settle - 1 }
    if v.count ≤ v.n + 1 then
      endSeq (some v.seq) (fun c d => okCmd c 0x0D00 0 taken false d) { d with house := { house with conv := none } }
    else { d with house := { house with conv := some { v with taken := taken, n := v.n + 1, settle := settle - 1, due := d.time.raw + v.interval } } }

/-- Low-power mode ends: the ADC wakes to run on, and the next 2 results settle (R507). -/
def wakeAdc (d : Dev) : Dev :=
  { d with house := { d.house with lastSettle := 2, conv := d.house.conv.map (fun v => { v with settle := 2 }) } }

/-- HKA_CONFIG (R517, R513). -/
def hkaConfigSpec : CmdSpec where
  op := 0x0D03
  len := lenIs 4
  check := fun _ c _ => firstFail [fRange c 0 1 0 1, fRes c 1 3]
  act := fun _ c d =>
    let low := c.arg 0 1 = 1
    let d1 := if lowPowerNow d ∧ ¬ low then wakeAdc d else d
    doneCmd c (if low ∧ d.thermal.periodUs ≠ 10000 then 0x0D01 else 0x0D00) { d1 with house := { d1.house with lowPower := low } }

/-! Rails (R509, R518). -/

/-- The window of a rail in µV (R509): VDD_CORE, VDD_AN, VDD_DAC, VDDQ, VDD_IO, VDD_OVEN. -/
def railWindow (r : Nat) : Int × Int :=
  match r with
  | 0 => (700000, 800000)
  | 1 => (950000, 1050000)
  | 2 => (1425000, 1575000)
  | 3 => (1045000, 1155000)
  | 4 => (1710000, 1890000)
  | _ => (3135000, 3465000)

/-- VDD_OVEN is not checked on X parts (R509). -/
def railChecked (x : Ctx) (r : Nat) : Bool := r ≠ 5 || x.fuse.oven

/-- One rail of a scan (R509): 3 scans outside raise rail-out-of-range, 3 inside again raise rail-restored. -/
def scanRail (x : Ctx) (volts amps : List Int) (r : Nat) (d : Dev) : Dev :=
  let q := d.rail r
  let v := volts.getD r 0
  let w := railWindow r
  let bad := railChecked x r && (decide (v < w.1) || decide (w.2 < v))
  let out := if bad then q.out + 1 else 0
  let inside := if bad then 0 else q.inside + 1
  let flagged := if 3 ≤ out then true else if 3 ≤ inside then false else q.flagged
  let d1 := d.setRail r {
    v := v, i := if r < 4 then amps.getD r 0 else 0, vMin := if q.scanned then min q.vMin v else v, vMax := if q.scanned then max q.vMax v else v,
    out := out, inside := inside, flagged := flagged, scanned := true }
  if flagged && !q.flagged then event 176 r (v % 2 ^ 32).toNat d1 else if !flagged && q.flagged then event 177 r (v % 2 ^ 32).toNat d1 else d1

/-- RAIL_SCAN (R506, R509), every 10 ms. -/
def railScan (volts amps : List Int) (x : Ctx) (d : Dev) : Dev :=
  if !firmwareRuns d ∨ volts.length ≠ 6 then d else (scanMux 37 (paced .rails d)).forAll (List.range 6) (scanRail x volts amps)

/-- One entry of RAIL_STATUS (R518). -/
def railEntry (x : Ctx) (d : Dev) (r : Nat) : List Byte :=
  let q := d.rail r
  let w := railWindow r
  let on := q.scanned && railChecked x r
  leI 4 q.v ++ leI 4 q.i ++ leI 4 q.vMin ++ leI 4 q.vMax ++
    le 1 (flag (on && decide (q.v < w.1)) 0 + flag (on && decide (w.2 < q.v)) 1 + flag (decide (r < 4)) 2) ++ zeros 7

/-- RAIL_STATUS (R518). -/
def railStatusSpec : CmdSpec where
  op := 0x0D04
  len := lenIs 4
  check := fun _ c _ => firstFail [fFlags c 0 1, fRes c 1 3]
  act := fun x c d =>
    let clear := bitOf (c.arg 0 1) 0
    let out := (List.range 6).flatMap (railEntry x d) ++ le 8 d.time.lat
    let reset (r : Nat) (d : Dev) : Dev := d.setRail r { d.rail r with vMin := (d.rail r).v, vMax := (d.rail r).v }
    okCmd c 0x0D00 0 out (!clear) (if clear then d.forAll (List.range 6) reset else d)

/-! SMBus (R510). -/

/-- LINEAR16 with exponent −12 of a value in µV (R510), nearest. -/
def linear16 (uv : Int) : Nat := (roundHalfUp (uv * 4096) 1000000 % 2 ^ 16).toNat

/-- LINEAR11 of `num / den`: the smallest exponent from −16 up whose mantissa fits 11 signed bits, nearest (log entry 53). -/
def linear11From (num : Int) (den : Nat) : Nat → Int → Nat
  | 0, _ => 0
  | fuel + 1, e =>
    let m := if e < 0 then roundHalfUp (num * 2 ^ (-e).toNat) den else roundHalfUp num (den * 2 ^ e.toNat)
    if -1024 ≤ m ∧ m ≤ 1023 then 2048 * (e % 32).toNat + (m % 2048).toNat else linear11From num den fuel (e + 1)
def linear11 (num : Int) (den : Nat) : Nat := linear11From num den 32 (-16)

/-- STATUS_WORD (R510, R503): the paged rail was outside its window at the latest scan. -/
def statusWord (d : Dev) : Nat :=
  flag (decide (1 ≤ d.thermal.level) || d.thermal.isShut) 2 + (if d.thermal.isShut then 0 else flag (decide (0 < (d.rail d.bench.page).out)) 13)

/-- What a read of a code answers; `none` is not acknowledged (R510). -/
def smbusRead (d : Dev) (code : Nat) : Option Nat :=
  let q := d.rail d.bench.page
  match code with
  | 0x00 => some d.bench.page
  | 0x20 => some 0x14
  | 0x79 => some (statusWord d)
  | 0x8B => some (linear16 q.v)
  | 0x8C => some (if 4 ≤ d.bench.page then 0 else linear11 q.i 1000000)
  | 0x8D => some (linear11 d.thermal.tUp 16)
  | 0x8E => some (linear11 (d.remote 0).value 16)
  | 0x99 => some 0x4D524854
  | _ => none

/-- How many bytes a code returns (R510). -/
def smbusWidth (code : Nat) : Nat := if code = 0x00 ∨ code = 0x20 then 1 else if code = 0x99 then 4 else 2

/-- What SMBus answers now: everything at ready and, with 0 but for STATUS_WORD, after a shutdown (R503); identity reads, of MFR_ID,
in every other state (R106, log entry 109). -/
def smbusAnswers (d : Dev) (code : Nat) : Bool := d.hif.state = .ready || d.thermal.isShut || code = 0x99

/-- SMBUS_TRANSACTION (R510, R503, R554): a write of PAGE, or a read, whose answer stands in `readData`; none: not acknowledged, as is
every transaction to another address. -/
def smbusTransaction (addr : BitVec 7) (code : BitVec 8) (write : Option (BitVec 8)) (_ : Ctx) (d : Dev) : Dev :=
  if addr.toNat ≠ d.bench.smbAddr then { d with readData := none }
  else match write with
  | some v =>
    if code = 0 ∧ v.toNat ≤ 5 ∧ d.hif.state = .ready then { d with bench := { d.bench with page := v.toNat }, readData := some [] }
    else { d with readData := none }
  | none =>
    if !smbusAnswers d code.toNat then { d with readData := none }
    else
      let answer (v : Nat) : List Byte := le (smbusWidth code.toNat) (if d.thermal.isShut ∧ code ≠ 0x79 then 0 else v)
      { d with readData := (smbusRead d code.toNat).map answer }

/-! The rows. -/
def execThmStatus (mb : Fin 32) (h : HostSide) (s : State) : Host.Outcome State Fault Refusal := cmdRow thmStatusSpec mb h s
def execThmConfig (mb : Fin 32) (h : HostSide) (s : State) : Host.Outcome State Fault Refusal := cmdRow thmConfigSpec mb h s
def execHkaConvert (mb : Fin 32) (h : HostSide) (s : State) : Host.Outcome State Fault Refusal := cmdRow hkaConvertSpec mb h s
def execHkaConfig (mb : Fin 32) (h : HostSide) (s : State) : Host.Outcome State Fault Refusal := cmdRow hkaConfigSpec mb h s
def execRailStatus (mb : Fin 32) (h : HostSide) (s : State) : Host.Outcome State Fault Refusal := cmdRow railStatusSpec mb h s
def execSensorSample (ts td : List SensorReading) (s : State) : Host.Outcome State Fault Refusal := .next (s.on (sensorSample ts td))
def execBandFall (s : State) : Host.Outcome State Fault Refusal := .next (s.on bandFall)
def execThermalWarningClear (s : State) : Host.Outcome State Fault Refusal := .next (s.on thermalWarningClear)
def execThrottleRelease (s : State) : Host.Outcome State Fault Refusal := .next (s.on throttleRelease)
def execMr4Poll (channel : Fin 2) (wantsFast : Bool) (s : State) : Host.Outcome State Fault Refusal := .next (s.on (mr4Poll channel.val wantsFast))
def execRailScan (volts amps : List Int) (s : State) : Host.Outcome State Fault Refusal := .next (s.on (railScan volts amps))
def execHkaSample (code : BitVec 12) (value : Int) (retaken : Bool) (s : State) : Host.Outcome State Fault Refusal :=
  .next (s.on (hkaSample code value retaken))
def execSmbusTransaction (code : BitVec 8) (write : Option (BitVec 8)) (s : State) (addr : BitVec 7 := 0x58) :
    Host.Outcome State Fault Refusal := .next (s.on (smbusTransaction addr code write))

end Sys2Proof.Machine
end

