-- ==== Sys2Proof/Machine/Meridian.lean ====
section
/-! DEFINITION. A meridian (R28): its eight steps in order, each skipped where it does not apply. -/

namespace Sys2Proof.Machine

/-- Step 1: M(k) occurs, and the schedule of M(k+1) stands until step 6 sets P(k) (R127, R130). -/
def takeMeridian (d : Dev) : Dev :=
  let d1 := advanceTo d.core.run.next d
  let r := d1.core.run
  let at_ := d1.time.lat
  let r1 : Run := { r with k := r.k + 1, next := at_ + r.period, fixed := !d1.lattice.follow, delta := 0, mers := (r.k, at_) :: r.mers }
  { d1 with time := { d1.time with merid := at_ }, core := { d1.core with run := r1 },
            lattice := { d1.lattice with lastDelta := r.delta } }

/-- Row 4 of R318: every DECIDE still waiting in shot `k` or an earlier one resolves with its fallback; rays that have stopped at once
resolve nothing (R210). -/
def lateDecides (k : Nat) (d : Dev) : Dev :=
  if d.core.run.stopping = some 1 then d
  else d.forAll (progRays d) fun r d =>
    match (d.ray r).st with
    | .chord gd tb => if (d.ray r).shot ≤ k then resolve r gd tb true d else d
    | _ => d

/-- Items of shot `k` or an earlier one that are not released by M(k+1) have missed their commit points (R26, R134, log entry 3), but
for a deferred jump whose segment boundary is still to come: it plays (R207). What a lagging ray has issued for a shot decided before goes
with "overrun" (R192). -/
def lateItems (k : Nat) (d : Dev) : Dev :=
  let old (t : Tok) : Bool := decide (t.shot ≤ k) && !(t.deferred && decide (nowFine d ≤ vertexFine d t))
  let d1 := applyFrames old d
  let gone := d1.core.fabric.filter (fun t => old t && t.kind.isItem)
  let left := { d1 with core := { d1.core with fabric := d1.core.fabric.filter (fun t => !(old t && t.kind.isItem)) } }
  let d2 := gone.foldl (fun d t => discardItem (if t.shot = k then Cause.late else Cause.overrun) t d) left
  d2.forAll (List.range 97) fun i d =>
    let s := d.stage i
    let out := s.queue.filter old
    if out.isEmpty then d else discardAll Cause.late out (d.setStage i { s with queue := s.queue.filter (fun t => !old t) })

/-- A shadow shot ends when it is decided (R481). -/
def countShadow (k : Nat) (d : Dev) : Dev :=
  let d1 := { d with mirror := { d.mirror with shadowStream := d.mirror.shadowStream.filter (fun t => t.shot ≠ k) } }
  if shadows d k then { d1 with mirror := { d1.mirror with shadowShots := addW 64 d1.mirror.shadowShots 1 } } else d1

/-- The shot that ended here is decided (R27, R192), unless no further shot was to open and it never did (R210, R486). -/
def decideEnded (k : Nat) (d : Dev) : Dev :=
  let due := (shotOf d k).isSome || (d.core.run.stopping.isNone && d.mirror.planned.isNone)
  if due then countShadow k (decideShot k d) else d

/-- Stopped at once, the program ends here: every shot still open is decided (R210, R206). -/
def decideStopped (d : Dev) : Dev :=
  if d.core.run.stopping = some 1 then (d.core.shots.map (·.num)).foldl (fun d n => decideShot n d) d else d

/-- Why the program ends at M(k), if it does (R209, R210). Where several reasons hold at one meridian, SHOTS reached comes before every ray
halted, and that before PROG_STOP MODE 0: DESIGN CHOICE, log entry 146. -/
def endReasonAt (k : Nat) (d : Dev) : Option Nat :=
  let r := d.core.run
  let allHalted := (progRays d).all (fun i => match (d.ray i).st with | .halted => true | _ => false)
  if r.stopping = some 1 then some r.endReason
  else if k = 0 then none
  else if (shotLimit d).any (fun n => decide (n ≤ k)) then some 1
  else if allHalted && decide (r.lastHalt + 1 ≤ k) then some 2
  else if r.stopping = some 0 && d.core.shots.isEmpty then some 3
  else none

/-- The shot decided last, if it has been decided at this meridian. -/
def decidedNow (d : Dev) : Option Nat := (d.core.statuses.head?.filter (fun s => s.decided = d.time.lat)).map (·.shot)

/-- Step 2 at M(k): the report of a switch-over, or the outcome of shot k − 1; then the program's end. -/
def outcomeStep (k : Nat) (d : Dev) : Dev :=
  let d1 := settleMark (settlePorts d)
  let d2 := if k = 0 then d1 else lateItems (k - 1) (lateDecides (k - 1) d1)
  let d3 := decideStopped (if d2.mirror.sw.isSome then settleSwitch d2 else if k = 0 then d2 else decideEnded (k - 1) d2)
  match endReasonAt k d3 with
  | none => d3
  | some reason => endProgram reason (decidedNow d3) d3

/-- The resume point of a planned switch-over: the next shot, not opened (R486). -/
def unopenedResume (d : Dev) : Resume := { shot := d.core.run.shotNext + 1, rays := d.core.rays, frames := d.core.frames }

/-- A planned switch-over takes place here: the last open shot has been decided (R486). -/
def switchesHere (d : Dev) : Bool := d.mirror.planned.isSome && d.core.shots.isEmpty

/-- Slack throttling begins and ends at a meridian (R141). -/
def slackThrottleAtMeridian (d : Dev) : Dev :=
  let s := slackAt d false
  let on := s.isCritical && d.thermal.band = 3
  if on = s.throttled then d
  else event 67 0xFFFF (flag on 0) (startCopy (8 * d.time.raw) (pauseRps on (d.setSlack d.hif.core { s with throttled := on })))

/-- Queued items of shot `k` that breach the upper bound, now known (R26). -/
def boundItems (k : Nat) (d : Dev) : Dev :=
  d.forAll (List.range 97) fun i d =>
    let s := d.stage i
    let out := s.queue.filter (fun t => t.shot = k && isOutside d t)
    if out.isEmpty then d else discardAll Cause.outside out (d.setStage i { s with queue := s.queue.filter (fun t => !out.contains t) })

/-- P(k) is in force, and M(k+1) is scheduled (R127, R128). -/
def schedule (k : Nat) (d : Dev) : Dev :=
  let p := periodNow d
  let r := d.core.run
  onShot k (fun s => { s with period := p })
    { d with core := { d.core with run := { r with period := p, next := d.time.merid + p, fixed := !d.lattice.follow, delta := 0 } } }

/-- Step 6: staged commands, the thermal extension and period, then what the new configuration asks of ports and items. -/
def configStep (k : Nat) (x : Ctx) (d : Dev) : Dev :=
  let d2 := setExtension (applyStaged x d)
  let d3 := if running d2 then boundItems k (schedule k d2) else d2
  leaveSafe ((settleEnable x.fuse d3).forAll (outputs x.fuse) tryResume)

/-- Step 7: trims (R366), the parent's correction (R457), and a slice in the idle margin, if one fits and none is paused (R372). -/
def sliceStep (x : Ctx) (d : Dev) : Dev :=
  let d1 := takeCorrection (recomputeTrims x d)
  let m := marginNow d1
  let f := m - (if d1.lattice.follow then min 2048 m else 0)
  let d2 := { d1 with cal := { d1.cal with slice := [], sliceAt := none } }
  if !running d2 || slicesPaused d2 || decide (f < 672) then d2
  else { d2 with cal := { d2.cal with sliceAt := some (d2.time.merid + d2.core.run.period - m + 16), sliceAcq := decide (800 ≤ f) } }

/-- Steps 4 to 7. -/
def laterSteps (k : Nat) (x : Ctx) (d : Dev) : Dev :=
  sliceStep x (configStep k x (slackThrottleAtMeridian (throttleAtMeridian (holdAtMeridian x d))))

/-- The active core has failed before a meridian, and no core has replaced it yet (R475). -/
def coreFails (failed : Bool) (d : Dev) : Dev := { d with mirror := { d.mirror with failed := d.mirror.failed || failed } }

/-- MERIDIAN (R28): M(k) of the running program, once its instant is fixed. Where no core runs its steps, it only occurs (R475). A planned
switch-over that the standby cannot take part in any more is refused, and the steps follow. -/
def meridianRow (a : AdcSide) (failed : Bool) (x : Ctx) (d : Dev) : Dev :=
  if !running d || !d.core.run.fixed then d
  else
    let k := d.core.run.k
    let d1 := takeMeridian (coreFails failed (countAdc a d))
    if inGap d1 || d1.mirror.failed then d1
    else
      let d2 := outcomeStep k d1
      if switchesHere d2 && plannedFits d2 then
        let d3 := settleFrames d2.core.run.k d2
        switchNow (unopenedResume d3) x d3
      else
        let d3 := if switchesHere d2 then refuseSwitch d2 else d2
        laterSteps k x (closeEpoch d3.mirror.resume x d3)

/-! The row. -/
def execMeridian (s : State) (a : AdcSide := {}) (failed : Bool := false) : Host.Outcome State Fault Refusal :=
  .next (s.on (meridianRow a failed))

end Sys2Proof.Machine
end

