-- ==== Sys2Proof/Machine/RpCheck.lean ====
section
/-! DEFINITION. What RP_LOAD checks and computes: words (R287, R297), paths of a post kernel and its cycles (R295, R297). -/

namespace Sys2Proof.Machine

/-- Opcode of an RP instruction word (R287). -/
def rpOp (w : Nat) : Nat := bits w 31 24

/-- Opcodes that may follow REP (R287). -/
def repeatable (w : Nat) : Bool := [0x02, 0x20, 0x21, 0x22, 0x23, 0x24, 0x25, 0x28, 0x29, 0x2A].contains (rpOp w)

/-- Memory accesses of an instruction, fetch excluded (R287). -/
def accesses (w : Nat) : Nat :=
  match rpOp w with
  | 0x20 => 2 | 0x21 => 2 | 0x2A => 2 | 0x22 => 1 | 0x23 => 1 | 0x28 => 1 | 0x29 => 1 | _ => 0

/-- Cycles of an instruction on its own, and of one iteration under REP (R278). -/
def cyclesOf (w : Nat) : Nat := max 1 ((accesses w + 2) / 2)
def cyclesRep (w : Nat) : Nat := max 1 ((accesses w + 1) / 2)

/-- Cycles of a REP and what it repeats. -/
def repCycles (code : List Nat) (i : Nat) : Nat := 1 + bits (code.getD i 0) 15 0 * cyclesRep (code.getD (i + 1) 0)

/-- The check of one word (R297 check 3). -/
def rpWordBad (code : List Nat) (i : Nat) : Bool :=
  let w := code.getD i 0
  let z (hi lo : Nat) : Bool := bits w hi lo ≠ 0
  let fx := bits w 16 15
  let fy := bits w 10 9
  let target := decide (code.length ≤ bits w 13 0)
  match rpOp w with
  | 0x01 => z 23 0
  | 0x02 => z 23 0
  | 0x04 => z 23 16 || !repeatable (code.getD (i + 1) 0) || decide (code.length ≤ i + 2)
  | 0x08 => z 23 14 || target
  | 0x09 => z 21 14 || target
  | 0x0A => z 21 16
  | 0x10 => z 20 14
  | 0x11 =>
    let k := bits w 18 15
    (match bits w 20 19 with | 0 => k ≠ 0 | 3 => true | _ => k = 0 || decide (14 < k))
  | 0x18 => z 23 4
  | 0x19 => z 23 6
  | 0x20 => z 8 0 || fx = 3 || fy = 3
  | 0x21 => z 8 0 || fx ≠ 3 || fy ≠ 3
  | 0x22 => z 14 14 || z 7 0 || decide (31 < bits w 13 8)
  | 0x23 => z 14 14 || z 7 0 || decide (31 < bits w 13 8)
  | 0x24 => z 18 0
  | 0x25 => z 23 23 || z 20 6 || decide (47 < bits w 5 0)
  | 0x28 => z 23 23 || z 14 14 || z 7 0 || decide (47 < bits w 13 8)
  | 0x29 => z 23 23 || z 21 21 || z 14 14 || z 7 0 || fx ≠ 3 || decide (47 < bits w 13 8)
  | 0x2A => z 23 21 || z 8 0 || fx ≠ 3 || fy ≠ 3
  | 0x2C => z 23 23 || z 20 1
  | 0x30 => z 23 0
  | 0x31 => z 23 3
  | _ => true

/-- What the loader knows of a loop counter on a path: nothing set it; its value; a bound left over from an earlier
result. -/
inductive Ctr where
  | unset
  | exact (n : Nat)
  | atMost (n : Nat)
deriving DecidableEq, Repr

/-- What is known of a counter when the next WAITR is reached. -/
def Ctr.carried : Ctr → Ctr
  | .unset => .unset
  | .exact n => .atMost n
  | .atMost n => .atMost n

/-- `a` allows no path that `b` does not. -/
def Ctr.within (a b : Ctr) : Bool :=
  match a, b with
  | _, .unset => true
  | .atMost m, .atMost n => decide (m ≤ n)
  | .exact m, .atMost n => decide (m ≤ n)
  | .exact m, .exact n => m == n
  | _, _ => false

/-- The outcomes of DJNZ: for each, whether it jumps and the counter after it (R287). A counter that no LDC sets stays one (R297). -/
def Ctr.djnz : Ctr → List (Bool × Ctr)
  | .unset => [(true, .unset), (false, .unset)]
  | .exact n => if 2 ≤ n then [(true, .exact (n - 1))] else [(false, .exact 0)]
  | .atMost n => if 2 ≤ n then [(true, .atMost (n - 1)), (false, .exact 0)] else [(false, .exact 0)]

/-- Words that a path may come to from `todo` within `fuel` rounds, WAITR passed like any other word. -/
def pathReach (code : List Nat) : Nat → List Nat → List Nat
  | 0, seen => seen
  | n + 1, seen =>
    let next (i : Nat) : List Nat :=
      let w := code.getD i 0
      match rpOp w with
      | 0x04 => [i + 2]
      | 0x08 => [bits w 13 0]
      | 0x09 => [bits w 13 0, i + 1]
      | _ => [i + 1]
    let new := (seen.flatMap next).filter (fun i => decide (i < code.length))
    pathReach code n (new.foldl (fun s i => if s.contains i then s else s ++ [i]) seen)

/-- The DJNZ at `i` closes a loop: it jumps back to a word from which it is come to again (R297; log entry 76). -/
def closesLoop (code : List Nat) (i : Nat) : Bool :=
  let target := bits (code.getD i 0) 13 0
  decide (target ≤ i) && (pathReach code code.length [target]).contains i

/-- A point of a path: the next word, the four counters, and how many EMITs the path has held. -/
abbrev PathPoint := Nat × List Ctr × Nat

/-- What the paths from one start hold: most cycles to the EMIT, most cycles to the next WAITR, and the WAITRs reached with
their counters; `none` where a path breaks a rule of R297 check 5. `first` is the stretch from ENTRY, where EMIT is free. -/
abbrev PathFind := Option (Nat × Nat × List (Nat × List Ctr))

/-- Join what two outcomes of a branch hold. -/
def joinPaths (a b : PathFind) : PathFind :=
  match a, b with
  | some p, some q => some (max p.1 q.1, max p.2.1 q.2.1, p.2.2 ++ q.2.2)
  | _, _ => none

/-- Follow every path from a point, `cyc` cycles in; `seen` holds the points passed, so that a cycle without a WAITR is
found. -/
def follow (code : List Nat) (first : Bool) : Nat → Nat → List PathPoint → PathPoint → PathFind
  | 0, _, _, _ => none
  | fuel + 1, cyc, seen, (i, cs, e) =>
    let w := code.getD i 0
    let go (c j : Nat) (ds : List Ctr) (f : Nat) : PathFind := follow code first fuel (cyc + c) ((i, cs, e) :: seen) (j, ds, f)
    if code.length ≤ i ∨ seen.contains (i, cs, e) then none
    else match rpOp w with
      | 0x30 => if first ∨ e = 1 then some (0, cyc, [(i, cs.map Ctr.carried)]) else none
      | 0x31 =>
        if !first && e ≠ 0 then none
        else (go 1 (i + 1) cs (if first then 0 else e + 1)).map (fun p => (max p.1 (cyc + 1), p.2.1, p.2.2))
      | 0x04 => go (repCycles code i) (i + 2) cs e
      | 0x08 => go 1 (bits w 13 0) cs e
      | 0x09 =>
        let c := bits w 23 22
        if cs.getD c .unset = .unset ∧ closesLoop code i then none
        else ((cs.getD c .unset).djnz.map (fun o => go 1 (if o.1 then bits w 13 0 else i + 1) (cs.set c o.2) e)).foldl
          joinPaths (some (0, 0, []))
      | 0x0A => go 1 (i + 1) (cs.set (bits w 23 22) (.exact (bits w 15 0))) e
      | _ => go (cyclesOf w) (i + 1) cs e

/-- More steps than any bounded path can take. -/
def pathFuel : Nat := 2 ^ 96

/-- Examine the paths from every WAITR reached: CYCLES and CYCLES_LOOP so far, or the word at which a bad path starts. -/
def fromWaits (code : List Nat) : Nat → List (Nat × List Ctr) → List (Nat × List Ctr) → Nat × Nat → Except Nat (Nat × Nat)
  | 0, _, _, best => .ok best
  | _ + 1, _, [], best => .ok best
  | fuel + 1, known, (i, cs) :: rest, best =>
    if known.any (fun k => k.1 = i && (cs.zip k.2).all (fun p => p.1.within p.2)) then fromWaits code fuel known rest best
    else match follow code false pathFuel 1 [] (i + 1, cs, 0) with
      | none => .error i
      | some (a, b, next) => fromWaits code fuel ((i, cs) :: known) (rest ++ next) (max best.1 a, max best.2 b)

/-- CYCLES and CYCLES_LOOP of a post kernel, or the word offset of the first path at fault (R295, R297 check 5). -/
def postCycles (code : List Nat) (entry : Nat) : Except Nat (Nat × Nat) :=
  match follow code true pathFuel 0 [] (entry, [.unset, .unset, .unset, .unset], 0) with
  | none => .error entry
  | some (_, _, waits) => fromWaits code pathFuel [] waits (0, 0)

/-- SLOW_NS (R295). -/
def slowNs (cycles : Nat) : Nat := 26 + (5 * cycles + 1) / 2

/-- Checks 3 to 5 of R297 on the code of an image: the status and word offset of the first failure, or the cycles. -/
def kernelFail (code : List Nat) (post : Bool) (entry : Nat) : Except Fail (Nat × Nat) :=
  let bad (p : Nat → Bool) : Option Nat := (List.range code.length).find? p
  let wrongMode (i : Nat) : Bool := let o := rpOp (code.getD i 0); if post then o = 0x01 else o = 0x30 || o = 0x31
  match bad (rpWordBad code) with
  | some i => .error { status := 0x0613, imm := i }
  | none => match bad wrongMode with
    | some i => .error { status := 0x0613, imm := i }
    | none =>
      if !post then .ok (0, 0)
      else match postCycles code entry with
        | .error i => .error { status := 0x0614, imm := i }
        | .ok c => .ok c

end Sys2Proof.Machine
end

