-- ==== Sys2Proof/Machine/Rp.lean ====
section
/-! DEFINITION. Read-out processors (10): commands R300 to R308, the instructions of R287, and what ends a kernel. A row of
an instruction says that processor `p` executes the word at its PC, if it is that instruction and the processor runs. -/

namespace Sys2Proof.Machine

/-! Operands (R280 to R285). -/

/-- The largest and least value of an `n`-bit signed number. -/
def satTo (n : Nat) (v : Int) : Int := clampI (-(2 ^ (n - 1) : Int)) ((2 ^ (n - 1) : Int) - 1) v

/-- Accumulator `a`. -/
def Rp.accOf (r : Rp) (a : Nat) : Int := Store.get 0 r.acc (a % 4)

/-- Write an accumulator, saturating at 48 bits and setting OVF (R283). -/
def Rp.setAcc (r : Rp) (a : Nat) (v : Int) : Rp :=
  let s := satTo 48 v
  { r with acc := Store.set 0 r.acc (a % 4) s, ovf := if s = v then r.ovf else r.ovf ||| BitVec.ofNat 4 (2 ^ (a % 4)) }

/-- The low `k` bits of `v` in reverse order. -/
def revBits (k v : Nat) : Nat := ((List.range k).map fun i => if bitOf v i then 2 ^ (k - 1 - i) else 0).sum

/-- A pointer's address after an access that updates it (R280). -/
def Ptr.bump (p : Ptr) : Ptr :=
  let m := 2 ^ p.k
  let low := p.addr % m
  let high := p.addr - low
  let s (n : Nat) : Nat := (p.step % (n : Int)).toNat
  match p.mode with
  | 0 => { p with addr := (p.addr + s 16384) % 16384 }
  | 1 => { p with addr := high + (low + s m) % m }
  | _ => { p with addr := high + revBits p.k ((revBits p.k low + revBits p.k (s m)) % m) }

/-- The address a memory operand names, and the processor with its pointer updated where U is set (R280, R281). -/
def Rp.access (r : Rp) (spec : Nat) : Nat × Rp :=
  let n := bits spec 5 3
  let p := Store.get {} r.ptr n
  (p.addr, if bitOf spec 2 then { r with ptr := Store.set {} r.ptr n p.bump } else r)

/-- A memory word. -/
def Rp.word (r : Rp) (a : Nat) : Nat := (Store.get 0 r.mem a).toNat

/-- The value of a memory word in a format, full words as 32-bit signed (R282). -/
def inFormat (fmt w : Nat) : Int :=
  match fmt with
  | 0 => signed 16 (bits w 15 0)
  | 1 => signed 16 (bits w 31 16)
  | 2 => signed 18 (bits w 17 0)
  | _ => signed 32 w

/-- Write a memory word, unless it lies in the kernel's code region: then CODEW is set (R276). -/
def Rp.put (r : Rp) (a : Nat) (v : Nat) : Rp :=
  let inCode := match r.kernel with | none => false | some k => decide (k.base ≤ a) && decide (a < k.base + k.words)
  if inCode then { r with codew := true } else { r with mem := Store.set 0 r.mem a (BitVec.ofNat 32 v) }

/-- An accumulator rounded half up by `sh` bits (R285). -/
def Rp.rounded (r : Rp) (a sh : Nat) : Int := if sh = 0 then r.accOf a else roundHalfUp (r.accOf a) (2 ^ sh)

/-- The value stored in `n` bits; a saturating store sets SATST (R285). -/
def Rp.narrow (r : Rp) (n : Nat) (v : Int) : Nat × Rp :=
  let s := satTo n v
  ((s % (2 ^ 32 : Int)).toNat, if s = v then r else { r with satst := true })

/-- Add or subtract. -/
def plusMinus (neg : Bool) (a b : Int) : Int := if neg then a - b else a + b

/-! Effects of the repeatable instructions on the processor, PC and cycles apart. -/

/-- MAC (R287). -/
def macOnce (w : Nat) (r : Rp) : Rp :=
  let (ax, r1) := r.access (bits w 20 15)
  let (ay, r2) := r1.access (bits w 14 9)
  let p := inFormat (bits w 16 15) (r.word ax) * inFormat (bits w 10 9) (r.word ay)
  r2.setAcc (bits w 22 21) (plusMinus (bitOf w 23) (r2.accOf (bits w 22 21)) p)

/-- CMAC (R288). -/
def cmacOnce (w : Nat) (r : Rp) : Rp :=
  let (ax, r1) := r.access (bits w 20 15)
  let (ay, r2) := r1.access (bits w 14 9)
  let xi := inFormat 0 (r.word ax)
  let xq := inFormat 1 (r.word ax)
  let yi := inFormat 0 (r.word ay)
  let yq := inFormat 1 (r.word ay)
  let a := if bitOf w 22 then 2 else 0
  let re := if bitOf w 21 then xi * yi + xq * yq else xi * yi - xq * yq
  let im := if bitOf w 21 then xq * yi - xi * yq else xi * yq + xq * yi
  let r3 := r2.setAcc a (plusMinus (bitOf w 23) (r2.accOf a) re)
  r3.setAcc (a + 1) (plusMinus (bitOf w 23) (r3.accOf (a + 1)) im)

/-- LDA and ADDA (R287): `keep` adds to what the accumulator holds. -/
def loadOnce (keep : Bool) (w : Nat) (r : Rp) : Rp :=
  let (ax, r1) := r.access (bits w 20 15)
  let v := inFormat (bits w 16 15) (r.word ax) * 2 ^ bits w 13 8
  r1.setAcc (bits w 22 21) (plusMinus (bitOf w 23) (if keep then r1.accOf (bits w 22 21) else 0) v)

/-- ADDAC (R287). -/
def addacOnce (w : Nat) (r : Rp) : Rp :=
  r.setAcc (bits w 22 21) (plusMinus (bitOf w 23) (r.accOf (bits w 22 21)) (r.accOf (bits w 20 19)))

/-- SHRA (R285, R287). -/
def shraOnce (w : Nat) (r : Rp) : Rp := r.setAcc (bits w 22 21) (r.rounded (bits w 22 21) (bits w 5 0))

/-- ST (R285, R287). -/
def stOnce (w : Nat) (r : Rp) : Rp :=
  let (a, r1) := r.access (bits w 20 15)
  let v := r.rounded (bits w 22 21) (bits w 13 8)
  let old := r.word a
  match bits w 16 15 with
  | 0 => let (n, r2) := r1.narrow 16 v; r2.put a (old / 2 ^ 16 * 2 ^ 16 + n % 2 ^ 16)
  | 1 => let (n, r2) := r1.narrow 16 v; r2.put a (n % 2 ^ 16 * 2 ^ 16 + old % 2 ^ 16)
  | 2 => let (n, r2) := r1.narrow 18 v; r2.put a n
  | _ => let (n, r2) := r1.narrow 32 v; r2.put a n

/-- STC (R285, R287). -/
def stcOnce (w : Nat) (r : Rp) : Rp :=
  let (a, r1) := r.access (bits w 20 15)
  let b := if bitOf w 22 then 2 else 0
  let (i, r2) := r1.narrow 16 (r.rounded b (bits w 13 8))
  let (q, r3) := r2.narrow 16 (r.rounded (b + 1) (bits w 13 8))
  r3.put a (q % 2 ^ 16 * 2 ^ 16 + i % 2 ^ 16)

/-- MOVW (R287). -/
def movwOnce (w : Nat) (r : Rp) : Rp :=
  let (ax, r1) := r.access (bits w 20 15)
  let (ap, r2) := r1.access (bits w 14 9)
  r2.put ap (r.word ax)

/-- The effect of a repeatable word (R286). -/
def repeatOnce (w : Nat) (r : Rp) : Rp :=
  match rpOp w with
  | 0x20 => macOnce w r
  | 0x21 => cmacOnce w r
  | 0x22 => loadOnce false w r
  | 0x23 => loadOnce true w r
  | 0x24 => addacOnce w r
  | 0x25 => shraOnce w r
  | 0x28 => stOnce w r
  | 0x29 => stcOnce w r
  | 0x2A => movwOnce w r
  | _ => r

/-- `n` times. -/
def iterate {α : Type} (f : α → α) : Nat → α → α
  | 0, a => a
  | n + 1, a => iterate f n (f a)

/-! Executing a word. -/

/-- The word a processor executes next; past the code it acts as HALT (R289). -/
def Rp.fetch (r : Rp) (k : Kernel) (pc : Nat) : Nat := if k.words ≤ pc then 0x01 * 2 ^ 24 else r.word (k.base + pc)

/-- Processor `p` executes its next word, if it runs and the word has opcode `op`. -/
def rpExec (op p : Nat) (f : Nat → Rp → Dev → Dev) (d : Dev) : Dev :=
  let r := d.rp p
  match r.kernel with
  | none => d
  | some k =>
    let w := r.fetch k r.pc
    if !firmwareRuns d || (r.mode ≠ .running && r.mode ≠ .attached) || rpOp w ≠ op then d else f w r d

/-- The processor goes on at the next word, `c` cycles later. -/
def Rp.next (r : Rp) (c : Nat) : Rp := { r with pc := r.pc + 1, cycles := r.cycles + c }

/-- An instruction that changes only its processor. -/
def rpPlain (op p : Nat) (f : Nat → Rp → Rp) (_ : Ctx) (d : Dev) : Dev :=
  rpExec op p (fun w r d => d.setRp p ((f w r).next (cyclesOf w))) d

/-- HALT (R287, R290). -/
def doRpHalt (p : Nat) (_ : Ctx) (d : Dev) : Dev :=
  rpExec 0x01 p (fun _ r d =>
    let r1 := r.next 1
    endRun p r1.haltStatus (d.setRp p { r1 with pc := r.pc })) d

/-- REP (R286): the whole repeat, with its own cycle. -/
def doRpRep (p : Nat) (_ : Ctx) (d : Dev) : Dev :=
  rpExec 0x04 p (fun w r d =>
    let n := bits w 15 0
    let v := match r.kernel with | none => 0 | some k => r.fetch k (r.pc + 1)
    let r1 := iterate (repeatOnce v) n r
    d.setRp p { r1 with pc := r.pc + 2, cycles := r.cycles + 1 + n * cyclesRep v }) d

/-- JMP (R287). -/
def doRpJmp (p : Nat) (_ : Ctx) (d : Dev) : Dev :=
  rpExec 0x08 p (fun w r d => d.setRp p { r.next 1 with pc := bits w 13 0 }) d

/-- DJNZ (R287). -/
def doRpDjnz (p : Nat) (_ : Ctx) (d : Dev) : Dev :=
  rpExec 0x09 p (fun w r d =>
    let c := bits w 23 22
    let n := Store.get 0 r.c c
    d.setRp p (if 2 ≤ n then { r.next 1 with c := Store.set 0 r.c c (n - 1), pc := bits w 13 0 }
               else { r.next 1 with c := Store.set 0 r.c c 0 })) d

/-- LDC (R287). -/
def ldcOnce (w : Nat) (r : Rp) : Rp := { r with c := Store.set 0 r.c (bits w 23 22) (bits w 15 0) }
/-- SETP (R287). -/
def setpOnce (w : Nat) (r : Rp) : Rp :=
  let n := bits w 23 21
  { r with ptr := Store.set {} r.ptr n { Store.get {} r.ptr n with addr := bits w 13 0 } }
/-- CFGP (R280, R287). -/
def cfgpOnce (w : Nat) (r : Rp) : Rp :=
  let n := bits w 23 21
  { r with ptr := Store.set {} r.ptr n { Store.get {} r.ptr n with
      mode := bits w 20 19, k := bits w 18 15, step := signed 15 (bits w 14 0) } }
/-- CLR (R287). -/
def clrOnce (w : Nat) (r : Rp) : Rp :=
  { r with acc := (List.range 4).foldl (fun s i => if bitOf w i then Store.set 0 s i 0 else s) r.acc }
/-- CLRF (R287). -/
def clrfOnce (w : Nat) (r : Rp) : Rp :=
  { r with ovf := r.ovf &&& ~~~(BitVec.ofNat 4 (bits w 3 0)), satst := r.satst && !bitOf w 4, codew := r.codew && !bitOf w 5 }
/-- SGN (R287). -/
def sgnOnce (w : Nat) (r : Rp) : Rp :=
  let m : BitVec 2 := if bitOf w 0 then 2 else 1
  { r with state := if 0 ≤ r.accOf (bits w 22 21) then r.state ||| m else r.state &&& ~~~m }

/-- WAITR (R291): takes the oldest result, or waits. -/
def doRpWaitr (p : Nat) (_ : Ctx) (d : Dev) : Dev :=
  rpExec 0x30 p (fun _ r d =>
    match r.queue with
    | [] => d.setRp p { r with waiting := true }
    | q :: rest =>
      d.setRp p { (((r.setAcc 0 q.i).setAcc 1 q.q).next 1) with
        queue := rest, waiting := false, res := q, state := 0, taken := addW 64 r.taken 1 }) d

/-- EMIT (R292, R294): the post record, and the slow chord where asked; a missing marker where an output is invalid. -/
def doRpEmit (p : Nat) (_ : Ctx) (d : Dev) : Dev :=
  rpExec 0x31 p (fun w r d =>
    let q := r.res
    let st : Nat := if bitOf w 1 then q.state % 4 else r.state.toNat
    let invalid := r.ovf ≠ 0
    let sent := bitOf w 2 && !invalid
    let cause := if q.cause ≠ 0 then q.cause else if invalid then Cause.overflow else 0
    let a := if bitOf w 0 then 2 else 0
    let tag := match r.kernel with | none => 0 | some k => k.tag
    let fl := st + flag invalid 2 + flag (sent && decide (q.ordinal < 4)) 3 + flag (bitOf w 1) 4
    let d1 := d.setRp p { r.next 1 with emitted := addW 64 r.emitted 1 }
    let d2 := if invalid then onShot q.shot (fun s => { s with rpOverflow := Store.set 0 s.rpOverflow p (Store.get 0 s.rpOverflow p + 1) }) d1
              else d1
    let d3 := offerPost r.postRing q (postBytes q fl (r.accOf a) (r.accOf (a + 1)) cause tag ((d.time.lat : Int) - q.lat).toNat) cause d2
    if bitOf w 2 then sendChord true q.chan q.ordinal q.shot (if invalid then none else some (BitVec.ofNat 2 st)) d3 else d3) d

/-- Running time reaches MAX_US (R290). -/
def rpMaxUsExpiry (p : Nat) (_ : Ctx) (d : Dev) : Dev :=
  let r := d.rp p
  if r.mode = .running then endRun p 0x0615 (advance (1000 * r.maxUs - r.ranNs d.time.raw) d) else d

/-- The queue of a detaching kernel is empty and it waits at WAITR (R296). -/
def rpDetachComplete (p : Nat) (_ : Ctx) (d : Dev) : Dev :=
  let r := d.rp p
  if r.mode = .attached && r.detaching && r.drained then detachNow p d else d

/-! Commands (R300 to R308). -/

/-- A processor number in byte 0 (R299, R301). -/
def fRp (x : Ctx) (c : Cmd) : Option Fail :=
  if 11 < c.arg 0 1 then some (atPayload 0x1B 0) else if x.fuse.acquires ≤ c.arg 0 1 then some (atPayload 0x14 0) else none

/-- A kernel runs or is attached on this processor: it is not idle (R301, R302, R304). -/
def rpBusy (d : Dev) (p : Nat) : Bool :=
  match (d.rp p).mode with | .none => false | .idle => false | _ => true

/-- The same for a staged command, which is checked against the configuration left by those accepted before it (R29, R305, R306). -/
def rpBusySoon (x : Ctx) (d : Dev) (p : Nat) : Bool := rpBusy d p || rpBusy (projected x d) p

/-- STATE of RP_STATUS (R308). -/
def RpMode.code : RpMode → Nat
  | .none => 0 | .idle => 1 | .running => 2 | .attached => 3 | .paused => 4

/-- RP_STATUS (R308). -/
def rpStatusSpec : CmdSpec where
  op := 0x0600
  len := lenIs 4
  check := fun x c _ => firstFail [fRp x c, fFlags c 1 1, fRes c 2 2]
  act := fun _ c d =>
    let p := c.arg 0 1
    let r := d.rp p
    let clear := bitOf (c.arg 1 1) 0
    let k := r.kernel
    let num (f : Kernel → Nat) : Nat := match k with | none => 0 | some q => f q
    let out := le 1 p ++ le 1 r.mode.code ++ le 1 (num (fun q => flag q.post 0)) ++
      le 1 (r.ovf.toNat + flag r.satst 4 + flag r.codew 5) ++ le 2 r.pc ++ le 2 (num (·.tag)) ++ le 4 (num (·.cycles)) ++
      le 4 (num (·.slowNs)) ++ le 8 r.taken ++ le 8 r.dropped ++ le 8 r.emitted ++ le 8 d.time.lat
    okCmd c 0x0600 0 out (!clear) (if clear then d.setRp p { r with taken := 0, dropped := 0, emitted := 0 } else d)

/-- The data words of an RP_MEM_WRITE (R302). -/
def memWords (x : Ctx) (c : Cmd) : List Nat :=
  if c.arg 1 1 = 0 then (List.range (c.arg 4 4)).map (fun i => c.arg (16 + 4 * i) 4)
  else wordsOf 4 (Mem.read x.ddr (c.arg 8 8) (4 * c.arg 4 4)) (c.arg 4 4)

/-- Write words of processor memory from `a` on. -/
def putWords (m : Store (BitVec 32)) (a : Nat) (ws : List Nat) : Store (BitVec 32) :=
  (ws.zipIdx).foldl (fun s w => Store.set 0 s (a + w.2) (BitVec.ofNat 32 w.1)) m

/-- RP_MEM_WRITE (R302). -/
def rpMemWriteSpec : CmdSpec where
  op := 0x0601
  len := fun c => c.length == 16 + (if c.arg 1 1 = 0 then 4 * c.arg 4 4 else 0)
  check := fun x c d =>
    let n := 4 * c.arg 4 4
    let a := c.arg 8 8
    firstFail [fRp x c, fRange c 1 1 0 1, fRange c 4 4 1 16384,
      (if c.arg 1 1 = 0 then fRes c 8 8 else fIf (a % 4 ≠ 0) 0x1B 8),
      fIf (rpBusy d (c.arg 0 1)) 0x0610 0,
      fIf (decide (16384 < c.arg 2 2 + c.arg 4 4)) 0x0611 2,
      fIf (c.arg 1 1 = 1 && (!ddrUsable d a n || (eccFault d a n).isSome)) 0x0617 8]
  act := fun x c d =>
    let r := d.rp (c.arg 0 1)
    doneCmd c 0x0600 (d.setRp (c.arg 0 1) { r with mem := putWords r.mem (c.arg 2 2) (memWords x c) })

/-- RP_MEM_READ (R303). -/
def rpMemReadSpec : CmdSpec where
  op := 0x0602
  len := lenIs 8
  check := fun x c _ => firstFail [fRp x c, fRes c 1 1, fRange c 4 4 1 16384, fIf (decide (16384 < c.arg 2 2 + c.arg 4 4)) 0x0611 2]
  act := fun _ c d =>
    replyCmd c 0x0600 ((List.range (c.arg 4 4)).flatMap fun i => le 4 ((d.rp (c.arg 0 1)).word (c.arg 2 2 + i))) d

/-- The code words of a kernel image. -/
def kernelCode (c : Cmd) : List Nat := (List.range (c.arg 6 2)).map fun i => c.arg (16 + 4 * i) 4

/-- RP_LOAD (R301, R297). Its payload comes with BULK = 1: one given inline fails as LENGTH does, 0x0015 DETAIL 8 (DESIGN CHOICE, log
entry 105). -/
def rpLoadSpec : CmdSpec where
  op := 0x0603
  len := fun c => c.bulk && c.length == 16 + 4 * c.arg 6 2
  check := fun x c d =>
    let cw := c.arg 6 2
    firstFail [fRp x c, fRes c 10 6, fIf (rpBusy d (c.arg 0 1)) 0x0610 0,
      fIf (decide (1 < c.arg 1 1)) 0x0612 1, fIf (decide (16383 < c.arg 4 2)) 0x0612 4,
      fIf (cw = 0 || decide (16384 < cw)) 0x0612 6, fIf (decide (cw ≤ c.arg 8 2)) 0x0612 8,
      fIf (decide (16384 < c.arg 4 2 + cw)) 0x0611 4,
      (match kernelFail (kernelCode c) (c.arg 1 1 = 1) (c.arg 8 2) with | .error f => some f | .ok _ => none)]
  act := fun _ c d =>
    let p := c.arg 0 1
    let r := d.rp p
    let post := c.arg 1 1 = 1
    let (cy, loop) : Nat × Nat := match kernelFail (kernelCode c) post (c.arg 8 2) with | .error _ => (0, 0) | .ok v => v
    let slow := if post then slowNs cy else 0
    let k : Kernel := { post := post, tag := c.arg 2 2, base := c.arg 4 2, words := c.arg 6 2, entry := c.arg 8 2,
                        cycles := cy, cyclesLoop := loop, slowNs := slow }
    okCmd c 0x0600 slow (le 4 cy ++ le 4 loop ++ le 4 slow ++ zeros 4) false
      (d.setRp p { r with kernel := some k, mode := .idle, mem := putWords r.mem k.base (kernelCode c) })

/-- RP_RUN (R304, R290); while throttled the kernel starts paused (R141). -/
def rpRunSpec : CmdSpec where
  op := 0x0604
  len := lenIs 8
  check := fun x c d =>
    let k := (d.rp (c.arg 0 1)).kernel
    firstFail [fRp x c, fRes c 1 3, fRange c 4 4 1 10000000, fIf (rpBusy d (c.arg 0 1)) 0x0610 0,
      fNone k.isNone 0x0618, fNone (k.any (·.post)) 0x0619]
  act := fun _ c d =>
    let r := d.rp (c.arg 0 1)
    match r.kernel with
    | none => d
    | some k =>
      let held := (d.slackOf d.hif.core).throttled
      d.setRp (c.arg 0 1) { r.fresh k with mode := if held then .paused else .running, maxUs := c.arg 4 4, seq := c.seq,
                                           startLat := d.time.raw, pausedAt := d.time.raw }

/-- RP_ATTACH (R306). -/
def rpAttachSpec : CmdSpec where
  op := 0x0605
  len := lenIs 4
  check := fun x c d =>
    let k := (d.rp (c.arg 0 1)).kernel
    firstFail [fRp x c, fRange c 1 1 0 15, fRes c 2 2, fNone k.isNone 0x0618, fNone (k.any (!·.post)) 0x0619,
      fIf (rpBusySoon x d (c.arg 0 1)) 0x0610 0]
  act := fun x c d => stageOrApply x c d

/-- RP_STOP (R305): ends a standalone run, detaches a post kernel, or changes nothing. -/
def rpStopSpec : CmdSpec where
  op := 0x0606
  len := lenIs 4
  check := fun x c _ => firstFail [fRp x c, fRes c 1 3]
  act := fun x c d =>
    match (d.rp (c.arg 0 1)).mode with
    | .running => doneCmd c 0x0600 (endRun (c.arg 0 1) 0x0616 d)
    | .paused => doneCmd c 0x0600 (endRun (c.arg 0 1) 0x0616 d)
    | _ => if rpBusySoon x d (c.arg 0 1) then stageOrApply x c d else okCmd c 0x0002 0 [] true d

/-- The payload RO_WEIGHTS or RO_DISC would carry, read from processor memory (R307). -/
def applyPayload (d : Dev) (c : Cmd) : List Byte :=
  let r := d.rp (c.arg 0 1)
  let mem (n : Nat) : List Byte := (List.range n).flatMap fun i => le 4 (r.word (c.arg 4 2 + i))
  if c.arg 1 1 = 0 then
    le 1 (c.arg 0 1) ++ le 1 (c.arg 2 1) ++ le 1 (c.arg 3 1) ++ zeros 1 ++ le 2 (c.arg 6 2) ++ le 2 (c.arg 8 2) ++ zeros 8 ++ mem (c.arg 8 2)
  else mem 14

/-- The checks of RO_WEIGHTS proper: FIRST + COUNT (R266). -/
def weightsFit (c : Cmd) (firstOff first count : Nat) : Option Fail :=
  fIf (decide (256 < c.arg first 2 + c.arg count 2)) 0x0511 firstOff

/-- The generic and own checks of a 56-byte RO_DISC payload (R273, R266); NB was range-checked first. -/
def discFail (c : Cmd) : Option Fail :=
  let nb := c.arg 2 1
  let row (i : Nat) : List (Option Fail) :=
    if i < nb then [fRes c (12 + 16 * i) 4] else [fRes c (8 + 16 * i) 2, fRes c (10 + 16 * i) 2, fRes c (12 + 16 * i) 4, fRes c (16 + 16 * i) 8]
  let dir (i : Nat) : Option Fail := fIf (decide (i < nb) && c.arg (8 + 16 * i) 2 = 0 && c.arg (10 + 16 * i) 2 = 0) 0x0510 (8 + 16 * i)
  firstFail ([fRange c 1 1 0 15, fRange c 2 1 0 3, fRes c 3 1, fIf (decide (nb ≤ 3 ∧ 4 ^ (2 ^ nb) ≤ c.arg 4 2)) 0x13 4, fRes c 6 2]
    ++ (List.range 3).flatMap row ++ (List.range 3).map dir)

/-- RP_APPLY (R307). -/
def rpApplySpec : CmdSpec where
  op := 0x0607
  len := lenIs 12
  check := fun x c d =>
    let k := c.arg 1 1
    let words := if k = 0 then c.arg 8 2 else 14
    let q : Cmd := { c with payload := applyPayload d c }
    firstFail [fRp x c, fRange c 1 1 0 1, fRange c 2 1 0 15, (if k = 0 then fRange c 3 1 0 8 else fRes c 3 1),
      (if k = 0 then fRange c 6 2 0 255 else fRes c 6 2), (if k = 0 then fRange c 8 2 1 256 else fRes c 8 2), fRes c 10 2,
      fIf (decide (16384 < c.arg 4 2 + words)) 0x0611 4,
      (if k = 0 then weightsFit c 6 6 8
       else if q.arg 0 1 ≠ c.arg 0 1 ∨ q.arg 1 1 ≠ c.arg 2 1 then some (atPayload 0x061A 4) else discFail q)]
  act := fun x c d =>
    let c1 := { c with payload := applyPayload d c, aux := c.arg 1 1 }
    stageOrApply x c1 (putCmd c1 d)

/-! The rows. -/
def execRpStatus (mb : Fin 32) (h : HostSide) (s : State) : Host.Outcome State Fault Refusal := cmdRow rpStatusSpec mb h s
def execRpMemWrite (mb : Fin 32) (h : HostSide) (s : State) : Host.Outcome State Fault Refusal := cmdRow rpMemWriteSpec mb h s
def execRpMemRead (mb : Fin 32) (h : HostSide) (s : State) : Host.Outcome State Fault Refusal := cmdRow rpMemReadSpec mb h s
def execRpLoad (mb : Fin 32) (h : HostSide) (s : State) : Host.Outcome State Fault Refusal := cmdRow rpLoadSpec mb h s
def execRpRun (mb : Fin 32) (h : HostSide) (s : State) : Host.Outcome State Fault Refusal := cmdRow rpRunSpec mb h s
def execRpAttach (mb : Fin 32) (h : HostSide) (s : State) : Host.Outcome State Fault Refusal := cmdRow rpAttachSpec mb h s
def execRpStop (mb : Fin 32) (h : HostSide) (s : State) : Host.Outcome State Fault Refusal := cmdRow rpStopSpec mb h s
def execRpApply (mb : Fin 32) (h : HostSide) (s : State) : Host.Outcome State Fault Refusal := cmdRow rpApplySpec mb h s
def execRpMaxUsExpiry (p : Fin 12) (s : State) : Host.Outcome State Fault Refusal := .next (s.on (rpMaxUsExpiry p))
def execRpDetachComplete (p : Fin 12) (s : State) : Host.Outcome State Fault Refusal := .next (s.on (rpDetachComplete p))
def execRpHalt (p : Fin 12) (s : State) : Host.Outcome State Fault Refusal := .next (s.on (doRpHalt p))
def execRpNop (p : Fin 12) (s : State) : Host.Outcome State Fault Refusal := .next (s.on (rpPlain 0x02 p (fun _ r => r)))
def execRpRep (p : Fin 12) (s : State) : Host.Outcome State Fault Refusal := .next (s.on (doRpRep p))
def execRpJmp (p : Fin 12) (s : State) : Host.Outcome State Fault Refusal := .next (s.on (doRpJmp p))
def execRpDjnz (p : Fin 12) (s : State) : Host.Outcome State Fault Refusal := .next (s.on (doRpDjnz p))
def execRpLdc (p : Fin 12) (s : State) : Host.Outcome State Fault Refusal := .next (s.on (rpPlain 0x0A p ldcOnce))
def execRpSetp (p : Fin 12) (s : State) : Host.Outcome State Fault Refusal := .next (s.on (rpPlain 0x10 p setpOnce))
def execRpCfgp (p : Fin 12) (s : State) : Host.Outcome State Fault Refusal := .next (s.on (rpPlain 0x11 p cfgpOnce))
def execRpClr (p : Fin 12) (s : State) : Host.Outcome State Fault Refusal := .next (s.on (rpPlain 0x18 p clrOnce))
def execRpClrf (p : Fin 12) (s : State) : Host.Outcome State Fault Refusal := .next (s.on (rpPlain 0x19 p clrfOnce))
def execRpMac (p : Fin 12) (s : State) : Host.Outcome State Fault Refusal := .next (s.on (rpPlain 0x20 p macOnce))
def execRpCmac (p : Fin 12) (s : State) : Host.Outcome State Fault Refusal := .next (s.on (rpPlain 0x21 p cmacOnce))
def execRpLda (p : Fin 12) (s : State) : Host.Outcome State Fault Refusal := .next (s.on (rpPlain 0x22 p (loadOnce false)))
def execRpAdda (p : Fin 12) (s : State) : Host.Outcome State Fault Refusal := .next (s.on (rpPlain 0x23 p (loadOnce true)))
def execRpAddac (p : Fin 12) (s : State) : Host.Outcome State Fault Refusal := .next (s.on (rpPlain 0x24 p addacOnce))
def execRpShra (p : Fin 12) (s : State) : Host.Outcome State Fault Refusal := .next (s.on (rpPlain 0x25 p shraOnce))
def execRpSt (p : Fin 12) (s : State) : Host.Outcome State Fault Refusal := .next (s.on (rpPlain 0x28 p stOnce))
def execRpStc (p : Fin 12) (s : State) : Host.Outcome State Fault Refusal := .next (s.on (rpPlain 0x29 p stcOnce))
def execRpMovw (p : Fin 12) (s : State) : Host.Outcome State Fault Refusal := .next (s.on (rpPlain 0x2A p movwOnce))
def execRpSgn (p : Fin 12) (s : State) : Host.Outcome State Fault Refusal := .next (s.on (rpPlain 0x2C p sgnOnce))
def execRpWaitr (p : Fin 12) (s : State) : Host.Outcome State Fault Refusal := .next (s.on (doRpWaitr p))
def execRpEmit (p : Fin 12) (s : State) : Host.Outcome State Fault Refusal := .next (s.on (doRpEmit p))

end Sys2Proof.Machine
end

