-- ==== Sys2Proof/Machine/Readout.lean ====
section
/-! DEFINITION. The read-out chain (09): channel commands, and the state instant of a window (R252 to R263). -/

namespace Sys2Proof.Machine

/-! Commands (R271 to R274). -/

/-- An acquire port number 0 to 11 in byte 0 (R266). -/
def fAport (x : Ctx) (c : Cmd) : Option Fail := fRp x c

/-- RO_CH_CONFIG (R271). -/
def roChConfigSpec : CmdSpec where
  op := 0x0500
  len := lenIs 24
  check := fun x c _ => firstFail [fAport x c, fRange c 1 1 0 15, fFlags c 2 4, fRange c 3 1 0 3, fRange c 4 1 0 7, fRange c 5 1 0 15,
    fRes c 6 2, fRes c 12 4, fRange c 16 8 0 (2 ^ 47 - 1)]
  act := fun x c d => stageOrApply x c d

/-- RO_WEIGHTS (R272). -/
def roWeightsSpec : CmdSpec where
  op := 0x0501
  len := fun c => c.length == 16 + 4 * c.arg 6 2
  check := fun x c _ => firstFail [fAport x c, fRange c 1 1 0 15, fRange c 2 1 0 8, fRes c 3 1, fRange c 4 2 0 255, fRange c 6 2 1 256,
    fRes c 8 8, weightsFit c 4 4 6]
  act := fun x c d => stageOrApply x c d

/-- RO_DISC (R273). -/
def roDiscSpec : CmdSpec where
  op := 0x0502
  len := lenIs 56
  check := fun x c _ => firstFail [fAport x c, discFail c]
  act := fun x c d => stageOrApply x c d

/-- The 12 bytes of boundary `i` of a channel (R274). -/
def boundaryBytes (g : ChanCfg) (i : Nat) : List Byte :=
  let b := Store.get (0, 0, 0) g.bnd i
  leI 2 b.1 ++ leI 2 b.2.1 ++ leI 8 b.2.2

/-- RO_CH_READ (R274). -/
def roChReadSpec : CmdSpec where
  op := 0x0503
  len := lenIs 4
  check := fun x c _ => firstFail [fAport x c, fRange c 1 1 0 15, fFlags c 2 2, fRes c 3 1]
  act := fun _ c d =>
    let q := d.chan c.chanArg
    let g := q.cfg
    let weights := bitOf (c.arg 2 1) 0
    let clear := bitOf (c.arg 2 1) 1
    let out := le 1 (c.arg 0 1) ++ le 1 (c.arg 1 1) ++ le 1 (flag g.enable 0 + flag g.postk 3 + flag (isStale d g.epoch) 4) ++
      le 1 g.filter ++ le 1 g.gain ++ le 1 g.ring ++ le 1 g.nb ++ le 1 g.stride ++ le 8 g.ftw ++ le 4 g.z ++ le 2 g.map ++ zeros 2 ++
      (List.range 3).flatMap (boundaryBytes g) ++ zeros 4 ++ le 8 q.windows ++
      (List.range 4).flatMap (fun i => le 4 (Store.get 0 q.states i)) ++ le 8 d.time.lat ++
      (if weights then (List.range 256).flatMap (fun i => let w := Store.get weightReset g.weights i; leI 2 w.i ++ leI 2 w.q) else [])
    okCmd c 0x0500 0 out (!clear) (if clear then d.setChan c.chanArg { q with windows := 0, states := [] } else d)

/-! The state instant. -/

/-- Window close to state, in ns (R252). -/
def filterLatency (filter : Nat) : Nat := match filter with | 0 => 12 | 1 => 20 | 2 => 36 | _ => 68

/-- The integrator's sum over a window's samples (R257). -/
def integrate (g : ChanCfg) (xs : List IQ) : IQ :=
  (xs.zipIdx).foldl (fun (s : IQ) v =>
    let w := Store.get weightReset g.weights (min 255 (v.2 / 2 ^ g.stride))
    ⟨s.i + v.1.i * w.i - v.1.q * w.q, s.q + v.1.i * w.q + v.1.q * w.i⟩) ⟨0, 0⟩

/-- The index of the boundaries that hold (R260). -/
def boundIndex (g : ChanCfg) (s : IQ) : Nat :=
  ((List.range g.nb).map fun i =>
    let b := Store.get (0, 0, 0) g.bnd i
    flag (b.2.2 ≤ b.1 * s.i + b.2.1 * s.q) i).sum

/-- Invalid samples of a window that opens at `open8` (R254). -/
def invalidCount (c : Chan) (open8 len : Nat) : Nat :=
  ((List.range len).filter fun n => c.invalid.any fun v => decide (8 * v.1 ≤ open8 + 8 * n) && decide (open8 + 8 * n < 8 * v.2)).length

/-- The counters of a window's samples, saturated and at the end codes (R250, R253). The samples of a shot already decided were counted
at its meridian (log entry 100). -/
def countSamples (t : Tok) (sats ends : Nat) (d : Dev) : Dev :=
  if (shotOf d t.shot).isNone then d else countEnds t.shot t.stage ends (countSats t.shot t.chan sats d)

/-- The window's samples are formed of the ADC's codes from its opening on, integrated and discriminated; its state goes to the fabric and
its result to the write path, and to the
read-out processor with POSTK (R257, R260, R261). -/
def stateOf (t : Tok) (adc : List (BitVec 12)) (d : Dev) : Dev :=
  let q := d.chan t.chan
  let g := chanFor q t.shot
  let open8 := eighths (vertexFine d t)
  let xs := channelSamples d t.chan g t.trim open8 t.len adc
  let s := integrate g (xs.map (·.1))
  let ix := boundIndex g s
  let st := bits g.map (2 * ix + 1) (2 * ix)
  let inv := invalidCount q open8 t.len
  let cause := if inv = 0 then 0 else Cause.settling
  let fl := st + flag t.traced 2 + flag g.postk 3 + flag (isStale d g.epoch) 4
  let ord := ordinalOf d t
  let d1 := markCounted t.stage open8 (8 * t.len) (8 * d.time.lat)
    (countSamples t (xs.filter (·.2)).length (endCodes (d.port t.stage) open8 (adc.take (8 * t.len))) (useFree d))
  let q1 := d1.chan t.chan
  let p1 := d1.port t.stage
  let d2 := (d1.setChan t.chan { q1 with windows := addW 64 q1.windows 1,
                                         states := Store.set 0 q1.states st (addW 32 (Store.get 0 q1.states st) 1) }).setPort t.stage
    { p1 with windows := addW 64 p1.windows 1 }
  let d3 := if cause = 0 then d2 else failShot t.shot { at4096 := nowFine d, inst := chanInst t.chan, cause := cause, detail := 0 } 1 d2
  let d4 := sendChord false t.chan ord t.shot (some (BitVec.ofNat 2 st)) d3
  let d5 := offerResult g.ring { bytes := resultBytes t.shot t.chan fl open8 s.i s.q cause inv ix, kind := false, shot := some t.shot,
                                 inst := chanInst t.chan, at4096 := nowFine d, cause := cause } d4
  if g.postk then passResult (t.chan / 16) { shot := t.shot, chan := t.chan, state := st, cause := cause, i := s.i, q := s.q,
                                             lat := d.time.lat, ordinal := ord } d5
  else d5

/-- The state instant of the channel's open window: its close plus the filter's latency (R261). -/
def stateInstant (chan : Nat) (adc : List (BitVec 12)) (_ : Ctx) (d : Dev) : Dev :=
  let stage := 84 + chan / 16
  let s := d.stage stage
  match s.playing.find? (fun t => t.chan = chan) with
  | none => d
  | some t =>
    let g := chanFor (d.chan chan) t.shot
    let due := ((eighths (vertexFine d t) + 7) / 8 + t.len + filterLatency g.filter) % 2 ^ 64
    stateOf t adc ((noteBusy stage (advanceTo due d)).setStage stage { s with playing := s.playing.erase t })

/-! The rows. -/
def execRoChConfig (mb : Fin 32) (h : HostSide) (s : State) : Host.Outcome State Fault Refusal := cmdRow roChConfigSpec mb h s
def execRoWeights (mb : Fin 32) (h : HostSide) (s : State) : Host.Outcome State Fault Refusal := cmdRow roWeightsSpec mb h s
def execRoDisc (mb : Fin 32) (h : HostSide) (s : State) : Host.Outcome State Fault Refusal := cmdRow roDiscSpec mb h s
def execRoChRead (mb : Fin 32) (h : HostSide) (s : State) : Host.Outcome State Fault Refusal := cmdRow roChReadSpec mb h s
def execStateInstant (chan : Fin 192) (adc tail : List (BitVec 12)) (s : State) : Host.Outcome State Fault Refusal :=
  .next (s.on (stateInstant chan (adc ++ tail)))

end Sys2Proof.Machine
end

