-- ==== Sys2Proof/Machine/Resets.lean ====
section
/-! DEFINITION. Resets (R94 to R97), hardware shutdown (R503, R504), a core's loss (R472) and the TAP (R550). -/

namespace Sys2Proof.Machine

/-- What survives of a flux port: the level its DC DAC shows, a step of a run's group too (R96, R378). -/
def keepDc (x : Ctx) (d : Dev) : Store Port :=
  ((outputs x.fuse).filter (fun i => portKind i = .flux)).foldl
    (fun s i => Store.set ({} : Port) s i { dc := dcDac d i, target := dcDac d i }) []

/-- The directory as the IMG_SELECT that firmware has in hand would leave it, if there is one. -/
def selecting (x : Ctx) (d : Dev) : Option Images :=
  (d.core.cmds.find? (fun c => c.op = 0x0E03 && mayBegin d c)).map (fun c => (beginCmd imgSelectSpec c x d).images)

/-- One copy as a cut after `n` bytes leaves it: untouched where the write would not change it. -/
def cutCopy (n : Nat) (old new : List Byte) : List Byte := if new = old then old else tornAt n new

/-- A reset cuts the directory write in progress after so many bytes (R99): an IMG_SELECT's, or the ROM's own in a boot (log entry
35). -/
def tearDirectory (tear : Option (Fin 16)) (x : Ctx) (d : Dev) : Dev :=
  match tear with
  | none => d
  | some n =>
    let i := d.images
    match selecting x d with
    | some j => { d with images := { i with dirA := cutCopy n i.dirA j.dirA, dirB := cutCopy n i.dirB j.dirB } }
    | none => match i.romWrote with
      | none => d
      | some b => { d with images := setDir b (tornAt n (if b then i.dirB else i.dirA)) i }

/-- A die reset (R94): the flash, the calibration store and, unless it is as power-on, the flux DC levels stay; DDR5 is lost. -/
def dieReset (asPowerOn : Bool) (x : Ctx) (d : Dev) : Dev :=
  let k := cutWrite (cutCommit x d)
  { hif := { orfWarm := !x.fuse.oven }
    ports := if asPowerOn then [] else keepDc x d
    cal := { stores := k.cal.stores, slots := k.cal.slots }
    images := { flashOk := k.images.flashOk, dirA := k.images.dirA, dirB := k.images.dirB, slot0 := k.images.slot0, slot1 := k.images.slot1 }
    mirror := { standby := if x.fuse.duplex then 1 else 0 }
    bench := { smbAddr := d.bench.smbAddr }
    thermal := { shutdowns := d.thermal.shutdowns, shutTrip := d.thermal.shutTrip, isShut := d.thermal.isShut }
    hostBad := d.hostBad
    eccLines := d.eccLines
    freeCtr := k.freeCtr
    wr := d.wr ++ [.ddrLost] }

/-- POWER_ON_RESET (R94, R504): SHUTDOWNS restarts at 0 if VDD_IO was lost; which monitor fell is a free value (log entry 63). -/
def powerOnReset (tear : Option (Fin 16)) (x : Ctx) (d : Dev) : Dev :=
  let d1 := useFree (dieReset true x (tearDirectory tear x d))
  let lost := freeValue d % 2 = 1
  { d1 with thermal := { d1.thermal with
      isShut := false, shutdowns := if lost then 0 else d1.thermal.shutdowns, shutTrip := if lost then 0 else d1.thermal.shutTrip } }

/-- RESET_N (R95): from 100 ns to 1 µs the die may or may not be reset (a free value, log entry 64). -/
def resetN (lowNs : Nat) (tear : Option (Fin 16)) (x : Ctx) (d : Dev) : Dev :=
  if lowNs < 100 then d
  else if 1000 ≤ lowNs then dieReset false x (tearDirectory tear x d)
  else if freeValue d % 2 = 1 then dieReset false x (tearDirectory tear x (useFree d)) else useFree d

/-- IMG_REBOOT_RESET (R113): the reset keeps a staged image for one boot where SOURCE was 1. -/
def imgRebootReset (x : Ctx) (d : Dev) : Dev :=
  match d.images.rebootSrc with
  | none => d
  | some src =>
    let d1 := dieReset false x d
    if src = 1 then { d1 with images := { d1.images with staged := d.images.staged, stagedInEnv := true, bootStaged := true } } else d1

/-- CORE_RESET (R97): the active core, the standby, or a core that the part does not have. -/
def coreReset (mirror : Bool) (tear : Option (Fin 16)) (x : Ctx) (d : Dev) : Dev :=
  if mirror = d.hif.core then activeLost x (tearDirectory tear x d)
  else if x.fuse.duplex then resetStandby d
  else d

/-- Every marker pin goes to high impedance, and the pulse generators let go (R106). -/
def releasePins (d : Dev) : Dev := { d with marker := { d.marker with pins := [], owned := 0 }, time := { d.time with gens := [] } }

/-- The acquire converters are off (R106). -/
def stopConverters (x : Ctx) (d : Dev) : Dev :=
  d.forAll (x.fuse.indices.filter (fun i => 84 ≤ i && i < 96)) fun i d => d.setPort i { d.port i with off := true }

/-- Who drives SPI_CLK, SPI_CS_N and SPI_IO: the ROM (`false`) in STATE 0, firmware, or nobody in STATE 4 (R106). -/
def spiDriver (d : Dev) : Option Bool :=
  match d.hif.state with
  | .bootRom => some false
  | .imageLoading => some (decide (d.images.bootSrc = none))
  | .ready => some true
  | .restricted => some true
  | .faultHalted => none

/-- The fault-halted state (R106, R472): outputs at their safe levels, program halted, links idle, pins as in restricted mode; the flash is
written no further. -/
def faultHalted (x : Ctx) (d : Dev) : Dev :=
  let d1 := stopConverters x (releasePins (loseCore x (startPorts true x (cutWrite d))))
  let d2 := d1.forAll [0, 1, 2, 3] fun l d => enterStage l 0 (leaveActive l d)
  eventState { d2 with hif := { d2.hif with state := .faultHalted } }

/-- FAULT_HALT (R472): the core resigns; with an eligible standby the device goes on (log entry 65). -/
def faultHalt (x : Ctx) (d : Dev) : Dev :=
  if d.images.inReset ∨ d.hif.state = .bootRom ∨ d.hif.state = .faultHalted then d
  else if (firmwareRuns d || d.mirror.failed) && mayTakeOver d then takeOver 2 x d
  else faultHalted x d

/-- HARDWARE_SHUTDOWN (R503): two of the four comparators have tripped; the die stays in reset with its converters off and every
flux DC level at 0 V. -/
def hardwareShutdown (trip : BitVec 4) (tear : Option (Fin 16)) (x : Ctx) (d : Dev) : Dev :=
  let n := ([0, 1, 2, 3].filter (fun i => trip.getLsbD i)).length
  if n < 2 ∨ d.thermal.isShut then d
  else
    let d1 := dieReset true x (tearDirectory tear x d)
    { d1 with thermal := { d1.thermal with isShut := true, shutdowns := addW 32 d1.thermal.shutdowns 1, shutTrip := trip } }

/-- THERMAL_RESTART (R504): the shutdown ends with a die reset as power-on. -/
def thermalRestart (x : Ctx) (d : Dev) : Dev :=
  if !d.thermal.isShut then d
  else
    let d1 := dieReset true x d
    { d1 with thermal := { d1.thermal with isShut := false }, images := { d1.images with thermalBoot := true } }

/-- The instruction a code selects (R550): every other code selects BYPASS. -/
def tapCode (ir : BitVec 8) : BitVec 8 := if ir.toNat ≤ 5 then ir else 0xFF

/-- The device's identification (R550). -/
def idcode (f : Fuse) : Nat := match f.ports with | .vy96 => 0x1A9600F7 | .vy64 => 0x1A6400F7 | .vy32 => 0x1A3200F7

/-- What the data register an instruction selects captures: IDCODE, or BYPASS's single 0; none for the boundary register (R550). -/
def tapCapture (f : Fuse) (ir : BitVec 8) : Option (List Byte) :=
  if ir = 0x01 then some (le 4 (idcode f)) else if ir = 0xFF then some (le 1 0) else none

/-- TAP_INSTRUCTION_UPDATE (R550): what its register captures stands in `readData`; firmware that runs sees its ports as the instruction
leaves them, and firmware that does not sees it when it runs again. -/
def tapUpdate (ir : BitVec 8) (x : Ctx) (d : Dev) : Dev :=
  let d1 := { d with bench := { d.bench with tap := tapCode ir }, readData := tapCapture x.fuse (tapCode ir) }
  if firmwareRuns d1 then followTap x d1 else d1

/-! The rows. -/
def execPowerOnReset (s : State) (tear : Option (Fin 16) := none) : Host.Outcome State Fault Refusal := .next (s.on (powerOnReset tear))
def execResetN (lowNs : Nat) (s : State) (tear : Option (Fin 16) := none) : Host.Outcome State Fault Refusal := .next (s.on (resetN lowNs tear))
def execImgRebootReset (s : State) : Host.Outcome State Fault Refusal := .next (s.on imgRebootReset)
def execCoreReset (mirror : Bool) (s : State) (tear : Option (Fin 16) := none) : Host.Outcome State Fault Refusal :=
  .next (s.on (coreReset mirror tear))
def execFaultHalt (s : State) : Host.Outcome State Fault Refusal := .next (s.on faultHalt)
def execHardwareShutdown (trip : BitVec 4) (s : State) (tear : Option (Fin 16) := none) : Host.Outcome State Fault Refusal :=
  .next (s.on (hardwareShutdown trip tear))
def execThermalRestart (s : State) : Host.Outcome State Fault Refusal := .next (s.on thermalRestart)
def execTapInstructionUpdate (ir : BitVec 8) (s : State) : Host.Outcome State Fault Refusal := .next (s.on (tapUpdate ir))

end Sys2Proof.Machine
end

