-- ==== Sys2Proof/Machine/System.lean ====
section
/-! DEFINITION. Acceptance and the system commands (R64, R77, R90 to R93), and the ledgers (R525, R526, R530 to R532). -/

namespace Sys2Proof.Machine

/-- SYS_NOP (R90). -/
def sysNopSpec : CmdSpec where
  op := 0x0100
  len := lenIs 0
  check := fun _ _ _ => none
  act := fun _ c d => okCmd c 0x0000 0 [] true d

/-- The SYS_NOP row also begins commands of undefined opcodes, which no row names (log entry 15). -/
def runNop (mb : Nat) (x : Ctx) (d : Dev) : Dev :=
  match nextCmd d mb with
  | none => d
  | some c => if c.op = 0x0100 ∨ !definedOp c.op then beginCmd sysNopSpec c x d else d

/-- The highest level common to host and firmware, if there is one (R91). -/
def commonLevel (d : Dev) (lo hi : Nat) : Option Nat :=
  let l := min hi d.hif.ilHigh
  if max lo d.hif.ilLow ≤ l then some l else none

/-- SYS_HELLO (R91). -/
def sysHelloSpec : CmdSpec where
  op := 0x0101
  len := lenIs 16
  check := fun _ c d => firstFail [fRange c 0 1 1 255, fRange c 1 1 (c.arg 0 1) 255, fRes c 2 2, fRes c 12 4,
    fIf (commonLevel d (c.arg 0 1) (c.arg 1 1)).isNone 0x12 0]
  act := fun _ c d =>
    match commonLevel d (c.arg 0 1) (c.arg 1 1) with
    | none => d
    | some l => okCmd c 0x0000 l [] false
        { d with core := { d.core with pins := Store.set {} d.core.pins c.mb { level := l, hostId := c.arg 4 8 } } }

/-- The first 16 bytes of the build hash of an image (R92). -/
def hash16 (i : RunImage) : List Byte := (i.hash ++ zeros 16).take 16

/-- SYS_IDENT (R92). -/
def identBytes (x : Ctx) (c : Cmd) (d : Dev) : List Byte :=
  let h := d.hif
  let i := d.mirror.imgActive
  le 2 0x5659 ++ le 1 Config.step ++ le 1 (devStateCode h.state) ++ le 1 h.fwMajor ++ le 1 h.fwMinor ++ le 2 h.fwBuild ++ le 1 h.ilLow ++
    le 1 h.ilHigh ++ le 1 x.fuse.portsCode ++ le 1 (flag x.fuse.duplex 0 + flag x.fuse.oven 1) ++ le 1 i.src ++ le 1 (d.pin c.mb).level ++
    zeros 2 ++ le 8 x.fuse.serial.toNat ++ hash16 i ++ le 2 h.ddrGib.toNat ++ le 2 h.ddrResv.toNat ++ zeros 4 ++
    le 8 (d.pin c.mb).hostId ++ le 8 d.time.lat

def sysIdentSpec : CmdSpec where
  op := 0x0102
  len := lenIs 0
  check := fun _ _ _ => none
  act := fun x c d => replyCmd c 0x0000 (identBytes x c d) d

/-- The commands SYS_ABORT ends (R93). -/
def abortees (c : Cmd) (d : Dev) : List Cmd :=
  d.core.cmds.filter fun q => q.mb = c.arg 0 1 && !q.begun && q.seq ≠ c.seq && (c.arg 1 1 = 1 || q.tag = c.arg 4 4)

/-- SYS_ABORT (R93). -/
def sysAbortSpec : CmdSpec where
  op := 0x0103
  len := lenIs 8
  check := fun _ c _ => firstFail [fRange c 0 1 0 31, fRange c 1 1 0 1, fRes c 2 2, fIf (c.arg 1 1 = 1 && c.arg 4 4 ≠ 0) 0x13 4]
  act := fun _ c d =>
    let qs := abortees c d
    if qs.isEmpty then okCmd c 0x0002 0 [] true d
    else
      let k := c.completion d 0x0000 0xFFFF qs.length [] (followsEpochs d)
      finishWith c { k with after := qs.map (·.seq) } (qs.foldl (fun d q => failCmd q { status := 0x1C } d) d)

/-- SYS_ABORT begins at its acceptance, whatever stands before it (R77); a bulk payload waits for the host link (R30). -/
def beginAbort (c : Cmd) (x : Ctx) (d : Dev) : Dev :=
  if c.bulk && !d.hif.linkUp then d else beginCmd sysAbortSpec c x d

/-- COMMAND_ACCEPT (R64): the oldest doorbell's command is accepted. -/
def acceptNext (x : Ctx) (d : Dev) : Dev :=
  match d.bells with
  | [] => d
  | b :: _ =>
    if !firmwareRuns d then d
    else
      let d1 := acceptBell b d
      match lastAccepted d1 with
      | none => d1
      | some c => if c.op = opAbort then beginAbort c x d1 else d1

/-- The SYS_ABORT row: one accepted and waiting for the link begins; else the oldest doorbell's is accepted, if it is one. -/
def runAbort (mb : Nat) (x : Ctx) (d : Dev) : Dev :=
  match d.core.cmds.find? (fun q => q.mb = mb && q.op = opAbort && !q.begun) with
  | some c => if firmwareRuns d then beginAbort c x d else d
  | none =>
    match d.bells with
    | [] => d
    | b :: _ => if b.1 = mb ∧ fld (slotBytes d b.1 b.2) 0 2 = opAbort then acceptNext x d else d

/-! Ledgers (R525, R526, R530 to R532). -/

/-- LEDGER_CHECK (R526), every 1 ms. -/
def ledgerCheck (_ : Ctx) (d : Dev) : Dev := if firmwareRuns d then checkLedgers (paced .ledger d) else d

/-- SYS_LEDGER (R530). -/
def ledgerBytes (d : Dev) : List Byte :=
  let r := d.core.run
  let isOpen (row : Nat) : Bool := (rowInstances row).any (rowOpen d row)
  le 8 r.issued ++ le 8 r.completed ++ le 8 r.failed ++ le 8 (inFlight d) ++
    le 4 (([1, 2, 3, 4, 5].map fun row => flag (isOpen row) (row - 1)).sum) ++ le 4 d.ledger.faults ++ le 8 d.ledger.seq ++
    le 8 d.evt.lost.toNat ++ le 8 d.time.lat

def sysLedgerSpec : CmdSpec where
  op := 0x0180
  len := lenIs 0
  check := fun _ _ _ => none
  act := fun _ c d => replyCmd c 0x0000 (ledgerBytes d) d

/-- The status of a shot (R524); one not held has only its number (R531). -/
def shotBytes (d : Dev) (k : Nat) : List Byte :=
  match d.core.statuses.find? (fun s => s.shot = k) with
  | none => le 6 k ++ zeros 26
  | some s => le 6 k ++ le 2 s.cause ++ le 2 s.inst ++ le 2 s.failures ++ le 4 s.deferred ++ le 8 s.detail ++ le 8 s.decided

/-- SYS_SHOTS (R531). -/
def sysShotsSpec : CmdSpec where
  op := 0x0181
  len := lenIs 8
  check := fun _ c _ => fRange c 6 2 1 256
  act := fun _ c d => replyCmd c 0x0000 ((List.range (c.arg 6 2)).flatMap fun i => shotBytes d (c.arg 0 6 + i)) d

/-- A report and its entries (R527, R529). -/
def reportBytes (r : Report) : List Byte :=
  le 1 r.kind ++ le 1 r.inst ++ le 2 r.entries.length ++ le 4 r.seq ++ le 8 r.start ++ le 8 r.finish ++ le 8 r.a ++ le 8 r.b ++ le 8 r.c ++
    le 8 r.d ++ le 8 r.e ++ r.entries.flatten

/-- SYS_RECONCILE (R532). -/
def sysReconcileSpec : CmdSpec where
  op := 0x0182
  len := lenIs 4
  check := fun _ c _ => firstFail [fRange c 0 1 0 4, fRes c 1 1, fRange c 2 2 1 16]
  act := fun _ c d =>
    let rs := (d.ledger.reports.filter (fun r => c.arg 0 1 = 0 || r.kind = c.arg 0 1)).take (c.arg 2 2)
    if rs.isEmpty then okCmd c 0x0002 0 [] true d else replyCmd c 0x0000 (rs.flatMap reportBytes) d

/-! The rows. -/
def execSysNop (mb : Fin 32) (h : HostSide) (s : State) : Host.Outcome State Fault Refusal := .next ((s.sync h).on (runNop mb))
def execSysHello (mb : Fin 32) (h : HostSide) (s : State) : Host.Outcome State Fault Refusal := cmdRow sysHelloSpec mb h s
def execSysIdent (mb : Fin 32) (h : HostSide) (s : State) : Host.Outcome State Fault Refusal := cmdRow sysIdentSpec mb h s
def execSysAbort (mb : Fin 32) (h : HostSide) (s : State) : Host.Outcome State Fault Refusal := .next ((s.sync h).on (runAbort mb))
def execSysLedger (mb : Fin 32) (h : HostSide) (s : State) : Host.Outcome State Fault Refusal := cmdRow sysLedgerSpec mb h s
def execSysShots (mb : Fin 32) (h : HostSide) (s : State) : Host.Outcome State Fault Refusal := cmdRow sysShotsSpec mb h s
def execSysReconcile (mb : Fin 32) (h : HostSide) (s : State) : Host.Outcome State Fault Refusal := cmdRow sysReconcileSpec mb h s
def execCommandAccept (h : HostSide) (s : State) : Host.Outcome State Fault Refusal := .next ((s.sync h).on acceptNext)
def execLedgerCheck (s : State) : Host.Outcome State Fault Refusal := .next (s.on ledgerCheck)

end Sys2Proof.Machine
end

