-- ==== Sys2Proof/Machine/Dispatch.lean ====
section
/-! DEFINITION. The effect of each command on the state, one arm per row of spec/opcode_table.json. -/

namespace Sys2Proof.Machine

/-- The effect of one command (the queue holds the commands after it). -/
def exec (i : Instr) (s : State) : Host.Outcome State Fault Refusal :=
  match i with
  | .sysNop mb h => Sys2Proof.Machine.execSysNop mb h s
  | .sysHello mb h => Sys2Proof.Machine.execSysHello mb h s
  | .sysIdent mb h => Sys2Proof.Machine.execSysIdent mb h s
  | .sysAbort mb h => Sys2Proof.Machine.execSysAbort mb h s
  | .sysLedger mb h => Sys2Proof.Machine.execSysLedger mb h s
  | .sysShots mb h => Sys2Proof.Machine.execSysShots mb h s
  | .sysReconcile mb h => Sys2Proof.Machine.execSysReconcile mb h s
  | .latStatus mb h => Sys2Proof.Machine.execLatStatus mb h s
  | .latRefSelect mb h => Sys2Proof.Machine.execLatRefSelect mb h s
  | .latSetPeriod mb h => Sys2Proof.Machine.execLatSetPeriod mb h s
  | .latSync mb h => Sys2Proof.Machine.execLatSync mb h s
  | .latLoad mb h => Sys2Proof.Machine.execLatLoad mb h s
  | .latSlack mb h => Sys2Proof.Machine.execLatSlack mb h s
  | .latDiscards mb h => Sys2Proof.Machine.execLatDiscards mb h s
  | .prtStatus mb h => Sys2Proof.Machine.execPrtStatus mb h s
  | .prtDriveConfig mb h => Sys2Proof.Machine.execPrtDriveConfig mb h s
  | .prtFrameSet mb h => Sys2Proof.Machine.execPrtFrameSet mb h s
  | .prtEnvWrite mb h => Sys2Proof.Machine.execPrtEnvWrite mb h s
  | .prtEnvRead mb h => Sys2Proof.Machine.execPrtEnvRead mb h s
  | .prtStoreAssign mb h => Sys2Proof.Machine.execPrtStoreAssign mb h s
  | .prtFluxConfig mb h => Sys2Proof.Machine.execPrtFluxConfig mb h s
  | .prtFluxDc mb h => Sys2Proof.Machine.execPrtFluxDc mb h s
  | .fluxRampEnd port => Sys2Proof.Machine.execFluxRampEnd port s
  | .prtProbeConfig mb h => Sys2Proof.Machine.execPrtProbeConfig mb h s
  | .prtProbeTone mb h => Sys2Proof.Machine.execPrtProbeTone mb h s
  | .prtAcqConfig mb h => Sys2Proof.Machine.execPrtAcqConfig mb h s
  | .prtAcqStatus mb h adc => Sys2Proof.Machine.execPrtAcqStatus mb h s adc
  | .rayStatus mb h => Sys2Proof.Machine.execRayStatus mb h s
  | .progLoad mb h => Sys2Proof.Machine.execProgLoad mb h s
  | .progStart mb h => Sys2Proof.Machine.execProgStart mb h s
  | .progStop mb h => Sys2Proof.Machine.execProgStop mb h s
  | .locWrite mb h => Sys2Proof.Machine.execLocWrite mb h s
  | .locRead mb h => Sys2Proof.Machine.execLocRead mb h s
  | .roChConfig mb h => Sys2Proof.Machine.execRoChConfig mb h s
  | .roWeights mb h => Sys2Proof.Machine.execRoWeights mb h s
  | .roDisc mb h => Sys2Proof.Machine.execRoDisc mb h s
  | .roChRead mb h => Sys2Proof.Machine.execRoChRead mb h s
  | .chTableWrite mb h => Sys2Proof.Machine.execChTableWrite mb h s
  | .chTableRead mb h => Sys2Proof.Machine.execChTableRead mb h s
  | .chExport mb h => Sys2Proof.Machine.execChExport mb h s
  | .chStatus mb h => Sys2Proof.Machine.execChStatus mb h s
  | .rpStatus mb h => Sys2Proof.Machine.execRpStatus mb h s
  | .rpMemWrite mb h => Sys2Proof.Machine.execRpMemWrite mb h s
  | .rpMemRead mb h => Sys2Proof.Machine.execRpMemRead mb h s
  | .rpLoad mb h => Sys2Proof.Machine.execRpLoad mb h s
  | .rpRun mb h => Sys2Proof.Machine.execRpRun mb h s
  | .rpStop mb h => Sys2Proof.Machine.execRpStop mb h s
  | .rpAttach mb h => Sys2Proof.Machine.execRpAttach mb h s
  | .rpApply mb h => Sys2Proof.Machine.execRpApply mb h s
  | .rpMaxUsExpiry p => Sys2Proof.Machine.execRpMaxUsExpiry p s
  | .rpDetachComplete p => Sys2Proof.Machine.execRpDetachComplete p s
  | .acqStatus mb h => Sys2Proof.Machine.execAcqStatus mb h s
  | .acqRingConfig mb h => Sys2Proof.Machine.execAcqRingConfig mb h s
  | .acqRingRebase mb h => Sys2Proof.Machine.execAcqRingRebase mb h s
  | .acqUnitConfig mb h => Sys2Proof.Machine.execAcqUnitConfig mb h s
  | .acqMask mb h => Sys2Proof.Machine.execAcqMask mb h s
  | .acqArm mb h => Sys2Proof.Machine.execAcqArm mb h s
  | .acqStop mb h adc => Sys2Proof.Machine.execAcqStop mb h adc s
  | .acqGroupArm mb h => Sys2Proof.Machine.execAcqGroupArm mb h s
  | .calStatus mb h => Sys2Proof.Machine.execCalStatus mb h s
  | .calConfig mb h => Sys2Proof.Machine.execCalConfig mb h s
  | .calRun mb h => Sys2Proof.Machine.execCalRun mb h s
  | .calAbort mb h => Sys2Proof.Machine.execCalAbort mb h s
  | .calRead mb h => Sys2Proof.Machine.execCalRead mb h s
  | .calWrite mb h => Sys2Proof.Machine.execCalWrite mb h s
  | .calCommit mb h => Sys2Proof.Machine.execCalCommit mb h s
  | .timInputConfig mb h => Sys2Proof.Machine.execTimInputConfig mb h s
  | .timMeasure mb h => Sys2Proof.Machine.execTimMeasure mb h s
  | .timRead mb h => Sys2Proof.Machine.execTimRead mb h s
  | .timAbort mb h => Sys2Proof.Machine.execTimAbort mb h s
  | .wtStatus mb h => Sys2Proof.Machine.execWtStatus mb h s
  | .wtStep mb h => Sys2Proof.Machine.execWtStep mb h s
  | .wtStepApply => Sys2Proof.Machine.execWtStepApply s
  | .wtRate mb h => Sys2Proof.Machine.execWtRate mb h s
  | .wtPulse mb h => Sys2Proof.Machine.execWtPulse mb h s
  | .mkvStatus mb h level => Sys2Proof.Machine.execMkvStatus mb h level s
  | .mkvPinConfig mb h => Sys2Proof.Machine.execMkvPinConfig mb h s
  | .mkvTsetWrite mb h => Sys2Proof.Machine.execMkvTsetWrite mb h s
  | .mkvWrite mb h => Sys2Proof.Machine.execMkvWrite mb h s
  | .mkvRead mb h => Sys2Proof.Machine.execMkvRead mb h s
  | .benchStatus mb h => Sys2Proof.Machine.execBenchStatus mb h s
  | .benchConfig mb h => Sys2Proof.Machine.execBenchConfig mb h s
  | .benchResume mb h => Sys2Proof.Machine.execBenchResume mb h s
  | .indConfig mb h => Sys2Proof.Machine.execIndConfig mb h s
  | .lnkStatus mb h => Sys2Proof.Machine.execLnkStatus mb h s
  | .lnkConfig mb h => Sys2Proof.Machine.execLnkConfig mb h s
  | .lnkTrain mb h => Sys2Proof.Machine.execLnkTrain mb h s
  | .lnkDomain mb h => Sys2Proof.Machine.execLnkDomain mb h s
  | .lnkAlign mb h dPC dCP => Sys2Proof.Machine.execLnkAlign mb h dPC dCP s
  | .mirStatus mb h => Sys2Proof.Machine.execMirStatus mb h s
  | .mirSwitch mb h => Sys2Proof.Machine.execMirSwitch mb h s
  | .mirResync mb h => Sys2Proof.Machine.execMirResync mb h s
  | .mirConfig mb h => Sys2Proof.Machine.execMirConfig mb h s
  | .thmStatus mb h => Sys2Proof.Machine.execThmStatus mb h s
  | .thmConfig mb h => Sys2Proof.Machine.execThmConfig mb h s
  | .hkaConvert mb h => Sys2Proof.Machine.execHkaConvert mb h s
  | .hkaConfig mb h => Sys2Proof.Machine.execHkaConfig mb h s
  | .railStatus mb h => Sys2Proof.Machine.execRailStatus mb h s
  | .imgStatus mb h => Sys2Proof.Machine.execImgStatus mb h s
  | .imgStage mb h => Sys2Proof.Machine.execImgStage mb h s
  | .imgWrite mb h => Sys2Proof.Machine.execImgWrite mb h s
  | .imgSelect mb h => Sys2Proof.Machine.execImgSelect mb h s
  | .imgReboot mb h => Sys2Proof.Machine.execImgReboot mb h s
  | .imgRebootReset => Sys2Proof.Machine.execImgRebootReset s
  | .imgLoadStandby mb h => Sys2Proof.Machine.execImgLoadStandby mb h s
  | .imgHandover mb h => Sys2Proof.Machine.execImgHandover mb h s
  | .rayHalt r => Sys2Proof.Machine.execRayHalt r s
  | .rayMerid r => Sys2Proof.Machine.execRayMerid r s
  | .rayBarr r => Sys2Proof.Machine.execRayBarr r s
  | .rayAt r => Sys2Proof.Machine.execRayAt r s
  | .rayWait r => Sys2Proof.Machine.execRayWait r s
  | .rayPlay r => Sys2Proof.Machine.execRayPlay r s
  | .rayPlays r => Sys2Proof.Machine.execRayPlays r s
  | .raySetf r => Sys2Proof.Machine.execRaySetf r s
  | .rayVz r => Sys2Proof.Machine.execRayVz r s
  | .rayAcq r => Sys2Proof.Machine.execRayAcq r s
  | .rayMark r => Sys2Proof.Machine.execRayMark r s
  | .rayLoop r => Sys2Proof.Machine.execRayLoop r s
  | .rayEndl r => Sys2Proof.Machine.execRayEndl r s
  | .rayJump r => Sys2Proof.Machine.execRayJump r s
  | .rayBr r => Sys2Proof.Machine.execRayBr r s
  | .rayDecide r => Sys2Proof.Machine.execRayDecide r s
  | .raySetg r => Sys2Proof.Machine.execRaySetg r s
  | .rayAddg r => Sys2Proof.Machine.execRayAddg r s
  | .decideResolve r => Sys2Proof.Machine.execDecideResolve r s
  | .decideDeadline r => Sys2Proof.Machine.execDecideDeadline r s
  | .rpHalt p => Sys2Proof.Machine.execRpHalt p s
  | .rpNop p => Sys2Proof.Machine.execRpNop p s
  | .rpRep p => Sys2Proof.Machine.execRpRep p s
  | .rpJmp p => Sys2Proof.Machine.execRpJmp p s
  | .rpDjnz p => Sys2Proof.Machine.execRpDjnz p s
  | .rpLdc p => Sys2Proof.Machine.execRpLdc p s
  | .rpSetp p => Sys2Proof.Machine.execRpSetp p s
  | .rpCfgp p => Sys2Proof.Machine.execRpCfgp p s
  | .rpClr p => Sys2Proof.Machine.execRpClr p s
  | .rpClrf p => Sys2Proof.Machine.execRpClrf p s
  | .rpMac p => Sys2Proof.Machine.execRpMac p s
  | .rpCmac p => Sys2Proof.Machine.execRpCmac p s
  | .rpLda p => Sys2Proof.Machine.execRpLda p s
  | .rpAdda p => Sys2Proof.Machine.execRpAdda p s
  | .rpAddac p => Sys2Proof.Machine.execRpAddac p s
  | .rpShra p => Sys2Proof.Machine.execRpShra p s
  | .rpSt p => Sys2Proof.Machine.execRpSt p s
  | .rpStc p => Sys2Proof.Machine.execRpStc p s
  | .rpMovw p => Sys2Proof.Machine.execRpMovw p s
  | .rpSgn p => Sys2Proof.Machine.execRpSgn p s
  | .rpWaitr p => Sys2Proof.Machine.execRpWaitr p s
  | .rpEmit p => Sys2Proof.Machine.execRpEmit p s
  | .mbDoorbell mb value => Sys2Proof.Machine.execMbDoorbell mb value s
  | .commandSlotWrite mb slot off bytes => Sys2Proof.Machine.execCommandSlotWrite mb slot off bytes s
  | .commandAccept h => Sys2Proof.Machine.execCommandAccept h s
  | .heldCompletionPost mb => Sys2Proof.Machine.execHeldCompletionPost mb s
  | .mbEnable mb => Sys2Proof.Machine.execMbEnable mb s
  | .mbDisable mb => Sys2Proof.Machine.execMbDisable mb s
  | .mbCringTailWrite mb value => Sys2Proof.Machine.execMbCringTailWrite mb value s
  | .mbCringConfigWrite mb w => Sys2Proof.Machine.execMbCringConfigWrite mb w s
  | .dmaTailWrite ring value => Sys2Proof.Machine.execDmaTailWrite ring value s
  | .dmaStart ring => Sys2Proof.Machine.execDmaStart ring s
  | .dmaStop ring h moved => Sys2Proof.Machine.execDmaStop ring h moved s
  | .dmaConfigWrite ring w => Sys2Proof.Machine.execDmaConfigWrite ring w s
  | .dmaDescriptorDone ring h => Sys2Proof.Machine.execDmaDescriptorDone ring h s
  | .evtPendClear k mask raisedNow => Sys2Proof.Machine.execEvtPendClear k mask raisedNow s
  | .evtLogEnable => Sys2Proof.Machine.execEvtLogEnable s
  | .evtLogDisable => Sys2Proof.Machine.execEvtLogDisable s
  | .evtLogTailWrite value => Sys2Proof.Machine.execEvtLogTailWrite value s
  | .evtLogConfigWrite w => Sys2Proof.Machine.execEvtLogConfigWrite w s
  | .msixUnmask v => Sys2Proof.Machine.execMsixUnmask v s
  | .hifErrClear mask setNow => Sys2Proof.Machine.execHifErrClear mask setNow s
  | .rlLowHalfRead off => Sys2Proof.Machine.execRlLowHalfRead off s
  | .rl8byteRead off => Sys2Proof.Machine.execRl8byteRead off s
  | .bar0AccessError isWrite off size => Sys2Proof.Machine.execBar0AccessError isWrite off size s
  | .registerWrite off eight value => Sys2Proof.Machine.execRegisterWrite off eight value s
  | .bar2Read off len h => Sys2Proof.Machine.execBar2Read off len h s
  | .bar2Write off bytes => Sys2Proof.Machine.execBar2Write off bytes s
  | .pcieLinkTrained speed width flit set => Sys2Proof.Machine.execPcieLinkTrained speed width flit s set
  | .pcieLinkDown => Sys2Proof.Machine.execPcieLinkDown s
  | .functionLevelReset => Sys2Proof.Machine.execFunctionLevelReset s
  | .pcieConventionalReset => Sys2Proof.Machine.execPcieConventionalReset s
  | .powerOnReset tear => Sys2Proof.Machine.execPowerOnReset s tear
  | .resetN lowNs tear => Sys2Proof.Machine.execResetN lowNs s tear
  | .coreReset mirror tear => Sys2Proof.Machine.execCoreReset mirror s tear
  | .dieResetRelease bootRecovLow flashOk smbAddr => Sys2Proof.Machine.execDieResetRelease bootRecovLow flashOk s smbAddr
  | .imageLoadComplete mirror failed => Sys2Proof.Machine.execImageLoadComplete mirror s failed
  | .firmwareReady ddrGib trained holdLow => Sys2Proof.Machine.execFirmwareReady ddrGib trained holdLow s
  | .referenceLost refPN => Sys2Proof.Machine.execReferenceLost refPN s
  | .referenceRestored refPN => Sys2Proof.Machine.execReferenceRestored refPN s
  | .refPullIn => Sys2Proof.Machine.execRefPullIn s
  | .pllLock => Sys2Proof.Machine.execPllLock s
  | .pllUnlock => Sys2Proof.Machine.execPllUnlock s
  | .orfWarmSet => Sys2Proof.Machine.execOrfWarmSet s
  | .ovenWarmLost => Sys2Proof.Machine.execOvenWarmLost s
  | .ovenFault => Sys2Proof.Machine.execOvenFault s
  | .meridian adc failed => Sys2Proof.Machine.execMeridian s adc failed
  | .epochTimerClose => Sys2Proof.Machine.execEpochTimerClose s
  | .shotOpen => Sys2Proof.Machine.execShotOpen s
  | .syncEdge falling beforePs => Sys2Proof.Machine.execSyncEdge falling beforePs s
  | .syncWindowClose => Sys2Proof.Machine.execSyncWindowClose s
  | .latLoadTimeout => Sys2Proof.Machine.execLatLoadTimeout s
  | .itemArrival n => Sys2Proof.Machine.execItemArrival n s
  | .itemRelease port more => Sys2Proof.Machine.execItemRelease port more s
  | .jumpCommitCheck port => Sys2Proof.Machine.execJumpCommitCheck port s
  | .frameTokenApply r => Sys2Proof.Machine.execFrameTokenApply r s
  | .streamBlockRefill port h => Sys2Proof.Machine.execStreamBlockRefill port h s
  | .envCopyEnd => Sys2Proof.Machine.execEnvCopyEnd s
  | .slackReading mirror counts => Sys2Proof.Machine.execSlackReading mirror counts s
  | .deadlockDetect => Sys2Proof.Machine.execDeadlockDetect s
  | .stateInstant chan adc tail => Sys2Proof.Machine.execStateInstant chan adc tail s
  | .ringEntryWrite ring => Sys2Proof.Machine.execRingEntryWrite ring s
  | .ringReadPoll ring h => Sys2Proof.Machine.execRingReadPoll ring h s
  | .triggerFire unit adc => Sys2Proof.Machine.execTriggerFire unit adc s
  | .captureEnd unit adc => Sys2Proof.Machine.execCaptureEnd unit adc s
  | .unitRearm unit => Sys2Proof.Machine.execUnitRearm unit s
  | .groupArmMessage link => Sys2Proof.Machine.execGroupArmMessage link s
  | .groupArmAt => Sys2Proof.Machine.execGroupArmAt s
  | .fireMessage link => Sys2Proof.Machine.execFireMessage link s
  | .groupFireDecide => Sys2Proof.Machine.execGroupFireDecide s
  | .sliceStart ports => Sys2Proof.Machine.execSliceStart ports s
  | .sliceEnd ms => Sys2Proof.Machine.execSliceEnd ms s
  | .trimRecompute => Sys2Proof.Machine.execTrimRecompute s
  | .calGroupEnd ms => Sys2Proof.Machine.execCalGroupEnd ms s
  | .calRunEnd => Sys2Proof.Machine.execCalRunEnd s
  | .calStarved port => Sys2Proof.Machine.execCalStarved port s
  | .calTimedCommit => Sys2Proof.Machine.execCalTimedCommit s
  | .commitEnd readBackOk => Sys2Proof.Machine.execCommitEnd readBackOk s
  | .timSelfCalibrate scales => Sys2Proof.Machine.execTimSelfCalibrate scales s
  | .timWindowOpen => Sys2Proof.Machine.execTimWindowOpen s
  | .eventInputEdge src falling beforePs => Sys2Proof.Machine.execEventInputEdge src falling beforePs s
  | .timWindowClose => Sys2Proof.Machine.execTimWindowClose s
  | .wtPulseTarget g => Sys2Proof.Machine.execWtPulseTarget g s
  | .wtPulseTrailingEdge g => Sys2Proof.Machine.execWtPulseTrailingEdge g s
  | .markerStrobe belowVtl aboveVth => Sys2Proof.Machine.execMarkerStrobe belowVtl aboveVth s
  | .plugSenseTest port code => Sys2Proof.Machine.execPlugSenseTest port code s
  | .openLoadDetect port => Sys2Proof.Machine.execOpenLoadDetect port s
  | .holdPressed => Sys2Proof.Machine.execHoldPressed s
  | .holdReleased => Sys2Proof.Machine.execHoldReleased s
  | .linkFrameTransmit link mean => Sys2Proof.Machine.execLinkFrameTransmit link s mean
  | .linkFrameReceive link bytes offNs => Sys2Proof.Machine.execLinkFrameReceive link bytes offNs s
  | .linkFrameRelease link => Sys2Proof.Machine.execLinkFrameRelease link s
  | .linkReceiverDetect link found => Sys2Proof.Machine.execLinkReceiverDetect link found s
  | .linkBitLock link => Sys2Proof.Machine.execLinkBitLock link s
  | .linkMarkerLock link reversed skewUi => Sys2Proof.Machine.execLinkMarkerLock link reversed skewUi s
  | .capabilityExchange link delayFs => Sys2Proof.Machine.execCapabilityExchange link delayFs s
  | .linkStageTimeout link => Sys2Proof.Machine.execLinkStageTimeout link s
  | .linkRetry link => Sys2Proof.Machine.execLinkRetry link s
  | .segmentReceive link => Sys2Proof.Machine.execSegmentReceive link s
  | .segmentResend link => Sys2Proof.Machine.execSegmentResend link s
  | .ctleStep link => Sys2Proof.Machine.execCtleStep link s
  | .linkIdleExit link markersFound => Sys2Proof.Machine.execLinkIdleExit link markersFound s
  | .alignTrack thetaFs => Sys2Proof.Machine.execAlignTrack thetaFs s
  | .epochApply intact => Sys2Proof.Machine.execEpochApply intact s
  | .heartbeatSend mirror => Sys2Proof.Machine.execHeartbeatSend mirror s
  | .heartbeatReceive byMirror offDie healthy => Sys2Proof.Machine.execHeartbeatReceive byMirror offDie healthy s
  | .heartbeatTimeout offDie => Sys2Proof.Machine.execHeartbeatTimeout offDie s
  | .heartbeatPathRestored offDie => Sys2Proof.Machine.execHeartbeatPathRestored offDie s
  | .coreResign => Sys2Proof.Machine.execCoreResign s
  | .switchoverGapEnd gapNs => Sys2Proof.Machine.execSwitchoverGapEnd gapNs s
  | .deposedLatchSeen => Sys2Proof.Machine.execDeposedLatchSeen s
  | .resyncComplete => Sys2Proof.Machine.execResyncComplete s
  | .shadowMismatch faults => Sys2Proof.Machine.execShadowMismatch s faults
  | .bistError => Sys2Proof.Machine.execBistError s
  | .sensorSample ts td => Sys2Proof.Machine.execSensorSample ts td s
  | .bandFall => Sys2Proof.Machine.execBandFall s
  | .thermalWarningClear => Sys2Proof.Machine.execThermalWarningClear s
  | .throttleRelease => Sys2Proof.Machine.execThrottleRelease s
  | .mr4Poll channel wantsFast => Sys2Proof.Machine.execMr4Poll channel wantsFast s
  | .railScan volts amps => Sys2Proof.Machine.execRailScan volts amps s
  | .hkaSample code value retaken => Sys2Proof.Machine.execHkaSample code value retaken s
  | .hardwareShutdown trip tear => Sys2Proof.Machine.execHardwareShutdown trip s tear
  | .thermalRestart => Sys2Proof.Machine.execThermalRestart s
  | .ledgerCheck => Sys2Proof.Machine.execLedgerCheck s
  | .logRecordWrite => Sys2Proof.Machine.execLogRecordWrite s
  | .pullInComplete => Sys2Proof.Machine.execPullInComplete s
  | .latticeSlewEnd residualFs => Sys2Proof.Machine.execLatticeSlewEnd residualFs s
  | .slotWriteEnd ok => Sys2Proof.Machine.execSlotWriteEnd ok s
  | .timLatticeStart => Sys2Proof.Machine.execTimLatticeStart s
  | .laneMarkersMissing link => Sys2Proof.Machine.execLaneMarkersMissing link s
  | .smbusTransaction code write addr => Sys2Proof.Machine.execSmbusTransaction code write s addr
  | .tapInstructionUpdate ir => Sys2Proof.Machine.execTapInstructionUpdate ir s
  | .faultHalt => Sys2Proof.Machine.execFaultHalt s

end Sys2Proof.Machine
end

