-- ==== Sys2Proof/Safety.lean ====
section
/-! DEFINITION. What counts as a safe run, and the terms the statements use: the settled state, a mailbox command that
passes its checks, and what a command's end may change. -/

namespace Sys2Proof.Machine

/-- Both byte memories are in canonical form, and no memory write waits. -/
def State.settled (s : State) : Prop := Mem.wf s.ddr = true ∧ Mem.wf s.host = true ∧ s.dev.wr = []

/-- What a meaning may read of a state besides the device. -/
def State.ctx (s : State) : Ctx := ⟨s.fuse, s.ddr, s.host⟩

/-! Mailbox commands. -/

/-- `c0` as it goes on once it has begun: its payload read (R69). -/
def Cmd.begin (x : Ctx) (c0 : Cmd) : Cmd := { c0 with payload := payloadOf x c0, begun := true }

/-- The first check of R83 that `c0` fails when it begins. -/
def firstFault (sp : CmdSpec) (c0 : Cmd) (x : Ctx) (d : Dev) : Option Fail :=
  match headerFail d c0 with
  | some f => some f
  | none => if sp.len (c0.begin x) then sp.check x (c0.begin x) d else some (atOffset 0x15 8)

/-- `c0` as it goes on, where no check of R83 fails and firmware finds itself consistent (R86). -/
def checked (sp : CmdSpec) (c0 : Cmd) (x : Ctx) (d : Dev) : Option Cmd :=
  if (firstFault sp c0 x d).isNone && !d.fwBroken then some (c0.begin x) else none

/-- The command a mailbox begins next, where it has the row's opcode and passes its checks. -/
def passing (sp : CmdSpec) (mb : Nat) (x : Ctx) (d : Dev) : Option Cmd :=
  match nextCmd d mb with
  | none => none
  | some c0 => if c0.op = sp.op then checked sp c0 x d else none

/-- The command that a row begins on state `s`, once the host's side of memory is as the row says. -/
def State.begins (sp : CmdSpec) (mb : Nat) (h : HostSide) (s : State) : Option Cmd := passing sp mb (s.sync h).ctx (s.sync h).dev

/-- `s` after device operation `f`, made as an effect of command `c`, which stands in the list of unfinished commands: what it changes of the
shared blocks is kept beside it until it has ended (R85, `journal`). -/
def State.during (s : State) (h : HostSide) (c : Cmd) (f : Ctx → Dev → Dev) : State :=
  (s.sync h).on fun x d => journal c.seq (f x) (putCmd c d)

/-- The rows that begin a mailbox's next command: their command, mailbox and host side. SYS_NOP and SYS_ABORT have rows of their
own kind (R77, log entry 15). -/
def commandOf : Instr → Option (CmdSpec × Fin 32 × HostSide)
  | .sysHello mb h => some (sysHelloSpec, mb, h)
  | .sysIdent mb h => some (sysIdentSpec, mb, h)
  | .sysLedger mb h => some (sysLedgerSpec, mb, h)
  | .sysShots mb h => some (sysShotsSpec, mb, h)
  | .sysReconcile mb h => some (sysReconcileSpec, mb, h)
  | .latStatus mb h => some (latStatusSpec, mb, h)
  | .latRefSelect mb h => some (latRefSelectSpec, mb, h)
  | .latSetPeriod mb h => some (latSetPeriodSpec, mb, h)
  | .latSync mb h => some (latSyncSpec, mb, h)
  | .latLoad mb h => some (latLoadSpec, mb, h)
  | .latSlack mb h => some (latSlackSpec, mb, h)
  | .latDiscards mb h => some (latDiscardsSpec, mb, h)
  | .prtStatus mb h => some (prtStatusSpec, mb, h)
  | .prtDriveConfig mb h => some (prtDriveConfigSpec, mb, h)
  | .prtFrameSet mb h => some (prtFrameSetSpec, mb, h)
  | .prtEnvWrite mb h => some (prtEnvWriteSpec, mb, h)
  | .prtEnvRead mb h => some (prtEnvReadSpec, mb, h)
  | .prtStoreAssign mb h => some (prtStoreAssignSpec, mb, h)
  | .prtFluxConfig mb h => some (prtFluxConfigSpec, mb, h)
  | .prtFluxDc mb h => some (prtFluxDcSpec, mb, h)
  | .prtProbeConfig mb h => some (prtProbeConfigSpec, mb, h)
  | .prtProbeTone mb h => some (prtProbeToneSpec, mb, h)
  | .prtAcqConfig mb h => some (prtAcqConfigSpec, mb, h)
  | .prtAcqStatus mb h adc => some (prtAcqStatusSpec adc, mb, h)
  | .rayStatus mb h => some (rayStatusSpec, mb, h)
  | .progLoad mb h => some (progLoadSpec, mb, h)
  | .progStart mb h => some (progStartSpec, mb, h)
  | .progStop mb h => some (progStopSpec, mb, h)
  | .locWrite mb h => some (locWriteSpec, mb, h)
  | .locRead mb h => some (locReadSpec, mb, h)
  | .roChConfig mb h => some (roChConfigSpec, mb, h)
  | .roWeights mb h => some (roWeightsSpec, mb, h)
  | .roDisc mb h => some (roDiscSpec, mb, h)
  | .roChRead mb h => some (roChReadSpec, mb, h)
  | .chTableWrite mb h => some (chTableWriteSpec, mb, h)
  | .chTableRead mb h => some (chTableReadSpec, mb, h)
  | .chExport mb h => some (chExportSpec, mb, h)
  | .chStatus mb h => some (chStatusSpec, mb, h)
  | .rpStatus mb h => some (rpStatusSpec, mb, h)
  | .rpMemWrite mb h => some (rpMemWriteSpec, mb, h)
  | .rpMemRead mb h => some (rpMemReadSpec, mb, h)
  | .rpLoad mb h => some (rpLoadSpec, mb, h)
  | .rpRun mb h => some (rpRunSpec, mb, h)
  | .rpStop mb h => some (rpStopSpec, mb, h)
  | .rpAttach mb h => some (rpAttachSpec, mb, h)
  | .rpApply mb h => some (rpApplySpec, mb, h)
  | .acqStatus mb h => some (acqStatusSpec, mb, h)
  | .acqRingConfig mb h => some (acqRingConfigSpec, mb, h)
  | .acqRingRebase mb h => some (acqRingRebaseSpec, mb, h)
  | .acqUnitConfig mb h => some (acqUnitConfigSpec, mb, h)
  | .acqMask mb h => some (acqMaskSpec, mb, h)
  | .acqArm mb h => some (acqArmSpec, mb, h)
  | .acqStop mb h adc => some (acqStopSpec adc, mb, h)
  | .acqGroupArm mb h => some (acqGroupArmSpec, mb, h)
  | .calStatus mb h => some (calStatusSpec, mb, h)
  | .calConfig mb h => some (calConfigSpec, mb, h)
  | .calRun mb h => some (calRunSpec, mb, h)
  | .calAbort mb h => some (calAbortSpec, mb, h)
  | .calRead mb h => some (calReadSpec, mb, h)
  | .calWrite mb h => some (calWriteSpec, mb, h)
  | .calCommit mb h => some (calCommitSpec, mb, h)
  | .timInputConfig mb h => some (timInputConfigSpec, mb, h)
  | .timMeasure mb h => some (timMeasureSpec, mb, h)
  | .timRead mb h => some (timReadSpec, mb, h)
  | .timAbort mb h => some (timAbortSpec, mb, h)
  | .wtStatus mb h => some (wtStatusSpec, mb, h)
  | .wtStep mb h => some (wtStepSpec, mb, h)
  | .wtRate mb h => some (wtRateSpec, mb, h)
  | .wtPulse mb h => some (wtPulseSpec, mb, h)
  | .mkvStatus mb h level => some ((mkvStatusSpec level), mb, h)
  | .mkvPinConfig mb h => some (mkvPinConfigSpec, mb, h)
  | .mkvTsetWrite mb h => some (mkvTsetWriteSpec, mb, h)
  | .mkvWrite mb h => some (mkvWriteSpec, mb, h)
  | .mkvRead mb h => some (mkvReadSpec, mb, h)
  | .benchStatus mb h => some (benchStatusSpec, mb, h)
  | .benchConfig mb h => some (benchConfigSpec, mb, h)
  | .benchResume mb h => some (benchResumeSpec, mb, h)
  | .indConfig mb h => some (indConfigSpec, mb, h)
  | .lnkStatus mb h => some (lnkStatusSpec, mb, h)
  | .lnkConfig mb h => some (lnkConfigSpec, mb, h)
  | .lnkTrain mb h => some (lnkTrainSpec, mb, h)
  | .lnkDomain mb h => some (lnkDomainSpec, mb, h)
  | .lnkAlign mb h dPC dCP => some ((lnkAlignSpec dPC dCP), mb, h)
  | .mirStatus mb h => some (mirStatusSpec, mb, h)
  | .mirSwitch mb h => some (mirSwitchSpec, mb, h)
  | .mirResync mb h => some (mirResyncSpec, mb, h)
  | .mirConfig mb h => some (mirConfigSpec, mb, h)
  | .thmStatus mb h => some (thmStatusSpec, mb, h)
  | .thmConfig mb h => some (thmConfigSpec, mb, h)
  | .hkaConvert mb h => some (hkaConvertSpec, mb, h)
  | .hkaConfig mb h => some (hkaConfigSpec, mb, h)
  | .railStatus mb h => some (railStatusSpec, mb, h)
  | .imgStatus mb h => some (imgStatusSpec, mb, h)
  | .imgStage mb h => some (imgStageSpec, mb, h)
  | .imgWrite mb h => some (imgWriteSpec, mb, h)
  | .imgSelect mb h => some (imgSelectSpec, mb, h)
  | .imgReboot mb h => some (imgRebootSpec, mb, h)
  | .imgLoadStandby mb h => some (imgLoadStandbySpec, mb, h)
  | .imgHandover mb h => some (imgHandoverSpec, mb, h)
  | _ => none

/-! Words about to be executed. -/

/-- Ray `r` of the running program executes word `w` next: nothing it waits for holds it up (R191, R205, R235, R333). -/
def rayAt (d : Dev) (r w : Nat) : Prop :=
  ∃ p, runProg d = some p ∧ rayWord d p (d.ray r) = w ∧ raysRun d = true ∧ gateHeld d r = false ∧
    (match (d.ray r).st with | .halted => false | .barrier _ _ => false | .chord _ _ => false | .idle => false | _ => true) = true

/-- Read-out processor `p` holds kernel `k`, runs it, and executes word `w` next (R289, R290). -/
def rpAt (d : Dev) (p : Nat) (k : Kernel) (w : Nat) : Prop :=
  (d.rp p).kernel = some k ∧ (d.rp p).fetch k (d.rp p).pc = w ∧ firmwareRuns d = true ∧
    ((d.rp p).mode = .running ∨ (d.rp p).mode = .attached)

/-! What ending a command may change. -/

/-- Between `d` and `d'` only mailboxes, events, ledgers, the list of unfinished commands and the write queue differ. -/
def OnlyReports (d d' : Dev) : Prop :=
  d' = { d with mbs := d'.mbs, evt := d'.evt, ledger := d'.ledger, wr := d'.wr, core := { d.core with cmds := d'.core.cmds } }

/-- Every queued write goes to host memory. -/
def HostOnly (ws : List MemWrite) : Prop := ∀ w ∈ ws, ∃ a bs, w = .host a bs

end Sys2Proof.Machine
end

