-- ==== Sys2Proof/WellFormed.lean ====
section
/-! DEFINITION. Well-formed commands: the operands a stimulus of the block can carry. A meaning is total on ill-formed
ones too; the check names what a sender may send. -/

namespace Sys2Proof

open Machine (slotWriteOk lawfulAccess)

/-- The low-half offsets of the RL registers of BAR0 (R45, R46, R48, R56). -/
def isRl (off : Nat) : Bool :=
  [0x200, 0x208, 0x210, 0x1058].contains off ||
  (decide (0x800 ≤ off) && decide (off < 0x1000) && [0x20, 0x28].contains (off % 0x40)) ||
  (decide (0x400 ≤ off) && decide (off < 0x600) && [0x20, 0x28].contains (off % 0x40))

/-- Counts of acquire ports and read-out channels (R250, R253). -/
def adcOk (a : AdcSide) : Bool := a.ends.all (fun c => decide (84 ≤ c.1 ∧ c.1 < 96)) && a.sats.all (fun c => decide (c.1 < 192))

/-- The operands are ones a stimulus can carry. A BAR2 read may be as long as a read request, 4,096 bytes (R34), though R59 speaks of 512:
DESIGN CHOICE, log entry 132. -/
def Instr.wellFormed : Instr → Bool
  | .commandSlotWrite _ _ off bytes => slotWriteOk off bytes.length
  | .dmaStop _ _ moved => moved % 4 == 0
  | .rlLowHalfRead off => isRl off
  | .rl8byteRead off => isRl off
  | .bar0AccessError isWrite off size => !(lawfulAccess isWrite off size)
  | .registerWrite off eight value =>
    decide (off < 2 ^ 26) && lawfulAccess true off (if eight then 8 else 4) && (eight || decide (value.toNat < 2 ^ 32))
  | .bar2Read off len _ => decide (1 ≤ len) && decide (len ≤ 4096) && decide (off + len ≤ 2 ^ 33)
  | .bar2Write off bytes => decide (1 ≤ bytes.length) && decide (bytes.length ≤ 512) && decide (off + bytes.length ≤ 2 ^ 33)
  | .pcieLinkTrained speed width flit _ => decide (1 ≤ speed) && decide (speed ≤ 6) && [1, 2, 4, 8].contains width && flit == (speed == 6)
  | .syncEdge _ beforePs => decide (beforePs < 1000)
  | .slackReading _ counts => counts.length == 24
  | .prtAcqStatus _ _ a => adcOk a
  | .meridian a _ => adcOk a
  | .sliceEnd ms => decide (ms.length ≤ 97)
  | .calGroupEnd ms => decide (ms.length ≤ 97)
  | .timSelfCalibrate scales => scales.all fun x => decide (x < 2 ^ 32)
  | .eventInputEdge src _ beforePs => decide (beforePs < 1000) && (decide (src ≤ 8) || decide (16 ≤ src ∧ src ≤ 55))
  | .linkFrameReceive _ bytes _ => bytes.length == 240
  | .sensorSample ts td => ts.length == 24 && td.length == 4
  | .railScan volts amps => volts.length == 6 && amps.length == 6
  | .sysNop .. | .sysHello .. | .sysIdent .. | .sysAbort .. | .sysLedger .. | .sysShots .. | .sysReconcile ..
  | .latStatus .. | .latRefSelect .. | .latSetPeriod .. | .latSync .. | .latLoad .. | .latSlack ..
  | .latDiscards .. | .prtStatus .. | .prtDriveConfig .. | .prtFrameSet .. | .prtEnvWrite .. | .prtEnvRead ..
  | .prtStoreAssign .. | .prtFluxConfig .. | .prtFluxDc .. | .fluxRampEnd .. | .prtProbeConfig ..
  | .prtProbeTone .. | .prtAcqConfig .. | .rayStatus .. | .progLoad .. | .progStart ..
  | .progStop .. | .locWrite .. | .locRead .. | .roChConfig .. | .roWeights .. | .roDisc .. | .roChRead ..
  | .chTableWrite .. | .chTableRead .. | .chExport .. | .chStatus .. | .rpStatus .. | .rpMemWrite ..
  | .rpMemRead .. | .rpLoad .. | .rpRun .. | .rpStop .. | .rpAttach .. | .rpApply .. | .rpMaxUsExpiry ..
  | .rpDetachComplete .. | .acqStatus .. | .acqRingConfig .. | .acqRingRebase .. | .acqUnitConfig ..
  | .acqMask .. | .acqArm .. | .acqStop .. | .acqGroupArm .. | .calStatus .. | .calConfig .. | .calRun ..
  | .calAbort .. | .calRead .. | .calWrite .. | .calCommit .. | .timInputConfig .. | .timMeasure ..
  | .timRead .. | .timAbort .. | .wtStatus .. | .wtStep .. | .wtStepApply .. | .wtRate .. | .wtPulse ..
  | .mkvStatus .. | .mkvPinConfig .. | .mkvTsetWrite .. | .mkvWrite .. | .mkvRead .. | .benchStatus ..
  | .benchConfig .. | .benchResume .. | .indConfig .. | .lnkStatus .. | .lnkConfig .. | .lnkTrain ..
  | .lnkDomain .. | .lnkAlign .. | .mirStatus .. | .mirSwitch .. | .mirResync .. | .mirConfig ..
  | .thmStatus .. | .thmConfig .. | .hkaConvert .. | .hkaConfig .. | .railStatus .. | .imgStatus ..
  | .imgStage .. | .imgWrite .. | .imgSelect .. | .imgReboot .. | .imgRebootReset .. | .imgLoadStandby ..
  | .imgHandover .. | .rayHalt .. | .rayMerid .. | .rayBarr .. | .rayAt .. | .rayWait .. | .rayPlay ..
  | .rayPlays .. | .raySetf .. | .rayVz .. | .rayAcq .. | .rayMark .. | .rayLoop .. | .rayEndl ..
  | .rayJump .. | .rayBr .. | .rayDecide .. | .raySetg .. | .rayAddg .. | .decideResolve ..
  | .decideDeadline .. | .rpHalt .. | .rpNop .. | .rpRep .. | .rpJmp .. | .rpDjnz .. | .rpLdc .. | .rpSetp ..
  | .rpCfgp .. | .rpClr .. | .rpClrf .. | .rpMac .. | .rpCmac .. | .rpLda .. | .rpAdda .. | .rpAddac ..
  | .rpShra .. | .rpSt .. | .rpStc .. | .rpMovw .. | .rpSgn .. | .rpWaitr .. | .rpEmit .. | .mbDoorbell ..
  | .commandAccept .. | .heldCompletionPost .. | .mbEnable .. | .mbDisable .. | .mbCringTailWrite ..
  | .mbCringConfigWrite .. | .dmaTailWrite .. | .dmaStart .. | .dmaConfigWrite .. | .dmaDescriptorDone ..
  | .evtPendClear .. | .evtLogEnable .. | .evtLogDisable .. | .evtLogTailWrite .. | .evtLogConfigWrite ..
  | .msixUnmask .. | .hifErrClear .. | .pcieLinkDown .. | .functionLevelReset .. | .pcieConventionalReset ..
  | .powerOnReset .. | .resetN .. | .coreReset .. | .dieResetRelease .. | .imageLoadComplete ..
  | .firmwareReady .. | .referenceLost .. | .referenceRestored .. | .refPullIn .. | .pllLock ..
  | .pllUnlock .. | .orfWarmSet .. | .ovenWarmLost .. | .ovenFault .. | .stateInstant .. | .epochTimerClose ..
  | .shotOpen .. | .syncWindowClose .. | .latLoadTimeout .. | .itemArrival .. | .itemRelease ..
  | .jumpCommitCheck .. | .frameTokenApply .. | .streamBlockRefill .. | .envCopyEnd .. | .deadlockDetect ..
  | .ringEntryWrite .. | .ringReadPoll .. | .triggerFire .. | .captureEnd .. | .unitRearm ..
  | .groupArmMessage .. | .groupArmAt .. | .fireMessage .. | .groupFireDecide .. | .sliceStart ..
  | .trimRecompute .. | .calRunEnd .. | .calStarved .. | .calTimedCommit .. | .commitEnd ..
  | .timWindowOpen .. | .timWindowClose .. | .wtPulseTarget .. | .wtPulseTrailingEdge .. | .markerStrobe ..
  | .plugSenseTest .. | .openLoadDetect .. | .holdPressed .. | .holdReleased .. | .linkFrameTransmit ..
  | .linkFrameRelease .. | .linkReceiverDetect .. | .linkBitLock .. | .linkMarkerLock ..
  | .capabilityExchange .. | .linkStageTimeout .. | .linkRetry .. | .segmentReceive .. | .segmentResend ..
  | .ctleStep .. | .linkIdleExit .. | .alignTrack .. | .epochApply .. | .heartbeatSend ..
  | .heartbeatReceive .. | .heartbeatTimeout .. | .heartbeatPathRestored .. | .coreResign ..
  | .switchoverGapEnd .. | .deposedLatchSeen .. | .resyncComplete .. | .shadowMismatch .. | .bistError ..
  | .bandFall .. | .thermalWarningClear .. | .throttleRelease .. | .mr4Poll .. | .hkaSample ..
  | .hardwareShutdown .. | .thermalRestart .. | .ledgerCheck .. | .logRecordWrite .. | .pullInComplete ..
  | .latticeSlewEnd .. | .slotWriteEnd .. | .timLatticeStart .. | .laneMarkersMissing ..
  | .smbusTransaction .. | .tapInstructionUpdate .. | .faultHalt .. => true

end Sys2Proof
end

