-- ==== Sys2Proof/Certificates/Slice0/Obligations.lean ====
section
/-! DEFINITION. The statements put to the provers: what the machine, its command queue and each family of commands do.
A statement that covers several commands has one clause for each, headed by the command's row. In a clause about a mailbox
command, `c` is the command the mailbox begins, which passes every check of R83; the next state is that of the command's own
effect, and whatever the effect does not name stays as it was. -/

section

open Sys2Proof Sys2Proof.Machine

/-! The machine. -/

/-- A step takes the command at the front of the queue and runs it on the state that holds the rest of the queue. -/
def Obligations.StepRunsTheFrontCommand : Prop :=
  ∀ (c : Instr) (rest : List Instr) (s : State), step { s with pending := c :: rest } = exec c { s with pending := rest }

/-- On an empty queue a step is one lattice tick, the model's choice (log entry 1): lattice time and the raw counter count, modulo
2^64, once the PLL has locked (R123, R408); while the die is shut down its always-on logic counts 1 ns (R503); and nothing else changes. -/
def Obligations.EmptyQueueStepIsOneTick : Prop :=
  ∀ (s : State), s.pending = [] →
    let time : Time := if s.dev.time.counting then
        { s.dev.time with lat := (s.dev.time.lat + 1) % 2 ^ 64, raw := (s.dev.time.raw + 1) % 2 ^ 64 } else s.dev.time
    let thermal : Thermal := if s.dev.thermal.isShut then { s.dev.thermal with shutNs := s.dev.thermal.shutNs + 1 } else s.dev.thermal
    step s = .next { s with dev := { s.dev with time := time, thermal := thermal } }

/-- Every command is answered with a next state: no command stops the block, changes the fuses, or touches the queue behind it. And every
row that begins a mailbox command (R64, R69, R83: all that `commandOf` names, from SYS_HELLO over ACQ_STATUS, ACQ_RING_CONFIG,
ACQ_RING_REBASE, ACQ_UNIT_CONFIG, ACQ_MASK, ACQ_ARM, ACQ_STOP, ACQ_GROUP_ARM and the calibration, TIM, marker, bench, link, mirror, thermal
and housekeeping commands to IMG_HANDOVER) completes with the command's own effect where the command passes every check of R83. -/
def Obligations.EveryCommandIsAnswered : Prop :=
  (∀ (c : Instr) (s : State), ∃ t, exec c s = .next t ∧ t.pending = s.pending ∧ t.fuse = s.fuse) ∧
  (∀ (i : Instr) (sp : CmdSpec) (mb : Fin 32) (h : HostSide) (s : State) (c : Cmd),
     commandOf i = some (sp, mb, h) → s.begins sp mb h = some c → exec i s = .next (s.during h c fun x d => sp.act x c d))

/-- Whatever command stands in front, a step keeps DDR5 and host memory in canonical form and leaves no memory write waiting. -/
def Obligations.EveryStepKeepsTheMemoriesCanonical : Prop :=
  ∀ (s t : State), s.settled → step s = .next t → t.settled

/-- The state after a die reset meets both invariants: it is settled, with both memories listing nothing, and the ledger of every
DMA ring stands, its indices and counters being 0. -/
def Obligations.ResetStateMeetsTheInvariants : Prop := State.reset.settled ∧ ∀ n : Fin 8, rowHolds State.reset.dev 2 n = true

/-- After a die reset, and before its release, HIF_STATE reads 0 (boot ROM, no lock, oven cold), every mailbox is disabled with no
slot in use, every DMA ring is stopped, no event is pending or enabled, every MSI-X entry is masked, lattice time stands at 0, no
port gives output, and no program runs. The register values are those the spec gives for reset; that the state is the reset one of a part
with an oven, whose oven is cold, is the model's choice (log entry 4). -/
def Obligations.ResetRegisters : Prop :=
  hifStateWord State.reset.dev.hif = 0 ∧
  (∀ m : Fin 32, (State.reset.dev.mb m).enable = false ∧ inUse (State.reset.dev.mb m) = 0) ∧
  (∀ n : Fin 8, (State.reset.dev.ring n).stat = .stopped) ∧
  State.reset.dev.evt.pend = 0 ∧ State.reset.dev.evt.en = 0 ∧ State.reset.dev.evt.enable = false ∧
  (∀ v : Fin 256, msixWord State.reset.dev v 3 = 1) ∧
  State.reset.dev.time.lat = 0 ∧ State.reset.dev.time.counting = false ∧
  (∀ p : Fin 97, portCond (State.reset.dev.port p) = 0) ∧
  running State.reset.dev = false ∧ State.reset.pending = []

/-- A command that fails a check of R83 only reports: its row answers a next state in which the command is gone from the list of
unfinished commands, DDR5 is as it was, and nothing of the device differs but mailboxes, events, ledgers and that list. So too in the rows of
SYS_NOP, which begins commands of undefined opcodes as well, and of SYS_ABORT, of which one accepted before, and waiting for the link, or
the oldest doorbell's begins. An undefined opcode at an interface level that its mailbox takes fails with 0x0010 and DETAIL 0 (check 2). -/
def Obligations.FailedCheckOnlyReports : Prop :=
  ∀ (i : Instr) (sp : CmdSpec) (mb : Fin 32) (h : HostSide) (s : State) (c0 : Cmd) (f : Fail),
    commandOf i = some (sp, mb, h) → s.dev.wr = [] →
    let reports (j : Instr) (d : Dev) : Prop :=
      ∃ t, exec j s = .next t ∧ OnlyReports d t.dev ∧ t.ddr = s.ddr ∧ ∀ q ∈ t.dev.core.cmds, q.seq ≠ c0.seq
    let d0 := (s.sync h).dev
    (nextCmd d0 mb = some c0 → c0.op = sp.op → firstFault sp c0 (s.sync h).ctx d0 = some f → reports i d0) ∧
    (nextCmd d0 mb = some c0 → c0.op = 0x0100 ∨ definedOp c0.op = false → firstFault sysNopSpec c0 (s.sync h).ctx d0 = some f →
      reports (.sysNop mb h) d0) ∧
    (definedOp c0.op = false → s.dev.hif.ilLow ≤ c0.il → c0.il ≤ s.dev.hif.ilHigh →
      (s.dev.pin c0.mb).level = 0 ∨ c0.il = (s.dev.pin c0.mb).level →
      firstFault sysNopSpec c0 (s.sync h).ctx d0 = some { status := 0x0010, detail := 0 }) ∧
    (firmwareRuns s.dev = true → (c0.bulk = true → s.dev.hif.linkUp = true) →
      (s.dev.core.cmds.find? (fun q => q.mb = mb.val && q.op = opAbort && !q.begun) = some c0 →
        firstFault sysAbortSpec c0 (s.sync h).ctx d0 = some f → reports (.sysAbort mb h) d0) ∧
      (∀ slot rest, s.dev.core.cmds.find? (fun q => q.mb = mb.val && q.op = opAbort && !q.begun) = none →
        s.dev.bells = (mb.val, slot) :: rest → fld (slotBytes s.dev mb slot) 0 2 = opAbort →
        lastAccepted (acceptBell (mb.val, slot) d0) = some c0 →
        firstFault sysAbortSpec c0 (s.sync h).ctx (acceptBell (mb.val, slot) d0) = some f →
        reports (.sysAbort mb h) (acceptBell (mb.val, slot) d0)))

/-- SYS_NOP (R90) with its link up, room in its ring and nothing held: the 32 bytes of its entry (R71), STATUS 0x0000, stand in
host memory at BASE + 32 × (HEAD mod 2^LOG2); HEAD and DONE count on by one and the slot is free (R72). With no result buffer and
the mailbox's source disabled, every other byte of host memory reads as before, and so does DDR5. The fields of an entry stand where R71
puts them: TAG, OPCODE, STATUS, SLOT, FLAGS, DETAIL, RESULT_LEN, ACCEPT_SEQ, IMM and lattice time, for every value of each. -/
def Obligations.CompletionEntryReachesItsRing : Prop :=
  (∀ (mb : Fin 32) (h : HostSide) (s : State) (c : Cmd), s.settled → s.begins sysNopSpec mb h = some c →
     Store.wf {} s.dev.mbs = true → c.noSlot = false → c.raddr = 0 → canPost s.dev mb = true → (s.dev.mb mb).held = [] →
     s.dev.evt.en.getLsbD mb = false →
     let b := s.dev.mb mb
     let slotAt := b.base.toNat + 32 * (b.head.toNat % 2 ^ b.log2.toNat)
     ∃ t, exec (.sysNop mb h) s = .next t ∧
       Mem.read t.host slotAt 32 = entryBytes s.dev.hif.core (c.completion s.dev 0x0000 0xFFFF 0 [] false) 0x0000 0 ∧
       (∀ a, (a < slotAt ∨ slotAt + 32 ≤ a) → Mem.byte t.host a = Mem.byte (s.sync h).host a) ∧ t.ddr = s.ddr ∧
       t.dev.mb mb = { b with head := b.head + 1, done := b.done + 1, busy := b.busy.erase c.slot } ∧
       (∀ n, n ≠ mb.val → t.dev.mb n = s.dev.mb n)) ∧
  (∀ (core : Bool) (k : Completion) (status len : Nat),
     let b := entryBytes core k status len
     b.length = 32 ∧ fld b 0 4 = k.tag % 2 ^ 32 ∧ fld b 4 2 = k.op % 2 ^ 16 ∧ fld b 6 2 = status % 2 ^ 16 ∧ fld b 8 1 = k.slot % 2 ^ 8 ∧
     fld b 9 1 = flag k.staged 0 + flag core 1 ∧ fld b 10 2 = k.detail % 2 ^ 16 ∧ fld b 12 4 = len % 2 ^ 32 ∧
     fld b 16 4 = k.seq % 2 ^ 32 ∧ fld b 20 4 = k.imm % 2 ^ 32 ∧ fld b 24 8 = k.lt % 2 ^ 64)

/-! System commands and the mailbox protocol (03). -/

/-- The system commands answer as R90 to R92 and R530 to R532 say: SYS_NOP ends at once with 0x0000, SYS_HELLO pins its mailbox to
the highest common level and returns it in IMM, SYS_IDENT, SYS_LEDGER, SYS_SHOTS and SYS_RECONCILE return their results, and
SYS_RECONCILE with no report of the KIND asked for completes with 0x0002. -/
def Obligations.SystemCommandsAnswer : Prop :=
  ∀ (mb : Fin 32) (h : HostSide) (s : State) (c : Cmd),
    (s.begins sysNopSpec mb h = some c → exec (.sysNop mb h) s = .next (s.during h c fun _ d => okCmd c 0x0000 0 [] true d)) ∧
    (s.begins sysHelloSpec mb h = some c → ∀ l, commonLevel s.dev (c.arg 0 1) (c.arg 1 1) = some l →
      exec (.sysHello mb h) s = .next (s.during h c fun _ d => okCmd c 0x0000 l [] false
        { d with core := { d.core with pins := Store.set {} d.core.pins c.mb { level := l, hostId := c.arg 4 8 } } })) ∧
    (s.begins sysIdentSpec mb h = some c →
      exec (.sysIdent mb h) s = .next (s.during h c fun x d => replyCmd c 0x0000 (identBytes x c d) d)) ∧
    (s.begins sysLedgerSpec mb h = some c →
      exec (.sysLedger mb h) s = .next (s.during h c fun _ d => replyCmd c 0x0000 (ledgerBytes d) d)) ∧
    (s.begins sysShotsSpec mb h = some c →
      exec (.sysShots mb h) s = .next (s.during h c fun _ d =>
        replyCmd c 0x0000 ((List.range (c.arg 6 2)).flatMap fun i => shotBytes d (c.arg 0 6 + i)) d)) ∧
    (s.begins sysReconcileSpec mb h = some c →
      let rs := (s.dev.ledger.reports.filter (fun r => c.arg 0 1 = 0 || r.kind = c.arg 0 1)).take (c.arg 2 2)
      exec (.sysReconcile mb h) s = .next (s.during h c fun _ d =>
        if rs.isEmpty then okCmd c 0x0002 0 [] true d else replyCmd c 0x0000 (rs.flatMap reportBytes) d))

/-- SYS_ABORT (R93) at its acceptance, which R77 makes its beginning: every command of the named mailbox that has not begun (all, or
those of the TAG) ends with 0x001C, and the abort completes with their number in IMM, its entry to go out after theirs, or with 0x0002
where there is none. The row takes the oldest doorbell where it is an abort, or an abort accepted earlier that waited for the link. -/
def Obligations.AbortEndsWhatHasNotBegun : Prop :=
  ∀ (mb : Fin 32) (h : HostSide) (s : State) (c0 c : Cmd),
    let effect : Cmd → Dev → Dev := fun c d =>
      let qs := d.core.cmds.filter fun q => q.mb = c.arg 0 1 && !q.begun && q.seq ≠ c.seq && (c.arg 1 1 = 1 || q.tag = c.arg 4 4)
      if qs.isEmpty then okCmd c 0x0002 0 [] true d
      else finishWith c { c.completion d 0x0000 0xFFFF qs.length [] (followsEpochs d) with after := qs.map (·.seq) }
        (qs.foldl (fun d q => failCmd q { status := 0x1C } d) d)
    firmwareRuns s.dev = true → (c0.bulk = true → s.dev.hif.linkUp = true) →
    (s.dev.core.cmds.find? (fun q => q.mb = mb.val && q.op = opAbort && !q.begun) = some c0 →
      checked sysAbortSpec c0 (s.sync h).ctx (s.sync h).dev = some c →
      exec (.sysAbort mb h) s = .next (s.during h c fun _ d => effect c d)) ∧
    (∀ slot rest, s.dev.core.cmds.find? (fun q => q.mb = mb.val && q.op = opAbort && !q.begun) = none →
      s.dev.bells = (mb.val, slot) :: rest → fld (slotBytes s.dev mb slot) 0 2 = opAbort →
      lastAccepted (acceptBell (mb.val, slot) (s.sync h).dev) = some c0 →
      checked sysAbortSpec c0 (s.sync h).ctx (acceptBell (mb.val, slot) (s.sync h).dev) = some c →
      exec (.sysAbort mb h) s = .next ((s.sync h).on fun _ d => journal c.seq (effect c) (putCmd c (acceptBell (mb.val, slot) d))))

/-- The way of a command into the device (R61 to R64). COMMAND_SLOT_WRITE: a legal write to a slot not in use changes exactly the bytes
written, and a write to a slot in use is discarded and is an access error. MB_DOORBELL: on an enabled mailbox of a ready or restricted
device a doorbell for a free slot posts it: the slot is in use and waits, behind earlier doorbells, to be accepted; on a disabled mailbox,
in another device state or for a slot in use it posts nothing and is an access error. COMMAND_ACCEPT: while firmware runs, the oldest
doorbelled command, here no SYS_ABORT, joins the unfinished commands behind all others with the slot's 128 bytes and the next acceptance
number; MB_POSTED counts on by one. Nothing else changes. -/
def Obligations.SlotsAreWrittenPostedAndAccepted : Prop :=
  (∀ (mb : Fin 32) (v : BitVec 32) (s : State), s.dev.wr = [] →
     let b := s.dev.mb mb
     let slot := v.toNat % 16
     let up := s.dev.hif.state = .ready ∨ s.dev.hif.state = .restricted
     (b.enable = true → up → slot ∉ b.busy →
       exec (.mbDoorbell mb v) s = .next { s with dev := { s.dev with
         mbs := Store.set {} s.dev.mbs mb { b with busy := b.busy ++ [slot] }, bells := s.dev.bells ++ [(mb.val, slot)] } }) ∧
     (b.enable = false ∨ ¬up ∨ slot ∈ b.busy →
       exec (.mbDoorbell mb v) s = .next (s.on fun _ d => accessError (0x800 + 0x40 * mb) d))) ∧
  (∀ (h : HostSide) (s : State) (m slot : Nat) (rest : List (Nat × Nat)),
     s.dev.wr = [] → firmwareRuns s.dev = true → s.dev.bells = (m, slot) :: rest → fld (slotBytes s.dev m slot) 0 2 ≠ opAbort →
     let c : Cmd := { mb := m, slot := slot, seq := s.dev.core.nextSeq, epoch := s.dev.mirror.epochs, bytes := slotBytes s.dev m slot }
     exec (.commandAccept h) s = .next { s.sync h with dev := { (s.sync h).dev with
       mbs := Store.set {} s.dev.mbs m { s.dev.mb m with posted := (s.dev.mb m).posted + 1 }, bells := rest,
       core := { s.dev.core with cmds := s.dev.core.cmds ++ [c], nextSeq := (s.dev.core.nextSeq + 1) % 2 ^ 32 } } }) ∧
  (∀ (mb : Fin 32) (slot : Fin 16) (off : Nat) (bytes : List Byte) (s : State),
     s.dev.wr = [] → Store.wf 0 s.dev.slots = true → slotWriteOk off bytes.length = true →
     let a := 2048 * mb.val + 128 * slot.val + off
     (slot.val ∉ (s.dev.mb mb).busy → ∃ slots, exec (.commandSlotWrite mb slot off bytes) s =
         .next { s with dev := { s.dev with slots := slots } } ∧
       (∀ i, (hi : i < bytes.length) → Store.get 0 slots (a + i) = bytes[i]) ∧
       (∀ j, j < a ∨ a + bytes.length ≤ j → Store.get 0 slots j = Store.get 0 s.dev.slots j)) ∧
     (slot.val ∈ (s.dev.mb mb).busy →
       exec (.commandSlotWrite mb slot off bytes) s = .next (s.on fun _ d => accessError (0x10000 + a) d)))

/-- MB_ENABLE, MB_DISABLE, MB_CRING_TAIL_WRITE, MB_CRING_CONFIG_WRITE and HELD_COMPLETION_POST (R73 to R75) on a mailbox that admits them:
enabling empties the ring and clears the pin, disabling ends each doorbelled command not yet accepted with 0x001D, a TAIL not beyond HEAD
and, on a disabled idle mailbox, any TAIL and the base and size are taken, and the oldest held completion is posted once it can be. A write
that R73 or R74 forbids is ignored: the mailbox keeps its ring and reports an access error at the register's offset. That a TAIL behind the
old one counts as beyond HEAD, and that a mailbox disabled while no firmware runs ends its commands at once, are the model's choices (log
entries 96, 97). -/
def Obligations.MailboxRegisters : Prop :=
  ∀ (mb : Fin 32) (v : BitVec 32) (w : BitVec 64) (g : CfgWrite) (k : Completion) (s : State),
    let b := s.dev.mb mb
    (b.busy = [] → 4 ≤ b.log2.toNat → b.log2.toNat ≤ 12 → s.dev.wr = [] →
      exec (.mbEnable mb) s = .next { s with dev := { s.dev with
        mbs := Store.set {} s.dev.mbs mb { b with enable := true, head := b.tail },
        core := { s.dev.core with pins := Store.set {} s.dev.core.pins mb { s.dev.pin mb with level := 0 } } } }) ∧
    (exec (.mbDisable mb) s = .next (s.on fun _ d =>
      (d.bells.filter (fun q => q.1 = mb.val)).foldl (fun d q => acceptDisabled q d) (d.setMb mb { b with enable := false }))) ∧
    ((v.setWidth 16 - b.tail).toNat ≤ (b.head - b.tail).toNat → s.dev.wr = [] →
      exec (.mbCringTailWrite mb v) s = .next { s with dev := s.dev.setMb mb { b with tail := v.setWidth 16 } }) ∧
    (b.enable = false → b.busy = [] → s.dev.wr = [] →
      exec (.mbCringConfigWrite mb (.size v)) s = .next { s with dev := s.dev.setMb mb { b with log2 := v.setWidth 5 } } ∧
      exec (.mbCringConfigWrite mb (.base w)) s = .next { s with dev :=
        (keepLow (0x808 + 0x40 * mb) (w.setWidth 32) s.dev).setMb mb { b with base := w &&& 0xFFFFFFFFFFFFF000 } } ∧
      exec (.mbCringConfigWrite mb (.baseLow v)) s = .next { s with dev := keepLow (0x808 + 0x40 * mb) v s.dev } ∧
      exec (.mbCringConfigWrite mb (.baseHigh v)) s = .next { s with dev := s.dev.setMb mb { b with
        base := BitVec.ofNat 64 (2 ^ 32 * v.toNat + (Store.get 0 s.dev.hif.lowHalf (0x808 + 0x40 * mb)).toNat) } }) ∧
    (b.held.find? (fun q => !q.waitsEpoch) = some k → readyToPost s.dev k = true → canPost s.dev mb = true →
      exec (.heldCompletionPost mb) s = .next (s.on fun _ d => postNow mb k (d.setMb mb { b with held := b.held.erase k }))) ∧
    (b.enable = false → b.busy = [] → s.dev.wr = [] →
      exec (.mbCringTailWrite mb v) s = .next { s with dev := s.dev.setMb mb { b with tail := v.setWidth 16 } }) ∧
    (b.enable = true ∨ b.busy ≠ [] → exec (.mbCringConfigWrite mb g) s =
      .next (s.on fun _ d => accessError (cfgOff (0x808 + 0x40 * mb) (0x810 + 0x40 * mb) g) d)) ∧
    (b.enable = true ∨ b.busy ≠ [] → (b.head - b.tail).toNat < (v.setWidth 16 - b.tail).toNat →
      exec (.mbCringTailWrite mb v) s = .next (s.on fun _ d => accessError (0x818 + 0x40 * mb) d)) ∧
    (b.busy ≠ [] ∨ b.log2.toNat < 4 ∨ 12 < b.log2.toNat → exec (.mbEnable mb) s = .next (s.on fun _ d => accessError (0x81C + 0x40 * mb) d))

/-! The host interface (02): DMA rings, events, registers and BAR2. -/

/-- The DMA ring registers (R48, R51 to R53): START runs a stopped ring whose LOG2 is 4 to 16 and sets configuration error, with the ring's
source, on any other LOG2; STOP on a running ring makes STATE 2, or 0 where the ring owns nothing, keeps the descriptor in progress and how
far it got, and on a ring in error makes STATE 0; a TAIL at most 2^LOG2 beyond HEAD is taken and any other refused; base and size are taken
while the ring is stopped or in error and refused while it runs. A STOP on a ring that is stopped (R51), or stopping already, has no effect.
Nothing else of the machine changes where the write is taken. That a ring that runs or stops ignores START is the model's choice (log entry
130), and so is what STOP finds in progress, as its row says, and how long STATE 2 lasts (log entry 56). -/
def Obligations.DmaRegistersTakeTheirWrites : Prop :=
  ∀ (n : Fin 8) (v : BitVec 32) (w : BitVec 64) (g : CfgWrite) (h : HostSide) (moved : Nat) (s : State), s.dev.wr = [] →
    let r := s.dev.ring n
    (r.stat = .stopped ∨ r.stat = .configError → 4 ≤ r.log2.toNat → r.log2.toNat ≤ 16 →
      exec (.dmaStart n) s = .next { s with dev := s.dev.setRing n { r with stat := .running } }) ∧
    (r.stat = .stopped ∨ r.stat = .configError → r.log2.toNat < 4 ∨ 16 < r.log2.toNat →
      exec (.dmaStart n) s = .next (s.on fun _ d => raiseQuiet (32 + n) (d.setRing n { r with stat := .configError }))) ∧
    (r.stat = .running ∨ r.stat = .stopping → exec (.dmaStart n) s = .next s) ∧
    (r.stat = .running → Store.wf {} s.dev.dma = true →
      ∃ t, exec (.dmaStop n h moved) s = .next t ∧ t = { s.sync h with dev := { (s.sync h).dev with dma := t.dev.dma } } ∧
        t.dev.ring n = (if r.tail = r.head then { r with stat := .stopped, cut := none }
          else { r with stat := .stopping, cut := if inProgress n (s.sync h).ctx (s.sync h).dev then some moved else none }) ∧
        ∀ m, m ≠ n.val → t.dev.ring m = s.dev.ring m) ∧
    (r.stat = .configError →
      exec (.dmaStop n h moved) s = .next { s.sync h with dev := (s.sync h).dev.setRing n { r with stat := .stopped } }) ∧
    (r.stat = .stopped ∨ r.stat = .stopping → exec (.dmaStop n h moved) s = .next (s.sync h)) ∧
    ((v - r.head).toNat ≤ 2 ^ r.log2.toNat →
      exec (.dmaTailWrite n v) s = .next { s with dev := s.dev.setRing n { r with tail := v, owns := r.owns + (v - r.tail) } }) ∧
    (2 ^ r.log2.toNat < (v - r.head).toNat →
      exec (.dmaTailWrite n v) s = .next (s.on fun _ d => accessError (0x40C + 0x40 * n) d)) ∧
    (r.stat = .stopped ∨ r.stat = .configError →
      exec (.dmaConfigWrite n (.size v)) s = .next { s with dev := s.dev.setRing n { r with log2 := v.setWidth 5 } } ∧
      exec (.dmaConfigWrite n (.baseLow v)) s = .next { s with dev := keepLow (0x400 + 0x40 * n) v s.dev } ∧
      exec (.dmaConfigWrite n (.base w)) s = .next { s with dev :=
        (keepLow (0x400 + 0x40 * n) (w.setWidth 32) s.dev).setRing n { r with base := w &&& 0xFFFFFFFFFFFFF000 } } ∧
      exec (.dmaConfigWrite n (.baseHigh v)) s = .next { s with dev := s.dev.setRing n { r with
        base := BitVec.ofNat 64 (2 ^ 32 * v.toNat + (Store.get 0 s.dev.hif.lowHalf (0x400 + 0x40 * n)).toNat) } }) ∧
    (r.stat = .running ∨ r.stat = .stopping →
      exec (.dmaConfigWrite n g) s = .next (s.on fun _ d => accessError (cfgOff (0x400 + 0x40 * n) (0x408 + 0x40 * n) g) d))

/-- DMA_DESCRIPTOR_DONE (R47, R49) on a running ring that owns its HEAD descriptor, valid and free of every fault of R50. On a ring that
carries host memory to DDR5 (rings 0 to 3) DDR5 at the device address holds what host memory held, and every other byte of DDR5 is as
before; on one that carries DDR5 to host memory (4 to 7) host memory holds what DDR5 held, but where the descriptor's own bytes 20 to 27
stand, and all of DDR5 is as before. HEAD and DONE count on by one, and bytes 20 to 27 of the descriptor are written back last, OWN
cleared, status 0 and the length moved. With the ring's source disabled every other byte of host memory is as before. A descriptor of LENGTH
0 (status 0x01), or one that fails with 0x11 to 0x15 (R50), counts as done or failed, with its status and the bytes moved before the fault
written back; the ring goes on, and no byte beyond those moved changes. On a ring that is stopping, a descriptor that had not begun ends with
status 0x10 and nothing moved, and the ring is stopped once it owns none (R51). In each case the ring's source is pending where IRQ is 1. -/
def Obligations.DescriptorMovesItsBytes : Prop :=
  (∀ (n : Fin 8) (h : HostSide) (s : State), s.settled → Store.wf {} s.dev.dma = true → n.val < 4 →
     let r := s.dev.ring n
     let b := headDesc n (s.sync h).ctx (s.sync h).dev
     r.stat = .running → r.tail ≠ r.head → s.dev.hif.linkUp = true → bitOf (fld b 22 1) 0 = true →
     descOutcome false (s.sync h).dev b = (0x00, fld b 16 4) → s.dev.evt.en.getLsbD (32 + n.val) = false →
     ∃ t, exec (.dmaDescriptorDone n h) s = .next t ∧
       Mem.read t.ddr (fld b 8 8) (fld b 16 4) = Mem.read (s.sync h).host (fld b 0 8) (fld b 16 4) ∧
       (∀ a, a < fld b 8 8 ∨ fld b 8 8 + fld b 16 4 ≤ a → Mem.byte t.ddr a = Mem.byte s.ddr a) ∧
       t.dev.ring n = { r with head := r.head + 1, owns := r.owns - 1, done := r.done + 1 } ∧
       (∀ m, m ≠ n.val → t.dev.ring m = s.dev.ring m) ∧ (bitOf (fld b 22 1) 1 = true → t.dev.evt.pend.getLsbD (32 + n.val) = true) ∧
       Mem.read t.host (descAddr r + 20) 8 = le 2 (fld b 20 2) ++ le 1 (fld b 22 1 - 1) ++ le 1 0 ++ le 4 (fld b 16 4) ∧
       (∀ a, a < descAddr r + 20 ∨ descAddr r + 28 ≤ a → Mem.byte t.host a = Mem.byte (s.sync h).host a)) ∧
  (∀ (n : Fin 8) (h : HostSide) (s : State), s.settled → Store.wf {} s.dev.dma = true → 4 ≤ n.val →
     let r := s.dev.ring n
     let b := headDesc n (s.sync h).ctx (s.sync h).dev
     let back (a : Nat) : Prop := descAddr r + 20 ≤ a ∧ a < descAddr r + 28
     r.stat = .running → r.tail ≠ r.head → s.dev.hif.linkUp = true → bitOf (fld b 22 1) 0 = true →
     descOutcome true (s.sync h).dev b = (0x00, fld b 16 4) → s.dev.evt.en.getLsbD (32 + n.val) = false →
     ∃ t, exec (.dmaDescriptorDone n h) s = .next t ∧ t.ddr = s.ddr ∧
       (∀ i, i < fld b 16 4 → ¬back (fld b 0 8 + i) → Mem.byte t.host (fld b 0 8 + i) = Mem.byte s.ddr (fld b 8 8 + i)) ∧
       (∀ a, (a < fld b 0 8 ∨ fld b 0 8 + fld b 16 4 ≤ a) → ¬back a → Mem.byte t.host a = Mem.byte (s.sync h).host a) ∧
       Mem.read t.host (descAddr r + 20) 8 = le 2 (fld b 20 2) ++ le 1 (fld b 22 1 - 1) ++ le 1 0 ++ le 4 (fld b 16 4) ∧
       t.dev.ring n = { r with head := r.head + 1, owns := r.owns - 1, done := r.done + 1 } ∧
       (∀ m, m ≠ n.val → t.dev.ring m = s.dev.ring m) ∧ (bitOf (fld b 22 1) 1 = true → t.dev.evt.pend.getLsbD (32 + n.val) = true)) ∧
  (∀ (n : Fin 8) (h : HostSide) (s : State) (status len : Nat), s.settled → Store.wf {} s.dev.dma = true →
     let r := s.dev.ring n
     let b := headDesc n (s.sync h).ctx (s.sync h).dev
     let toHost := decide (4 ≤ n.val)
     let back (a : Nat) : Prop := descAddr r + 20 ≤ a ∧ a < descAddr r + 28
     let ok := decide (status = 0x01)
     r.stat = .running → r.tail ≠ r.head → s.dev.hif.linkUp = true → bitOf (fld b 22 1) 0 = true →
     descOutcome toHost (s.sync h).dev b = (status, len) → status = 0x01 ∨ 0x11 ≤ status → s.dev.evt.en = 0 →
     ∃ t, exec (.dmaDescriptorDone n h) s = .next t ∧
       t.dev.ring n = { r with head := r.head + 1, owns := r.owns - 1, done := if ok then r.done + 1 else r.done,
                               fail := if ok then r.fail else r.fail + 1 } ∧
       (∀ m, m ≠ n.val → t.dev.ring m = s.dev.ring m) ∧ (bitOf (fld b 22 1) 1 = true → t.dev.evt.pend.getLsbD (32 + n.val) = true) ∧
       Mem.read t.host (descAddr r + 20) 8 = le 2 (fld b 20 2) ++ le 1 (fld b 22 1 - 1) ++ le 1 status ++ le 4 len ∧
       (toHost = false → Mem.read t.ddr (fld b 8 8) len = Mem.read (s.sync h).host (fld b 0 8) len ∧
         (∀ a, a < fld b 8 8 ∨ fld b 8 8 + len ≤ a → Mem.byte t.ddr a = Mem.byte s.ddr a) ∧
         ∀ a, ¬back a → Mem.byte t.host a = Mem.byte (s.sync h).host a) ∧
       (toHost = true → t.ddr = s.ddr ∧
         (∀ i, i < len → ¬back (fld b 0 8 + i) → Mem.byte t.host (fld b 0 8 + i) = Mem.byte s.ddr (fld b 8 8 + i)) ∧
         ∀ a, (a < fld b 0 8 ∨ fld b 0 8 + len ≤ a) → ¬back a → Mem.byte t.host a = Mem.byte (s.sync h).host a)) ∧
  (∀ (n : Fin 8) (h : HostSide) (s : State), s.settled → Store.wf {} s.dev.dma = true →
     let r := s.dev.ring n
     let b := headDesc n (s.sync h).ctx (s.sync h).dev
     r.stat = .stopping → r.cut = none → r.tail ≠ r.head → s.dev.hif.linkUp = true → s.dev.evt.en.getLsbD (32 + n.val) = false →
     ∃ t, exec (.dmaDescriptorDone n h) s = .next t ∧ t.ddr = s.ddr ∧
       t.dev.ring n = { r with head := r.head + 1, owns := r.owns - 1, fail := r.fail + 1,
                               stat := if r.tail = r.head + 1 then .stopped else .stopping } ∧
       (∀ m, m ≠ n.val → t.dev.ring m = s.dev.ring m) ∧ (bitOf (fld b 22 1) 1 = true → t.dev.evt.pend.getLsbD (32 + n.val) = true) ∧
       Mem.read t.host (descAddr r + 20) 8 = le 2 (fld b 20 2) ++ le 1 (fld b 22 1 - fld b 22 1 % 2) ++ le 1 0x10 ++ le 4 0 ∧
       (∀ a, a < descAddr r + 20 ∨ descAddr r + 28 ≤ a → Mem.byte t.host a = Mem.byte (s.sync h).host a))

/-- The ledger of every DMA ring, device-owned = TAIL − HEAD and HEAD = DONE + FAIL modulo 2^32 (R49, R525 row 2), is kept by each of
these rows: DMA_DESCRIPTOR_DONE, DMA_START, DMA_STOP (whatever it cuts or refuses), DMA_TAIL_WRITE, DMA_CONFIG_WRITE, REGISTER_WRITE at any
offset, FUNCTION_LEVEL_RESET, PCIE_CONVENTIONAL_RESET, and the die resets POWER_ON_RESET, RESET_N, IMG_REBOOT_RESET, HARDWARE_SHUTDOWN and
THERMAL_RESTART. -/
def Obligations.DmaLedgerIsKept : Prop :=
  ∀ (c : Instr) (s t : State), Store.wf {} s.dev.dma = true →
    (match c with
      | .dmaDescriptorDone .. | .dmaStart .. | .dmaStop .. | .dmaTailWrite .. | .dmaConfigWrite .. | .registerWrite .. | .functionLevelReset
      | .pcieConventionalReset | .powerOnReset .. | .resetN .. | .imgRebootReset | .hardwareShutdown .. | .thermalRestart => True
      | _ => False) →
    (∀ n : Fin 8, rowHolds s.dev 2 n = true) → exec c s = .next t → ∀ n : Fin 8, rowHolds t.dev 2 n = true

/-- EVT_PEND and HIF_ERR, the W1C registers (R16): where the host writes 1, a bit is set after the access exactly if the device sets it in
the same cycle; a bit written 0, and every bit of the other seven EVT_PEND registers, stay. Nothing else changes: that the bits set in the
same cycle are an operand of the row, and what raises them a row of its own before it, is the model's choice (log entry 27). -/
def Obligations.WriteOneClearsABitNotJustSet : Prop :=
  ∀ (k : Fin 8) (mask setNow : BitVec 32) (s : State), s.dev.wr = [] →
    (∃ p, exec (.evtPendClear k mask setNow) s = .next { s with dev := { s.dev with evt := { s.dev.evt with pend := p } } } ∧
      ∀ i, i < 256 → p.getLsbD i =
        if i / 32 = k.val ∧ mask.getLsbD (i % 32) = true then setNow.getLsbD (i % 32) else s.dev.evt.pend.getLsbD i) ∧
    (∃ e, exec (.hifErrClear mask setNow) s = .next { s with dev := { s.dev with hif := { s.dev.hif with err := e } } } ∧
      ∀ i, i < 4 → e.getLsbD i = if mask.getLsbD i = true then setNow.getLsbD i else s.dev.hif.err.getLsbD i)

/-- The event log and its messages (R55, R57): ENABLE with LOG2 of 6 to 16 starts the ring empty, HEAD at TAIL; ENABLE 0 stops it; a
TAIL from HEAD − 2^LOG2 to HEAD is taken, and base and size while it is disabled; each of them refused by R57 changes nothing but the access
error. Unmasking an MSI-X entry sends the message held for it: with the link up, the pending-array bit of the vector clears and the entry's
data stands in host memory at the entry's address, and every other byte of host memory reads as before. -/
def Obligations.EventLogAndMsixRegisters : Prop :=
  (∀ (v : BitVec 32) (w : BitVec 64) (g : CfgWrite) (vec : Fin 256) (s : State), s.dev.wr = [] →
     let e := s.dev.evt
     (e.enable = false → 6 ≤ e.log2.toNat → e.log2.toNat ≤ 16 →
       exec .evtLogEnable s = .next { s with dev := { s.dev with evt := { e with enable := true, head := e.tail } } }) ∧
     (e.enable = false → e.log2.toNat < 6 ∨ 16 < e.log2.toNat → exec .evtLogEnable s = .next (s.on fun _ d => accessError 0x1054 d)) ∧
     exec .evtLogDisable s = .next { s with dev := { s.dev with evt := { e with enable := false } } } ∧
     (e.enable = false ∨ (e.head - v).toNat ≤ 2 ^ e.log2.toNat →
       exec (.evtLogTailWrite v) s = .next { s with dev := { s.dev with evt := { e with tail := v } } }) ∧
     (e.enable = true → 2 ^ e.log2.toNat < (e.head - v).toNat →
       exec (.evtLogTailWrite v) s = .next (s.on fun _ d => accessError 0x1050 d)) ∧
     (e.enable = false →
       exec (.evtLogConfigWrite (.size v)) s = .next { s with dev := { s.dev with evt := { e with log2 := v.setWidth 5 } } } ∧
       exec (.evtLogConfigWrite (.baseLow v)) s = .next { s with dev := keepLow 0x1040 v s.dev } ∧
       exec (.evtLogConfigWrite (.base w)) s = .next { s with dev :=
         { keepLow 0x1040 (w.setWidth 32) s.dev with evt := { e with base := w &&& 0xFFFFFFFFFFFFF000 } } } ∧
       exec (.evtLogConfigWrite (.baseHigh v)) s = .next { s with dev := { s.dev with evt := { e with
         base := BitVec.ofNat 64 (2 ^ 32 * v.toNat + (Store.get 0 s.dev.hif.lowHalf 0x1040).toNat) } } }) ∧
     (e.enable = true → exec (.evtLogConfigWrite g) s = .next (s.on fun _ d => accessError (cfgOff 0x1040 0x1048 g) d)) ∧
     (let m := Store.get ({} : Msix) e.msix vec
      e.pba.getLsbD vec = false →
       exec (.msixUnmask vec) s = .next { s with dev := { s.dev with evt := { e with msix := Store.set {} e.msix vec { m with mask := false } } } })) ∧
  (∀ (v : Fin 256) (s : State), s.settled → Store.wf {} s.dev.evt.msix = true → s.dev.evt.pba.getLsbD v = true → s.dev.hif.linkUp = true →
     let m := Store.get ({} : Msix) s.dev.evt.msix v
     ∃ t, exec (.msixUnmask v) s = .next t ∧ t.dev.evt.pba.getLsbD v = false ∧ t.ddr = s.ddr ∧
       Mem.read t.host m.addr.toNat 4 = le 4 m.data.toNat ∧
       (∀ a, a < m.addr.toNat ∨ m.addr.toNat + 4 ≤ a → Mem.byte t.host a = Mem.byte s.host a) ∧
       (∀ u : Fin 256, u ≠ v → t.dev.evt.pba.getLsbD u = s.dev.evt.pba.getLsbD u))

/-- LOG_RECORD_WRITE (R55, R57, R520, R521): in every device state that has a core, with the link up and room in the enabled log, the
32-byte record of the oldest raise, no later one of whose source and INSTANCE has an earlier LAT, stands at BASE + 32 × (HEAD mod 2^LOG2),
HEAD counts on by one, source 40 is pending and the raise is gone from the list. With the messages of source 40 and of the raise off, every
other byte of host memory reads as before. That a device neither ready nor restricted records its events too is the model's choice (log
entry 148). -/
def Obligations.LogRecordReachesItsRing : Prop :=
  ∀ (r : Raise) (rest : List Raise) (s : State), s.settled → s.dev.evt.raised = r :: rest →
    (∀ q ∈ rest, q.src = r.src → q.inst = r.inst → r.lat ≤ q.lat) → inGap s.dev = false → s.dev.mirror.failed = false →
    s.dev.hif.linkUp = true → logHasRoom s.dev.evt = true → r.msg = false → s.dev.evt.en.getLsbD 40 = false →
    let e := s.dev.evt
    let at_ := e.base.toNat + 32 * (e.head.toNat % 2 ^ e.log2.toNat)
    ∃ t, exec .logRecordWrite s = .next t ∧ Mem.read t.host at_ 32 = recordBytes s.dev r ∧
      (∀ a, a < at_ ∨ at_ + 32 ≤ a → Mem.byte t.host a = Mem.byte s.host a) ∧
      t.dev.evt = { e with head := e.head + 1, raised := rest, pend := e.pend ||| srcBit 40 }

/-- Reads of BAR0 (R17, R41): the low half of an RL register returns its low 32 bits and takes its high half into the shadow, so that a
read of the high half then returns the high half of the value the low half came from; an 8-byte read returns both and loads the shadow.
Each RL register has its own shadow: the high half of every other one reads as before.
A BAR0 access of a size or alignment that R40 does not allow changes no register: a write is discarded and a read returns ones, and
either is an access error at its offset. A legal REGISTER_WRITE of HIF_SCRATCH, HIF_BAR2_WIN or an EVT_EN register changes exactly that
register, a write to a read-only or unlisted offset nothing, and a misaligned one is an access error. -/
def Obligations.RegisterAccessRules : Prop :=
  (∀ (off v : Nat) (s : State), s.dev.wr = [] → Store.wf 0 s.dev.hif.rlShadow = true → rlValue s.dev off = some v →
     let others (t : State) : Prop := ∀ o w, o ≠ off → rlValue s.dev o = some w → bar0Word s.ctx t.dev (o + 4) = bar0Word s.ctx s.dev (o + 4)
     (∃ t, exec (.rlLowHalfRead off) s = .next t ∧ t.dev.readData = some (le 4 v) ∧
       bar0Word s.ctx t.dev (off + 4) = v / 2 ^ 32 % 2 ^ 32 ∧ others t ∧
       t = { s with dev := { s.dev with readData := t.dev.readData, hif := { s.dev.hif with rlShadow := t.dev.hif.rlShadow } } }) ∧
     (∃ t, exec (.rl8byteRead off) s = .next t ∧ t.dev.readData = some (le 8 v) ∧
       bar0Word s.ctx t.dev (off + 4) = v / 2 ^ 32 % 2 ^ 32 ∧ others t ∧
       t = { s with dev := { s.dev with readData := t.dev.readData, hif := { s.dev.hif with rlShadow := t.dev.hif.rlShadow } } })) ∧
  (∀ (off size : Nat) (v : BitVec 64) (k : Fin 8) (s : State), s.dev.wr = [] →
     (lawfulAccess true off size = false →
       exec (.bar0AccessError true off size) s = .next (s.on fun _ d => accessError off d)) ∧
     (lawfulAccess false off size = false → exec (.bar0AccessError false off size) s = .next (s.on fun _ d =>
         accessError off { d with readData := some (List.replicate ((size + 3) / 4 * 4) 0xFF) })) ∧
     exec (.registerWrite 0x24 false v) s = .next { s with dev := { s.dev with hif := { s.dev.hif with scratch := v.setWidth 32 } } } ∧
     exec (.registerWrite 0x104 false v) s = .next { s with dev := { s.dev with hif := { s.dev.hif with bar2Win := v.setWidth 3 } } } ∧
     (∃ e, exec (.registerWrite (0x1020 + 4 * k) false v) s = .next { s with dev := { s.dev with evt := { s.dev.evt with en := e } } } ∧
       ∀ i, i < 256 → e.getLsbD i = if i / 32 = k.val then v.getLsbD (i % 32) else s.dev.evt.en.getLsbD i) ∧
     (off % 4 ≠ 0 → exec (.registerWrite off false v) s = .next (s.on fun _ d => accessError off d)) ∧
     (off % 4 = 0 → off < 0x24 ∨ (0x28 ≤ off ∧ off < 0x104) ∨ 0x21000 ≤ off → exec (.registerWrite off false v) s = .next s))

/-- The 64-bit RW registers (R42), which are the bases of mailboxes, of DMA rings and of the event log, each where its base may be written:
a write of the low half alone changes nothing the device uses, only what is kept of it; the high half, or one 8-byte write, makes the whole
value take effect, and both ways leave the same machine. -/
def Obligations.BaseTakesEffectWithItsHighHalf : Prop :=
  ∀ (mb : Fin 32) (n : Fin 8) (v : BitVec 64) (s : State), s.dev.wr = [] → Store.wf {} s.dev.mbs = true → Store.wf {} s.dev.dma = true →
    Store.wf 0 s.dev.hif.lowHalf = true →
    let whole (off : Nat) (base : Dev → BitVec 64) : Prop := ∃ t u,
      exec (.registerWrite off false v) s = .next t ∧
      t = { s with dev := { s.dev with hif := { s.dev.hif with lowHalf := t.dev.hif.lowHalf } } } ∧
      exec (.registerWrite (off + 4) false (v >>> 32)) t = .next u ∧ base u.dev = v &&& 0xFFFFFFFFFFFFF000 ∧
      exec (.registerWrite off true v) s = .next u
    ((s.dev.mb mb).enable = false → (s.dev.mb mb).busy = [] → whole (0x808 + 0x40 * mb.val) fun d => (d.mb mb).base) ∧
    ((s.dev.ring n).stat = .stopped ∨ (s.dev.ring n).stat = .configError → whole (0x400 + 0x40 * n.val) fun d => (d.ring n).base) ∧
    (s.dev.evt.enable = false → whole 0x1040 fun d => d.evt.base)

/-- BAR2 (R58, R59): bytes written below the firmware-reserved region are read back by a read of the same range, in every size and
alignment, and the write changes no other byte of DDR5 and nothing else of the machine. An access that reaches into the reserved region
or beyond fitted DDR5 is refused whole: DDR5 stays as it is, a read returns zeros, and HIF_ERR gets BAR2_RANGE or BAR2_PROT or both,
with source 44. -/
def Obligations.Bar2WriteReadsBackOrIsRefusedWhole : Prop :=
  ∀ (off : Nat) (bytes : List Byte) (h : HostSide) (s : State), s.settled →
    let a := s.dev.hif.bar2Win.toNat * 2 ^ 33 + off
    (a + bytes.length ≤ ddrReserved s.dev → h.ecc = [] →
      ∃ t u, exec (.bar2Write off bytes) s = .next t ∧ t = { s with ddr := t.ddr } ∧
        (∀ j, j < a ∨ a + bytes.length ≤ j → Mem.byte t.ddr j = Mem.byte s.ddr j) ∧
        exec (.bar2Read off bytes.length h) t = .next u ∧ u.dev.readData = some bytes ∧ u.ddr = t.ddr) ∧
    (ddrReserved s.dev < a + bytes.length → (a < ddrFitted s.dev ∨ ddrFitted s.dev < a + bytes.length) →
      let flags := bar2Flags s.dev a bytes.length
      ∃ t u, exec (.bar2Write off bytes) s = .next t ∧ t.ddr = s.ddr ∧ t.dev.hif.err = s.dev.hif.err ||| flags ∧
        t.dev.evt.pend.getLsbD 44 = true ∧
        exec (.bar2Read off bytes.length h) s = .next u ∧ u.ddr = s.ddr ∧ u.dev.readData = some (zeros bytes.length) ∧
        u.dev.hif.err = s.dev.hif.err ||| flags ∧ flags ≠ 0)

/-! The PCIe link, resets and start-up (02, 04). -/

/-- The PCIe link (R30, R36): training sets HIF_LINK as trained, with LINK_DEGRADED where the link came up below 64 GT/s or 8 lanes, takes
what the host has set (R34), and lets held completions and messages out: a mailbox whose ring has room for all that it holds, none of it
waiting for an epoch or for another entry, holds none afterwards and has counted them, and the pending-array bit of every unmasked vector is
clear. The loss of the link only clears it, and no program, port or command is touched. A Function Level Reset (R38): every DMA ring stops,
its owned descriptors have failed and its indices keep the ledger of R49; every mailbox is disabled with no slot in use and nothing held;
the event registers, MSI-X, the log, HIF_SCRATCH, HIF_ERR and the shadow return to reset, but for what the report of the reset raises; host
memory and DDR5 are not written, and programs, ports, channels, rings, trims and links go on as they were. A conventional reset does the
same, resets what the host has set in configuration space, and takes the link down (R94). That HIF_STATE follows the device through a
Function Level Reset, that its report leaves sources 41 and 53 pending, and that HIF_LINK keeps its fields at link down, are the model's own
readings (log entries 87, 81, 95). -/
def Obligations.LinkRowsAndFunctionResets : Prop :=
  (∀ (speed width : Nat) (flit : Bool) (set : Option PcieSet) (s : State), s.dev.wr = [] →
     let bad := decide (speed < 6) || decide (width < 8)
     let up : Hif := { s.dev.hif with linkUp := true, linkSpeed := speed, linkWidth := width, linkFlit := flit, linkDegraded := bad }
     let pcie := match set with | none => s.dev.pcie | some v => (hostSets v s.dev).pcie
     (s.dev.images.inReset = false → ∃ t, exec (.pcieLinkTrained speed width flit set) s = .next t ∧ t.ddr = s.ddr ∧
       OnlyReports { s.dev with hif := up, pcie := pcie } t.dev ∧
       (speed < 6 ∨ width < 8 → t.dev.evt.pend.getLsbD 42 = true) ∧
       (∀ m : Fin 32, let b := s.dev.mb m
         Store.wf {} s.dev.mbs = true → (∀ k ∈ b.held, k.waitsEpoch = false ∧ k.after = []) →
         (b.head - b.tail).toNat + b.held.length ≤ 2 ^ b.log2.toNat → (t.dev.mb m).held = [] ∧
           (t.dev.mb m).head = b.head + BitVec.ofNat 16 b.held.length ∧ (t.dev.mb m).done = b.done + BitVec.ofNat 64 b.held.length) ∧
       (∀ v : Fin 256, (Store.get ({} : Msix) s.dev.evt.msix v).mask = false → t.dev.evt.pba.getLsbD v = false)) ∧
     exec .pcieLinkDown s = .next { s with dev := { s.dev with hif := { s.dev.hif with linkUp := false } } }) ∧
  (∀ (s : State), s.dev.wr = [] → Store.wf {} s.dev.dma = true → Store.wf {} s.dev.mbs = true →
     let after (t : State) : Prop :=
       (∀ n : Fin 8, let r := s.dev.ring n
         let f := r.fail + BitVec.ofNat 64 (r.tail - r.head).toNat
         let ix := BitVec.ofNat 32 (r.done.toNat + f.toNat)
         t.dev.ring n = { head := ix, tail := ix, done := r.done, fail := f }) ∧
       (∀ m : Fin 32, let b := t.dev.mb m
         b = { posted := b.posted, done := b.done }) ∧
       (∀ i, i ≠ 41 → i ≠ 53 → t.dev.evt.pend.getLsbD i = false) ∧ t.dev.evt.en = 0 ∧ t.dev.evt.pba = 0 ∧ t.dev.evt.enable = false ∧
       t.dev.evt.msix = [] ∧ t.dev.hif.scratch = 0 ∧ t.dev.hif.err = 0 ∧ t.dev.hif.rlShadow = [] ∧ t.dev.hif.state = s.dev.hif.state ∧
       t.dev.bells = [] ∧ t.ddr = s.ddr ∧ t.host = s.host ∧ t.dev.time = s.dev.time ∧ t.dev.ports = s.dev.ports ∧
       t.dev.chans = s.dev.chans ∧ t.dev.stages = s.dev.stages ∧ t.dev.acq = s.dev.acq ∧ t.dev.cal = s.dev.cal ∧ t.dev.links = s.dev.links ∧
       t.dev.core.run = s.dev.core.run ∧ t.dev.core.rays = s.dev.core.rays
     (∃ t, exec .functionLevelReset s = .next t ∧ after t ∧ t.dev.hif.linkUp = s.dev.hif.linkUp) ∧
     (∃ t, exec .pcieConventionalReset s = .next t ∧ after t ∧ t.dev.hif.linkUp = false ∧ t.dev.pcie = {}))

/-- The die resets (R94 to R96, R99, R113, R503, R504), with no image write and no calibration commit in progress: the core, mailboxes,
rings, channels, links and HIF_STATE return to reset and DDR5 is lost; the flash and the calibration store stay; a RESET_N of 1 µs or more
and a reboot keep what each flux port's DC-offset DAC puts out, the others do not; a RESET_N below 100 ns does nothing. The shutdown needs
two comparators, and counts. A directory write that the reset cuts leaves the copy it went to torn, and the other copy as it was; with none
in progress, both stay. That a die reset loses DDR5, what a cut write leaves, and that a shutdown resets the die at once, are the model's
choices (log entries 6, 35, 55). -/
def Obligations.DieResetsKeepOnlyTheStores : Prop :=
  ∀ (s : State) (lowNs src : Nat) (trip : BitVec 4) (tear : Option (Fin 16)) (n : Fin 16) (p : Fin 97), s.dev.wr = [] →
    s.dev.images.writeSeq = none → s.dev.cal.committing = none → selecting s.ctx s.dev = none → s.dev.images.romWrote = none ∨ tear = none →
    let after (t : State) : Prop := t.ddr = [] ∧ t.host = s.host ∧ t.dev.core = {} ∧ t.dev.mbs = [] ∧ t.dev.dma = [] ∧ t.dev.chans = [] ∧
      t.dev.links = [] ∧ t.dev.evt = {} ∧ t.dev.time = {} ∧ t.dev.hif = { orfWarm := !s.fuse.oven } ∧ t.dev.images.inReset = true ∧
      t.dev.images.slot0 = s.dev.images.slot0 ∧ t.dev.images.slot1 = s.dev.images.slot1 ∧ t.dev.images.dirA = s.dev.images.dirA ∧
      t.dev.images.dirB = s.dev.images.dirB ∧ t.dev.cal.stores = s.dev.cal.stores ∧ t.dev.cal.slots = s.dev.cal.slots
    (∃ t, exec (.powerOnReset tear) s = .next t ∧ after t ∧ t.dev.ports = []) ∧
    (s.dev.images.romWrote = some true → ∃ t, exec (.powerOnReset (some n)) s = .next t ∧ t.dev.images.dirA = s.dev.images.dirA ∧
      t.dev.images.dirB = s.dev.images.dirB.take n ++ List.replicate (16 - n) 0xFF) ∧
    (1000 ≤ lowNs → ∃ t, exec (.resetN lowNs tear) s = .next t ∧ after t ∧
      (s.fuse.hasPort p = true → portKind p = .flux → (t.dev.port p).dc = dcDac s.dev p)) ∧
    (lowNs < 100 → exec (.resetN lowNs tear) s = .next s) ∧
    (s.dev.images.rebootSrc = some src → ∃ t, exec .imgRebootReset s = .next t ∧ after t ∧
      (src = 1 → t.dev.images.staged = s.dev.images.staged ∧ t.dev.images.bootStaged = true) ∧
      (s.fuse.hasPort p = true → portKind p = .flux → (t.dev.port p).dc = dcDac s.dev p)) ∧
    (2 ≤ ([0, 1, 2, 3].filter (fun i => trip.getLsbD i)).length → s.dev.thermal.isShut = false →
      ∃ t, exec (.hardwareShutdown trip tear) s = .next t ∧ after t ∧ t.dev.ports = [] ∧ t.dev.thermal.isShut = true ∧
        t.dev.thermal.shutTrip = trip ∧ t.dev.thermal.shutdowns = (s.dev.thermal.shutdowns + 1) % 2 ^ 32) ∧
    (s.dev.thermal.isShut = true → ∃ t, exec .thermalRestart s = .next t ∧ after t ∧ t.dev.ports = [] ∧ t.dev.thermal.isShut = false)

/-- The loss of a core (R97, R472, R106), of one that runs or that has failed already: an active core with an eligible standby hands over
at once; without one the device reloads the
image and STATE reads 1, or fault-halts with STATE 4, and its program is over; the loss of the standby leaves the active core's
commands, program and mailboxes as they are.
What a reloaded core keeps, and a takeover where STATE stays as it is, are the model's own readings (log entries 54, 65). -/
def Obligations.CoreLossRows : Prop :=
  ∀ (s : State) (tear : Option (Fin 16)),
    let up := firmwareRuns s.dev = true ∨ (s.dev.mirror.failed = true ∧ s.dev.hif.state = .ready)
    (up → mayTakeOver s.dev = true →
      exec (.coreReset s.dev.hif.core tear) s = .next (s.on fun x d => takeOver 2 x (tearDirectory tear x d)) ∧
      (s.dev.images.inReset = false → exec .faultHalt s = .next (s.on fun x d => takeOver 2 x d))) ∧
    (up → mayTakeOver s.dev = false →
      (∃ t, exec (.coreReset s.dev.hif.core tear) s = .next t ∧ t.dev.hif.state = .imageLoading ∧ t.dev.core.run.active = false ∧
        t.dev.core.progs = [] ∧ t.dev.core.loci = [] ∧ t.dev.core.progMem = []) ∧
      (s.dev.images.inReset = false → ∃ t, exec .faultHalt s = .next t ∧ t.dev.hif.state = .faultHalted ∧
        t.dev.core.run.active = false ∧ t.dev.marker.pins = [])) ∧
    (s.fuse.duplex = true → exec (.coreReset (!s.dev.hif.core) tear) s = .next (s.on fun _ d => resetStandby d))

/-- Start-up (R102 to R104): the release of a die reset with BOOT_RECOV low starts the recovery firmware (RESTRICT 4), and otherwise, with
a readable flash, loads the slot that the directory selects; STATE reads 1 in either case; the load puts that image into the cores, and a
copy that fails a check of R101 rejects its slot, so that the other one is loaded (log entry 108), or starts the recovery firmware where the
flash does not answer (R98); firmware then declares the device ready, or restricted: with RESTRICT 1 where its image does not list the
stepping, 2 or 4 where it is the recovery firmware, and 3 where the DDR5 did not train and no lower reason applies. A HOLD_N that is low at
ready is noted (R436). -/
def Obligations.StartUpRows : Prop :=
  ∀ (s : State) (gib : BitVec 16) (low : Bool) (src : Nat) (failed : Fin 4) (straps : BitVec 2),
    (s.dev.images.inReset = true → s.dev.thermal.isShut = false →
      ∃ t, exec (.dieResetRelease true true straps) s = .next t ∧ t.dev.images.inReset = false ∧ t.dev.hif.restrict = 4 ∧
        t.dev.mirror.imgActive = recoveryImage ∧ t.dev.hif.state = .imageLoading) ∧
    (s.dev.images.inReset = true → s.dev.thermal.isShut = false → s.dev.images.bootStaged = false →
      (dirNow s.dev.images).nextOnce = 0xFF → (dirNow s.dev.images).preferred = 0 → fits s.dev.images.slot0 = true →
      ∃ t, exec (.dieResetRelease false true straps) s = .next t ∧ t.dev.images.inReset = false ∧ t.dev.images.bootSrc = some 0 ∧
        t.dev.hif.state = .imageLoading ∧ t.dev.bench.smbAddr = 0x58 + straps.toNat) ∧
    (s.dev.images.bootSrc = some src → s.dev.hif.state = .imageLoading → s.dev.images.reloading = false → s.dev.wr = [] →
      let other := if s.fuse.duplex then sourceImage s.dev src else s.dev.mirror.imgStandby
      let m : Mirror := { s.dev.mirror with imgActive := sourceImage s.dev src, imgStandby := other }
      exec (.imageLoadComplete s.dev.hif.core 0) s = .next { s with dev := { s.dev with
        images := { s.dev.images with bootSrc := none, romWrote := none }, mirror := m } }) ∧
    (s.dev.images.bootSrc = some src → s.dev.hif.state = .imageLoading → s.dev.images.reloading = false → failed ≠ 0 →
      s.dev.images.flashOk = false →
      ∃ t, exec (.imageLoadComplete s.dev.hif.core failed) s = .next t ∧ t.dev.images.bootSrc = none ∧ t.dev.hif.restrict = 2 ∧
        t.dev.mirror.imgActive = recoveryImage ∧ t.dev.hif.state = .imageLoading) ∧
    (s.dev.images.bootSrc = some 0 → s.dev.hif.state = .imageLoading → s.dev.images.reloading = false → failed ≠ 0 →
      s.dev.images.flashOk = true → (dirNow s.dev.images).nextOnce = 0xFF → (dirNow s.dev.images).preferred = 0 → fits s.dev.images.slot1 = true →
      ∃ t, exec (.imageLoadComplete s.dev.hif.core failed) s = .next t ∧ t.dev.images.bootSrc = some 1 ∧
        t.dev.images.slot0 = { s.dev.images.slot0 with valid := failed - 1 } ∧ t.dev.hif.state = .imageLoading) ∧
    (s.dev.images.bootSrc = none → s.dev.hif.state = .imageLoading → s.dev.images.inReset = false → s.dev.images.reloading = false →
      (s.dev.mirror.imgActive.stepOk = true → s.dev.hif.restrict = 0 →
        ∃ t, exec (.firmwareReady gib true low) s = .next t ∧ t.dev.hif.state = .ready ∧ t.dev.hif.restrict = 0 ∧ t.dev.hif.ddrGib = gib ∧
          (low = true → t.dev.bench.lowSince = some t.dev.time.raw)) ∧
      (s.dev.mirror.imgActive.stepOk = true → s.dev.hif.restrict ≠ 2 →
        ∃ t, exec (.firmwareReady gib false low) s = .next t ∧ t.dev.hif.state = .restricted ∧ t.dev.hif.restrict = 3 ∧ t.dev.hif.ddrGib = 0) ∧
      (∀ trained, s.dev.mirror.imgActive.stepOk = false →
        ∃ t, exec (.firmwareReady gib trained low) s = .next t ∧ t.dev.hif.state = .restricted ∧ t.dev.hif.restrict = 1 ∧
          t.dev.hif.ddrGib = if trained then gib else 0) ∧
      (∀ trained, s.dev.mirror.imgActive.stepOk = true → s.dev.hif.restrict = 2 →
        ∃ t, exec (.firmwareReady gib trained low) s = .next t ∧ t.dev.hif.state = .restricted ∧ t.dev.hif.restrict = 2 ∧
          t.dev.hif.ddrGib = if trained then gib else 0) ∧
      (s.dev.mirror.imgActive.stepOk = true → s.dev.hif.restrict = 4 →
        ∃ t, exec (.firmwareReady gib true low) s = .next t ∧ t.dev.hif.state = .restricted ∧ t.dev.hif.restrict = 4 ∧ t.dev.hif.ddrGib = gib))

/-- The image commands (R109 to R115): IMG_STATUS returns its result; IMG_STAGE holds an image that passes its checks, with 0x0E01 where its
stepping is not listed; IMG_SELECT writes the directory copy not in force; IMG_WRITE runs until SLOT_WRITE_END, which puts the staged image
into the slot, or leaves the slot invalid, with 0x0E15 where its read-back fails; IMG_REBOOT disables every mailbox and ends what has not
begun; IMG_LOAD_STANDBY loads the standby, and IMG_HANDOVER requests a switch-over with LAST_REASON 4. That a write whose command is gone
leaves its slot invalid, and that a standby held in restricted mode or by its self-test loads and stays as it is, are the model's own
readings (log entries 34, 107). -/
def Obligations.ImageCommands : Prop :=
  ∀ (mb : Fin 32) (h : HostSide) (s : State) (c : Cmd) (n : Nat) (ok : Bool),
    (s.begins imgStatusSpec mb h = some c →
      exec (.imgStatus mb h) s = .next (s.during h c fun x d => replyCmd c 0x0E00 (imgStatusBytes x d) d)) ∧
    (s.begins imgStageSpec mb h = some c → stageFail c.payload = none →
      exec (.imgStage mb h) s = .next (s.during h c fun _ d => doneCmd c (if stepListed c.payload then 0x0E00 else 0x0E01)
        { d with images := { d.images with staged := some (imageOf c.payload), stagedInEnv := stagesInEnv d } })) ∧
    (s.begins imgSelectSpec mb h = some c →
      let dir := dirNow s.dev.images
      let images := if c.arg 1 1 = 0 then writeDir (c.arg 0 1) dir.nextOnce s.dev.images
        else if c.arg 1 1 = 1 then writeDir dir.preferred (c.arg 0 1) s.dev.images
        else writeDir dir.preferred 0xFF s.dev.images
      exec (.imgSelect mb h) s = .next (s.during h c fun _ d => doneCmd c 0x0E00 { d with images := images })) ∧
    (s.begins imgWriteSpec mb h = some c →
      exec (.imgWrite mb h) s = .next (s.during h c fun _ d =>
        { d with images := { d.images with writeSeq := some c.seq, writeSlot := c.arg 0 1 } })) ∧
    (s.dev.images.writeSeq = some n → cmdOf s.dev n = some c → c.dead = false →
      exec (.slotWriteEnd ok) s = .next (s.on fun _ d =>
        let i := if ok then d.images.staged.getD {} else {}
        let d1 := { d with images := setSlotImage d.images.writeSlot i { d.images with writeSeq := none } }
        if ok then doneCmd c 0x0E00 d1 else failCmd c { status := 0x0E15, detail := 32 } d1)) ∧
    (s.dev.images.writeSeq = some n → cmdOf s.dev n = none → s.dev.wr = [] →
      exec (.slotWriteEnd ok) s = .next { s with dev := { s.dev with
        images := setSlotImage s.dev.images.writeSlot {} { s.dev.images with writeSeq := none } } }) ∧
    (s.begins imgRebootSpec mb h = some c → running s.dev = false → Store.wf {} s.dev.mbs = true →
      ∃ t, exec (.imgReboot mb h) s = .next t ∧ t.dev.images.rebootSrc = some (c.arg 0 1) ∧ (∀ m : Fin 32, (t.dev.mb m).enable = false) ∧
        ∀ q ∈ t.dev.core.cmds, q.begun = true ∧ q.seq ≠ c.seq) ∧
    (s.begins imgLoadStandbySpec mb h = some c →
      exec (.imgLoadStandby mb h) s = .next (s.during h c fun _ d =>
        let d1 := { d with images := { d.images with loadSeq := some c.seq } }
        if heldStandby s.dev then { d1 with mirror := { d1.mirror with loadSrc := c.arg 0 1 } } else startLoad (c.arg 0 1) d1)) ∧
    (s.begins imgHandoverSpec mb h = some c →
      exec (.imgHandover mb h) s = .next (s.during h c fun x d => requestSwitch 4 x c d))

/-! Lattice time, references and SYNC (05). -/

/-- The lattice commands (R145 to R151): the status commands return their results; LAT_REF_SELECT starts a pull-in that its command waits
for; LAT_SET_PERIOD, which sets the thermal extension anew with the period (R499), and LAT_SYNC are staged while a program runs and take
effect at once otherwise; LAT_LOAD WHEN 0 makes the tick after its beginning read VALUE, WHEN 1 arms a load and waits, WHEN 2 cancels an
armed one, and LAT_DISCARDS clears its counters where CLEAR asks for it. -/
def Obligations.LatticeCommands : Prop :=
  ∀ (mb : Fin 32) (h : HostSide) (s : State) (c : Cmd),
    let l := s.dev.lattice
    (s.begins latStatusSpec mb h = some c →
      exec (.latStatus mb h) s = .next (s.during h c fun x d => replyCmd c 0x0200 (latStatusBytes x d) d)) ∧
    (s.begins latRefSelectSpec mb h = some c →
      let l1 : Lattice := { l with refPN := c.arg 0 1 = 1, fallback := bitOf (c.arg 1 1) 0, holdover := false, pullIn := true, pullSeqs := l.pullSeqs ++ [c.seq] }
      exec (.latRefSelect mb h) s = .next (s.during h c fun _ d => event 58 (c.arg 0 1) 0 { d with lattice := l1 })) ∧
    (s.begins latSetPeriodSpec mb h = some c →
      (running s.dev = true → exec (.latSetPeriod mb h) s = .next (s.during h c fun _ d => putCmd { c with staged := true } d)) ∧
      (running s.dev = false → exec (.latSetPeriod mb h) s = .next (s.during h c fun _ d =>
        doneCmd c 0x0200 (setExtension { d with lattice := { l with period := c.arg 0 8 } })))) ∧
    (s.begins latSyncSpec mb h = some c →
      let l1 : Lattice := { l with follow := c.arg 0 1 = 1, falling := bitOf (c.arg 1 1) 0, lead := c.arg 4 4 }
      (running s.dev = true → exec (.latSync mb h) s = .next (s.during h c fun _ d => putCmd { c with staged := true } d)) ∧
      (running s.dev = false → exec (.latSync mb h) s = .next (s.during h c fun _ d => doneCmd c 0x0200 { d with lattice := l1 }))) ∧
    (s.begins latLoadSpec mb h = some c →
      (c.arg 8 1 = 0 → exec (.latLoad mb h) s = .next (s.during h c fun x d => doneCmd c 0x0200
        ((loadLattice (c.arg 0 8) (advance 1 (cancelArmed 0x0216 0xFFFF d))).forAll (x.fuse.indices.filter (· < 96)) (markDue true)))) ∧
      (c.arg 8 1 = 1 → l.armed = none →
        let a : ArmedLoad := ⟨c.arg 0 8, bitOf (c.arg 9 1) 0, (s.dev.time.raw + 1000000 * c.arg 12 4) % 2 ^ 64, c.seq⟩
        exec (.latLoad mb h) s = .next (s.during h c fun _ d => { d with lattice := { l with armed := some a } })) ∧
      (c.arg 8 1 = 2 → exec (.latLoad mb h) s = .next (s.during h c fun _ d =>
        if l.armed.isSome then doneCmd c 0x0200 (cancelArmed 0x0216 0xFFFF d) else okCmd c 0x0002 0 [] true d))) ∧
    (s.begins latSlackSpec mb h = some c →
      let standby := decide (c.arg 0 1 = 1)
      let k := slackAt s.dev standby
      exec (.latSlack mb h) s = .next (s.during h c fun _ d => replyCmd c 0x0200
        (le 2 k.value ++ le 1 k.failedCount ++ le 1 (coreNo d standby) ++ zeros 4 ++
          (List.range 24).flatMap (fun i => le 2 (k.ring i).slack ++ le 1 (flag (k.ring i).failed 0) ++ zeros 1)) d)) ∧
    (s.begins latDiscardsSpec mb h = some c →
      let clear := bitOf (c.arg 0 1) 0
      let out := le 8 s.dev.time.lat ++ le 8 s.dev.discardTotal ++ (List.range 97).flatMap (fun i =>
        le 8 (Store.get {} s.dev.discards i).late ++ le 8 (Store.get {} s.dev.discards i).other)
      exec (.latDiscards mb h) s = .next (s.during h c fun _ d =>
        okCmd c 0x0200 0 out (!clear) (if clear then { d with discards := [], discardTotal := 0 } else d)))

/-- The reference, the oven and the PLL (R117 to R123, R30): a reference lost is holdover, or the oven oscillator where FALLBACK is set and
the part has one; present again it is reported, and from 100 ms after that instant, in holdover, pulled in to; the end of a pull-in
completes LAT_REF_SELECT; the first lock starts lattice time, and an unlock makes it suspect, puts every output, the marker pins among them,
into the safe condition for that cause and leaves no program running. A fallback that counts as a pull-in, and several commands that end
with one pull-in, are the model's choice (log entry 68); so are the end of holdover as soon as the resonator, selected, is present again
(log entry 135), and an ORF_WARM set after an oven fault (log entry 136). -/
def Obligations.ReferenceAndPllRows : Prop :=
  ∀ (s : State),
    let l := s.dev.lattice
    (l.presentPN = true → l.refPN = true → (s.fuse.oven = false ∨ l.fallback = false) → ∃ t, exec (.referenceLost true) s = .next t ∧
      OnlyReports { s.dev with lattice := { l with presentPN := false, holdover := true, pullIn := false } } t.dev ∧ t.dev.evt.pend.getLsbD 59 = true) ∧
    (l.presentPN = true → l.refPN = true → s.fuse.oven = true → l.fallback = true → ∃ t, exec (.referenceLost true) s = .next t ∧
      OnlyReports { s.dev with lattice := { l with presentPN := false, refPN := false, pullIn := true } } t.dev ∧
      t.dev.evt.pend.getLsbD 58 = true) ∧
    (l.presentPN = false → ∃ t, exec (.referenceRestored true) s = .next t ∧
      OnlyReports { s.dev with lattice := { l with presentPN := true, restoredAt := s.dev.time.raw } } t.dev ∧ t.dev.evt.pend.getLsbD 57 = true) ∧
    (s.fuse.oven = true → l.presentOsc = false → ∃ t, exec (.referenceRestored false) s = .next t ∧
      OnlyReports { s.dev with lattice := { l with
        presentOsc := true, holdover := l.holdover && l.refPN, pullIn := l.pullIn || (!l.refPN && !l.pullSeqs.isEmpty) } } t.dev ∧
      t.dev.evt.pend.getLsbD 57 = true) ∧
    (l.refPN = true → l.presentPN = true → l.holdover = true → exec .refPullIn s = .next (s.on fun _ d =>
      { advance (l.restoredAt + 100000000 - d.time.raw) d with lattice := { l with holdover := false, pullIn := true } })) ∧
    (∀ n c, l.pullIn = true → l.pullSeqs = [n] → cmdOf s.dev n = some c → c.dead = false →
      exec .pullInComplete s = .next (s.on fun _ d => doneCmd c 0x0200 { d with lattice := { l with pullIn := false, pullSeqs := [] } })) ∧
    (s.dev.hif.lock = false → s.dev.images.inReset = false → (refPresent l = true ∨ l.holdover = true) → s.dev.time.counting = false →
      s.dev.wr = [] → exec .pllLock s = .next { s with dev := { s.dev with
        hif := { s.dev.hif with lock := true }, time := { s.dev.time with counting := true }, lattice := { l with everLocked := true } } }) ∧
    (s.dev.hif.lock = true → Store.wf {} s.dev.ports = true → ∃ t, exec .pllUnlock s = .next t ∧ t.dev.hif.lock = false ∧
      t.dev.time.suspect = true ∧ t.dev.core.run.active = false ∧ t.dev.evt.pend.getLsbD 62 = true ∧
      (∀ p : Fin 97, p.val ∈ outputs s.fuse → .unlock ∈ (t.dev.port p).causes ∧ portCond (t.dev.port p) = if (t.dev.port p).off then 0 else 2) ∧
      .unlock ∈ t.dev.marker.causes ∧ t.dev.marker.safe = true) ∧
    (s.fuse.oven = true → s.dev.hif.orfWarm = false → s.dev.wr = [] →
      exec .orfWarmSet s = .next { s with dev := { s.dev with
        hif := { s.dev.hif with orfWarm := true }, lattice := { l with warmAt := s.dev.time.lat, ovenFault := false } } }) ∧
    (s.fuse.oven = true → s.dev.hif.orfWarm = true → ∃ t, exec .ovenWarmLost s = .next t ∧ t.dev.hif.orfWarm = false ∧
      t.dev.evt.pend.getLsbD 60 = true ∧ t.dev.time = s.dev.time) ∧
    (s.fuse.oven = true → s.dev.hif.orfWarm = false → ∃ t, exec .ovenFault s = .next t ∧
      OnlyReports { s.dev with lattice := { l with ovenFault := true } } t.dev ∧ t.dev.evt.pend.getLsbD 61 = true)

/-- SYNC following (R130, R131, R149): an edge inside the window of the next meridian fixes it SYNC_LEAD after the edge and counts as in
window; a window that closes without one fixes the meridian on its schedule, counts the missing edge and reports it; an edge of the armed
polarity loads lattice time and completes the armed LAT_LOAD with 0x0200, beside what its conditioning and its capture triggers do, and a
load that sees none by its deadline fails with 0x0215. -/
def Obligations.SyncRows : Prop :=
  ∀ (s : State) (b : Nat) (a : ArmedLoad) (c : Cmd),
    let l := s.dev.lattice
    let edge := s.dev.core.run.next - l.lead
    (s.dev.hif.state = .ready → l.armed = none → l.follow = true → windowPending s.dev = true →
      edge ≤ s.dev.time.lat + edgeEarly s.dev → s.dev.time.lat ≤ edge + 2048 → s.dev.tim.meas = none → b ≤ 999 →
      (conditionEdge 8 l.falling b s.dev).1 = true →
      ∃ t, exec (.syncEdge l.falling b) s = .next t ∧ t.dev.core.run.next = s.dev.time.lat + l.lead ∧ t.dev.core.run.fixed = true ∧
        t.dev.core.run.delta = (s.dev.time.lat : Int) - edge ∧ t.dev.lattice.syncIn = (l.syncIn + 1) % 2 ^ 64 ∧
        t.dev.lattice.syncOut = l.syncOut) ∧
    (windowPending s.dev = true → ∃ t, exec .syncWindowClose s = .next t ∧ t.dev.core.run.next = edge + l.lead ∧
      t.dev.core.run.fixed = true ∧ t.dev.core.run.delta = 0 ∧ t.dev.lattice.syncMissing = (l.syncMissing + 1) % 2 ^ 64 ∧
      t.dev.evt.pend.getLsbD 70 = true) ∧
    (s.dev.hif.state = .ready → l.armed = some a → running s.dev = false → s.dev.tim.meas = none → b ≤ 999 →
      (conditionEdge 8 a.falling b s.dev).1 = true →
      ∃ t, exec (.syncEdge a.falling b) s = .next t ∧ t.dev.time.lat = a.value ∧ t.dev.lattice.armed = none ∧
        t.dev.time.suspect = false ∧ t.dev.time.loads = s.dev.time.loads + 1) ∧
    (s.dev.hif.state = .ready → l.armed = some a → running s.dev = false → s.dev.tim.meas = none → b ≤ 999 →
      (conditionEdge 8 a.falling b s.dev).1 = true →
      let taken (d : Dev) : Dev := eventTriggers 8 a.falling (conditionEdge 8 a.falling b d).2
      cmdOf (taken s.dev) a.seq = some c → c.dead = false →
      exec (.syncEdge a.falling b) s = .next (s.on fun x d => journal a.seq (fun d => doneCmd c 0x0200
        ((loadLattice a.value { d with lattice := { d.lattice with armed := none } }).forAll (x.fuse.indices.filter (· < 96)) (markDue true)))
        (taken d))) ∧
    (l.armed = some a → cmdOf s.dev a.seq = some c → c.dead = false → exec .latLoadTimeout s = .next (s.on fun _ d =>
      failCmd c { status := 0x0215, detail := 44 }
        { advance (a.deadline - d.time.raw) d with lattice := { l with armed := none } }))

/-- The frames of ports run with lattice time (R156, R158): setting a frequency takes 16 × lattice time as the sample count, and after
any number of ticks that count has grown by 16 for each, modulo 2^48, while Z stays. -/
def Obligations.FramesCountSixteenSamplesATick : Prop :=
  ∀ (d : Dev) (ftw n : Nat) (f : Frame), d.time.counting = true → d.time.raw < 2 ^ 64 → n < 2 ^ 64 →
    frameCount d (setFreq d ftw f) = 16 * d.time.lat % 2 ^ 48 ∧ (setFreq d ftw f).z = f.z ∧
    frameCount (advance n d) (setFreq d ftw f) = (16 * d.time.lat + 16 * n) % 2 ^ 48

/-- A slack reading (R138, R140, R142) of a core the part has keeps each of its 24 rings: a ring in service takes its count as its
slack, and is marked failed exactly where the count is implausible against the median of the others; a failed ring is not in service
again before 1,000 plausible readings in a row. -/
def Obligations.SlackReadingRow : Prop :=
  ∀ (mirror : Bool) (counts : List (BitVec 16)) (i : Fin 24) (s : State),
    counts.length = 24 → (mirror = true → s.fuse.duplex = true) → Store.wf {} s.dev.slack = true →
    Store.wf {} (s.dev.slackOf mirror).rings = true →
    let q := (s.dev.slackOf mirror).ring i
    let ok := plausible (counts.map (·.toNat)) i
    ∃ t, exec (.slackReading mirror counts) s = .next t ∧
      let q' := (t.dev.slackOf mirror).ring i
      q'.slack = (counts.map (·.toNat)).getD i 0 ∧ (q.failed = false → q'.failed = !ok) ∧
      (q.failed = true → ok = false → q'.failed = true ∧ q'.good = 0) ∧
      (q.failed = true → ok = true → q.good < 999 → q'.failed = true ∧ q'.good = q.good + 1) ∧
      (q.failed = true → ok = true → 999 ≤ q.good → q'.failed = false)

/-! Staged commands and the ports (03, 06, 09). -/

/-- The commands that R29 makes staged: checked while a program runs, such a command waits for a meridian with its staged mark set, and
nothing else changes; with none running it is applied at once, and completes with the base code of its group (R88) unless it goes on, as
a ramp or a copy does. They are LAT_SET_PERIOD, LAT_SYNC, PRT_DRIVE_CONFIG, PRT_FRAME_SET, PRT_ENV_WRITE, PRT_FLUX_CONFIG, PRT_FLUX_DC,
PRT_PROBE_CONFIG, PRT_PROBE_TONE, PRT_ACQ_CONFIG, LOC_WRITE, RO_CH_CONFIG, RO_WEIGHTS, RO_DISC, CH_TABLE_WRITE, CH_EXPORT, RP_ATTACH,
CAL_WRITE and MKV_PIN_CONFIG; RP_STOP, RP_APPLY and a frame change that sets nothing have clauses in other statements. -/
def Obligations.StagedCommandsWaitForTheMeridian : Prop :=
  ∀ (i : Instr) (sp : CmdSpec) (mb : Fin 32) (h : HostSide) (s : State) (c : Cmd),
    commandOf i = some (sp, mb, h) → stagedOps.contains sp.op = true → s.begins sp mb h = some c →
    (sp.op = 0x0302 ∨ sp.op = 0x0381 → c.arg 2 1 ≠ 0) → sp.op ≠ 0x0606 → sp.op ≠ 0x0607 →
    (running s.dev = true → exec i s = .next (s.during h c fun _ d => putCmd { c with staged := true } d)) ∧
    (running s.dev = false → exec i s = .next (s.during h c fun x d =>
      let d1 := stagedEffect x c d
      if goesOn c d1 then d1 else doneCmd c (256 * (sp.op / 256)) d1))

/-- What staged commands leave when they are applied with no program running: LOC_WRITE its loci and no others (R217), CH_TABLE_WRITE
its whole table (R329), CH_EXPORT its masks (R331), RO_WEIGHTS its weights and STRIDE (R272), and the port configurations of R182, R187
and R269 their fields; every other locus, table, export mask and weight reads as before. -/
def Obligations.AppliedSettingsReadBack : Prop :=
  ∀ (x : Ctx) (c : Cmd) (d : Dev), running d = false → Store.wf {} d.core.loci = true → Store.wf {} d.core.tables = true →
    Store.wf exportReset d.core.exports = true → Store.wf {} d.chans = true → Store.wf {} d.ports = true →
    let t := stagedEffect x c d
    let p := t.port (c.arg 0 1)
    (c.op = 0x0404 → (∀ j, j < c.arg 4 4 → t.locus (c.arg 0 4 + j) = locusAt c.payload (8 + 64 * j)) ∧
      ∀ i, i < c.arg 0 4 ∨ c.arg 0 4 + c.arg 4 4 ≤ i → t.locus i = d.locus i) ∧
    (c.op = 0x05C0 → let q := Store.get {} t.core.tables (c.arg 0 1)
      q.deadline = c.arg 8 8 ∧ q.fallback = c.arg 16 4 ∧ (∀ i, i < 256 → Store.get 0 q.entries i = BitVec.ofNat 32 (c.arg (64 + 4 * i) 4)) ∧
      (∀ i, i < 8 → Store.get 0 q.sel i = BitVec.ofNat 32 (c.arg (32 + 4 * i) 4)) ∧
      ∀ i, i ≠ c.arg 0 1 → Store.get {} t.core.tables i = Store.get {} d.core.tables i) ∧
    (c.op = 0x05C2 →
      Store.get exportReset t.core.exports (c.arg 0 1) = (BitVec.ofNat 192 (c.arg 8 24), BitVec.ofNat 192 (c.arg 32 24)) ∧
      ∀ i, i ≠ c.arg 0 1 → Store.get exportReset t.core.exports i = Store.get exportReset d.core.exports i) ∧
    (c.op = 0x0501 → Store.wf weightReset (d.chan c.chanArg).cfg.weights = true →
      let g := (t.chan c.chanArg).cfg
      let w (i : Nat) : IQ := Store.get weightReset g.weights i
      g.stride = c.arg 2 1 ∧ (∀ j, j < c.arg 6 2 → w (c.arg 4 2 + j) = weightOf (c.arg (16 + 4 * j) 4)) ∧
      ∀ i, i < c.arg 4 2 ∨ c.arg 4 2 + c.arg 6 2 ≤ i → w i = Store.get weightReset (d.chan c.chanArg).cfg.weights i) ∧
    (c.op = 0x0301 ∨ c.op = 0x0380 → p.cfg.enable = bitOf (c.arg 1 1) 0 ∧ p.cfg.fsCode = c.arg 2 2) ∧
    (c.op = 0x0306 → p.cfg.enable = bitOf (c.arg 1 1) 0 ∧ p.cfg.safeMode = bitOf (c.arg 1 1) 1 ∧
      p.cfg.pulseRange = bitOf (c.arg 1 1) 2 ∧ p.cfg.safeDc = dcCode (c.arg 4 4)) ∧
    (c.op = 0x0382 → p.cfg.enable = bitOf (c.arg 1 1) 0 ∧ p.cfg.range = bitOf (c.arg 1 1) 1)

/-- The other port commands and rows: PRT_STATUS, of the port brought up to now, and PRT_ACQ_STATUS, with the samples counted by now, return
their results and clear their counters where CLEAR asks for it (R181, R270), PRT_ENV_READ returns the words of the store (R185),
PRT_STORE_ASSIGN assigns its pages (R186), a frame change that sets
nothing completes with 0x0002 (R183), PRT_FLUX_DC steps or starts a ramp (R188), and the end of a ramp or of an envelope copy, 1 ns after its
beginning for every 32 bytes, ends its command (R166, R176), the contents before the copy going on for the shots that it does not govern
(R165). -/
def Obligations.PortCommandsAndRows : Prop :=
  ∀ (mb : Fin 32) (h : HostSide) (adc : AdcSide) (s : State) (c : Cmd),
    let i := c.arg 0 1
    let clear := bitOf (c.arg 1 1) 0
    (s.begins prtStatusSpec mb h = some c → exec (.prtStatus mb h) s = .next (s.during h c fun x d0 =>
      let d := settleOutput i d0
      okCmd c 0x0300 0 (prtStatusBytes x d i) (!clear)
        (if clear then d.setPort i { d.port i with released := 0, clipped := 0, underrun := 0 } else d))) ∧
    (s.begins (prtAcqStatusSpec adc) mb h = some c → exec (.prtAcqStatus mb h adc) s = .next (s.during h c fun _ d0 =>
      let d := countAdc adc d0
      let wiped := (d.setPort i { d.port i with windows := 0, discarded := 0, overRange := 0 }).forAll (channelsOf i)
        (fun ch d => d.setChan ch { d.chan ch with saturated := 0 })
      okCmd c 0x0300 0 (acqStatusBytes d i) (!clear) (if clear then wiped else d))) ∧
    (s.begins prtEnvReadSpec mb h = some c → exec (.prtEnvRead mb h) s = .next (s.during h c fun x d =>
      replyCmd c 0x0300 ((List.range (c.arg 8 4)).flatMap fun k =>
        le 4 (Store.get 0 d.env (envAddr x.fuse d i (c.arg 4 4 + k))).toNat) d)) ∧
    (s.begins prtStoreAssignSpec mb h = some c →
      exec (.prtStoreAssign mb h) s = .next (s.during h c fun x d => doneCmd c 0x0300 (assignPages x c d))) ∧
    (s.begins prtFrameSetSpec mb h = some c → c.arg 2 1 = 0 →
      exec (.prtFrameSet mb h) s = .next (s.during h c fun _ d => okCmd c 0x0002 0 [] true d)) ∧
    (s.begins prtProbeToneSpec mb h = some c → c.arg 2 1 = 0 →
      exec (.prtProbeTone mb h) s = .next (s.during h c fun _ d => okCmd c 0x0002 0 [] true d)) ∧
    (s.begins prtFluxDcSpec mb h = some c → running s.dev = false → (s.dev.port i).ramp = none → Store.wf {} s.dev.ports = true →
      let p := s.dev.port i
      let dc := dcCode (c.arg 4 4)
      (c.arg 8 4 = 0 → exec (.prtFluxDc mb h) s = .next (s.during h c fun _ d =>
        doneCmd c 0x0300 (d.setPort i { p with dc := dc, target := dc }))) ∧
      (c.arg 8 4 ≠ 0 → exec (.prtFluxDc mb h) s = .next (s.during h c fun _ d =>
        d.setPort i { p with target := dc, ramp := some ⟨p.dc, d.time.raw, c.arg 8 4, c.seq⟩ }))) ∧
    (∀ (port : Fin 97) (r : Ramp), (s.dev.port port).ramp = some r → cmdOf s.dev r.seq = some c → c.dead = false →
      exec (.fluxRampEnd port) s = .next (s.on fun _ d =>
        let d1 := advance (r.ns - (d.time.raw + 2 ^ 64 - r.raw) % 2 ^ 64) d
        journal r.seq (fun d => doneCmd c 0x0300 (d.setPort port { d.port port with dc := (d.port port).target, ramp := none })) d1)) ∧
    (∀ (e : EnvCopy) (rest : List EnvCopy) (a : Nat), s.dev.envCopies = e :: rest → e.start8 = some a → cmdOf s.dev e.seq = some c →
      c.dead = false → exec .envCopyEnd s = .next (s.on fun x d =>
        let end8 := a + e.data.length
        let old := match e.last with | none => d.envPrev | some k => retire k d.env d.envPrev
        startCopy end8 (journal e.seq (fun d => doneCmd c 0x0300 { writeEnv x e.port e.addr e.data d with envCopies := rest, envPrev := old })
          (advance ((end8 + 7) / 8 - d.time.raw) d))))

/-- A DC ramp (R176): at every instant the level of a port stands between where the ramp started and its target, it stands at the start
when the ramp begins, and it has reached the target once the ramp's time has passed. -/
def Obligations.FluxRampRunsFromItsStartToItsTarget : Prop :=
  ∀ (d : Dev) (p : Port) (r : Ramp), p.ramp = some r → d.time.raw < 2 ^ 64 → r.raw < 2 ^ 64 →
    let passed := (d.time.raw + 2 ^ 64 - r.raw) % 2 ^ 64
    (min r.start p.target ≤ dcNow d p ∧ dcNow d p ≤ max r.start p.target) ∧
    (0 < r.ns → d.time.raw = r.raw → dcNow d p = r.start) ∧ (r.ns ≤ passed → dcNow d p = p.target)

/-! Programs and shots (08, 04). -/

/-- Programs (R195, R208 to R218): RAY_STATUS and LOC_READ return their results; PROG_LOAD makes its program resident and counts in IMM
the programs it removed; PROG_START opens shot 0 of a resident program and does nothing where it is asked for no shot; PROG_STOP waits
for the program's end, MODE 0 letting the open shots finish and MODE 1 stopping every ray at once; a program that stops
already goes on stopping as it does. -/
def Obligations.ProgramCommands : Prop :=
  ∀ (mb : Fin 32) (h : HostSide) (s : State) (c : Cmd),
    let run := s.dev.core.run
    let waits (d : Dev) : Dev := { d with core := { d.core with run := { d.core.run with stopSeqs := d.core.run.stopSeqs ++ [c.seq] } } }
    (s.begins rayStatusSpec mb h = some c →
      exec (.rayStatus mb h) s = .next (s.during h c fun _ d => replyCmd c 0x0400 (rayStatusBytes d) d)) ∧
    (s.begins locReadSpec mb h = some c → exec (.locRead mb h) s = .next (s.during h c fun _ d =>
      replyCmd c 0x0400 ((List.range (c.arg 4 4)).flatMap fun i => locusBytes (d.locus (c.arg 0 4 + i))) d)) ∧
    (s.begins progLoadSpec mb h = some c →
      let m := imgOf c
      let gone := removedBy s.dev (c.arg 0 1) (c.arg 4 2) (blocksOf m.codeWords)
      let p : Prog := { base := 4096 * c.arg 4 2, words := m.codeWords, margin := m.margin, rays := m.rays, barriers := m.barriers }
      let code := (imgCode c m).zipIdx.foldl (fun q w => Store.set 0 q (p.base + w.2) (BitVec.ofNat 64 w.1)) s.dev.core.progMem
      let progs := gone.foldl (fun q i => Store.set none q i none) s.dev.core.progs
      exec (.progLoad mb h) s = .next (s.during h c fun _ d => okCmd c 0x0400 gone.length [] false
        { d with core := { d.core with progMem := code, progs := Store.set none progs (c.arg 0 1) (some p) } })) ∧
    (s.begins progStartSpec mb h = some c → ∀ p, s.dev.prog (c.arg 0 1) = some p →
      let cont := bitOf (c.arg 1 1) 1
      let m0 := if bitOf (c.arg 1 1) 0 then c.arg 8 8 else s.dev.time.lat + 20000
      (c.arg 16 8 = 0 → cont = false → exec (.progStart mb h) s = .next (s.during h c fun _ d => okCmd c 0x0002 0 [] true d)) ∧
      (c.arg 16 8 ≠ 0 ∨ cont = true → exec (.progStart mb h) s = .next (s.during h c fun _ d => doneCmd c 0x0400
        (event 50 (c.arg 0 1) 0 (startProgram (c.arg 0 1) p m0 (c.arg 16 8) cont
          (endCalRun Cause.preempted (cancelArmed 0x0216 0xFFFF d))))))) ∧
    (s.begins progStopSpec mb h = some c →
      (running s.dev = false → exec (.progStop mb h) s = .next (s.during h c fun _ d => okCmd c 0x0002 0 [] true d)) ∧
      (running s.dev = true → c.arg 0 1 = 1 → run.stopping ≠ some 1 →
        exec (.progStop mb h) s = .next (s.during h c fun x d => stopNow Cause.stopped 3 x (waits d))) ∧
      (running s.dev = true → (run.stopping = some 1 ∨ c.arg 0 1 = 0 ∧ run.stopping = some 0) →
        exec (.progStop mb h) s = .next (s.during h c fun _ d => waits d)) ∧
      (running s.dev = true → c.arg 0 1 = 0 → run.stopping = none →
        let r1 : Run := { run with stopSeqs := run.stopSeqs ++ [c.seq], stopping := some 0, endReason := 3 }
        exec (.progStop mb h) s = .next (s.during h c fun _ d => { d with core := { d.core with run := r1 } })))

/-- Shots and meridians (R25, R28, R191, R206): the next shot opens when it may, and is counted issued; a deadlock stops every ray with
cause "deadlock"; and a fixed meridian of the running program, with no switch-over gap open and none taking place, ends shot k − 1, closes
the copy epoch and takes the later steps in the order of R28, after it has refused a planned switch-over that the standby cannot take part
in; one that no core runs, in a switch-over gap or after the core has failed (R475), only counts, and advances the schedule: that R28's
later steps wait for the meridian after the gap is the model's own reading (log entry 69). -/
def Obligations.ShotRows : Prop :=
  ∀ (s : State) (adc : AdcSide) (failed : Bool),
    let run := s.dev.core.run
    let k := run.shotNext + 1
    (mayOpen s.dev k = true → pastDecision s.dev k = false → s.dev.wr = [] →
      ∃ t, exec .shotOpen s = .next t ∧ t.dev.core.run = { run with shotNext := k, issued := (run.issued + 1) % 2 ^ 64 } ∧
        t.dev.core.shots = s.dev.core.shots ++ [{ num := k, period := run.period, fails := firstFails s.dev }] ∧
        t.dev.mirror.resume.shot = k ∧ ∀ f ∈ t.dev.core.frameDefer, k ≤ f.1) ∧
    (isDeadlock s.dev = true → exec .deadlockDetect s = .next (s.on fun x d => stopNow Cause.deadlock 4 x d)) ∧
    (running s.dev = true → run.fixed = true → inGap s.dev = false → s.dev.mirror.failed = false →
      let ended (d : Dev) : Dev := outcomeStep run.k (takeMeridian (countAdc adc d))
      (switchesHere (ended s.dev) = false → exec (.meridian adc) s = .next (s.on fun x d =>
        let d1 := ended d
        laterSteps run.k x (closeEpoch d1.mirror.resume x d1))) ∧
      (switchesHere (ended s.dev) = true → plannedFits (ended s.dev) = false → exec (.meridian adc) s = .next (s.on fun x d =>
        let d1 := refuseSwitch (ended d)
        laterSteps run.k x (closeEpoch d1.mirror.resume x d1)))) ∧
    (running s.dev = true → run.fixed = true → inGap s.dev = true ∨ s.dev.mirror.failed = true ∨ failed = true → s.dev.wr = [] →
      ∃ t, exec (.meridian adc failed) s = .next t ∧
      t.dev.core.run.k = run.k + 1 ∧ t.dev.time.merid = t.dev.time.lat ∧ t.dev.core.rays = s.dev.core.rays)

/-! Ray instructions (08). -/

/-- The ray instructions that issue no token, each on a ray whose next word it is (R190, R204, R205, R223, R230 to R237): what becomes
of the ray's program counter, cursor, loop stack, shot and registers; no other ray and nothing else changes, but that HALT and BARR
let go the barriers whose members have then all arrived. That MERID waits for the opening of the shot it ends is the model's own reading (log
entry 20). -/
def Obligations.RayControlInstructions : Prop :=
  ∀ (r : Fin 128) (w : Nat) (s : State), rayAt s.dev r w → s.dev.wr = [] →
    let y := s.dev.ray r
    let op := w / 2 ^ 56
    let at1 : Ray := { y with st := .running, pc := y.pc + 1 }
    let G (n : Nat) : BitVec 64 := Store.get 0 y.g n
    let goes (i : Instr) (y1 : Ray) : Prop := exec i s = .next { s with dev := s.dev.setRay r y1 }
    let T : BitVec 64 := if bitOf w 55 then G (bits w 51 48) else BitVec.ofNat 64 (bits w 47 0)
    (op = 0x01 → exec (.rayHalt r) s = .next (s.on fun _ d => releaseBarriers { d with core := { d.core with
      rays := Store.set {} d.core.rays r { y with st := .halted }
      run := { d.core.run with lastHalt := max d.core.run.lastHalt y.shot } } })) ∧
    (op = 0x02 → isOpened s.dev y.shot = true → y.shot = 0 ∨ meridianPassed s.dev y.shot = true → s.dev.core.run.stopping ≠ some 0 → (∀ n, shotLimit s.dev = some n → y.shot + 1 < n) →
      goes (.rayMerid r) { at1 with c := 0, shot := y.shot + 1 }) ∧
    (op = 0x02 → isOpened s.dev y.shot = false ∨ (1 ≤ y.shot ∧ meridianPassed s.dev y.shot = false) ∨ s.dev.core.run.stopping = some 0 ∨ (∃ n, shotLimit s.dev = some n ∧ n ≤ y.shot + 1) →
      goes (.rayMerid r) { y with st := .merid }) ∧
    (op = 0x03 → exec (.rayBarr r) s = .next (s.on fun _ d =>
      releaseBarriers (d.setRay r { y with st := .barrier (bits w 55 52) (bitOf w 51) }))) ∧
    (op = 0x08 → goes (.rayAt r) { at1 with c := T }) ∧
    (op = 0x09 → goes (.rayWait r) { at1 with c := y.c + T }) ∧
    (op = 0x20 → let n := if bitOf w 55 then (G (bits w 51 48)).toNat % 2 ^ 32 else bits w 23 0
      (n = 0 → goes (.rayLoop r) { at1 with pc := bits w 43 24 + 1 }) ∧
      (n ≠ 0 → goes (.rayLoop r) { at1 with loops := (n, y.pc + 1) :: y.loops })) ∧
    (∀ n start rest, op = 0x21 → y.loops = (n, start) :: rest →
      (n ≤ 1 → goes (.rayEndl r) { at1 with loops := rest }) ∧
      (1 < n → goes (.rayEndl r) { at1 with pc := start, loops := (n - 1, start) :: rest })) ∧
    (op = 0x24 → goes (.rayJump r) { at1 with pc := bits w 19 0 }) ∧
    (op = 0x25 → let b := if bitOf w 47 then G (bits w 43 40) else BitVec.ofInt 64 (signed 20 (bits w 19 0))
      goes (.rayBr r) (if brHolds (bits w 55 52) (G (bits w 51 48)) b then { at1 with pc := bits w 39 20 } else at1)) ∧
    (op = 0x30 → let v : BitVec 64 := match bits w 51 50 with
        | 0 => BitVec.ofInt 64 (signed 48 (bits w 47 0))
        | 1 => BitVec.ofNat 16 (bits w 15 0) ++ (G (bits w 55 52)).setWidth 48
        | 2 => y.c
        | _ => BitVec.ofNat 64 y.shot
      goes (.raySetg r) { at1 with g := Store.set 0 y.g (bits w 55 52) v }) ∧
    (op = 0x31 → let b := if bitOf w 47 then G (bits w 43 40) else BitVec.ofInt 64 (signed 40 (bits w 39 0))
      goes (.rayAddg r) { at1 with g := Store.set 0 y.g (bits w 55 52) (G (bits w 51 48) + b) })

/-- The ray instructions that issue a token, in a shot that has opened (R191, R224 to R229, R333): the token enters the fabric at the
cursor with the locus, operand or window of the word, the cursor moves on where the instruction says, and a window whose gate is shut
holds its ray; a ray whose release queue is full waits, as does one whose shot has not opened. A locus index beyond 40,959 is a
discarded item (R202). FRAME_TOKEN_APPLY takes the ray's oldest token to its frame: a SETF or VZ token is done with. -/
def Obligations.RayTokenInstructions : Prop :=
  ∀ (r : Fin 128) (w : Nat) (s : State), s.dev.wr = [] →
    let y := s.dev.ray r
    let op := w / 2 ^ 56
    let at1 : Ray := { y with st := .running, pc := y.pc + 1 }
    let ready := rayAt s.dev r w ∧ isOpened s.dev y.shot = true
    let waits (i : Instr) (st : RayState) : Prop := exec i s = .next { s with dev := s.dev.setRay r { y with st := st } }
    let full (q : Nat) : Prop := 64 ≤ (s.dev.stage q).queue.length
    let issues (i : Instr) (t : Tok) (y1 : Ray) : Prop := exec i s = .next { s with dev := issue t (s.dev.setRay r y1) }
    let frame := driveFrame (bits w 55 50) (bits w 49 48)
    let tok (k : TokKind) (v : Nat) : Tok := { kind := k, ray := r, shot := y.shot, stage := bits w 55 50, frame := frame, operand := v }
    (∀ stream : Bool, ready → op = (if stream then 0x11 else 0x10) →
      let i := if stream then Instr.rayPlays r else Instr.rayPlay r
      let ix := if bitOf w 55 then (Store.get 0 y.g (bits w 51 48)).toNat else bits w 15 0
      let l := s.dev.locus ix
      (ix ≤ 40959 → ¬full l.port → l.flags.getLsbD 4 = stream →
        issues i (playTok r y ix l false) { at1 with c := y.c + BitVec.ofNat 64 l.duration }) ∧
      (ix ≤ 40959 → ¬full l.port → l.flags.getLsbD 4 ≠ stream → issues i (playTok r y ix l true) at1) ∧
      (ix ≤ 40959 → full l.port → waits i .blocked) ∧
      (let lost : Tok := { kind := .play, ray := r, shot := y.shot, voff := y.c.toNat, locusIx := ix }
       (40959 < ix → exec i s = .next (s.on fun _ d => discardItem Cause.badLocus lost (d.setRay r at1))))) ∧
    (ready → op = 0x14 → issues (.raySetf r) (tok .setf (if bitOf w 47 then (Store.get 0 y.g (bits w 3 0)).toNat % 2 ^ 47 else bits w 46 0)) at1) ∧
    (ready → op = 0x15 → issues (.rayVz r) (tok .vz (if bitOf w 47 then (Store.get 0 y.g (bits w 35 32)).toNat % 2 ^ 32 else bits w 31 0)) at1) ∧
    (ready → op = 0x18 →
      let stage := 84 + bits w 55 52
      let chan := 16 * bits w 55 52 + bits w 51 48
      let c1 := if bitOf w 46 then y.c + BitVec.ofNat 64 (4096 * bits w 16 0) else y.c
      (¬full stage →
        let window : Tok := {
          kind := .window, ray := r, shot := y.shot, stage := stage, voff := y.c.toNat, chan := chan, len := bits w 16 0
          trace := bitOf w 47, framed := true, held := gateShut s.dev stage, ordinal := unarrived s.dev.core.run.windows.length }
        ∃ t, exec (.rayAcq r) s = .next t ∧ t.dev.core.fabric = s.dev.core.fabric ++ [window] ∧
          t.dev.core.run.windows = s.dev.core.run.windows ++
            [{ shot := y.shot, chan := chan, voff := y.c.toNat, place := window.ordinal }] ∧ t.dev.core.rays =
          Store.set {} s.dev.core.rays r { at1 with c := c1, st := if gateShut s.dev stage then .blocked else .running }) ∧
      (full stage → waits (.rayAcq r) .blocked)) ∧
    (ready → op = 0x1C →
      let mark : Tok := {
        kind := .mark, ray := r, shot := y.shot, stage := 96, voff := y.c.toNat, framed := true, addr := bits w 15 0, count := bits w 48 32 }
      (¬full 96 → issues (.rayMark r) mark at1) ∧
      (full 96 → waits (.rayMark r) .blocked)) ∧
    (rayAt s.dev r w → isOpened s.dev y.shot = false →
      (op = 0x10 → waits (.rayPlay r) .opening) ∧ (op = 0x11 → waits (.rayPlays r) .opening) ∧ (op = 0x14 → waits (.raySetf r) .opening) ∧
      (op = 0x15 → waits (.rayVz r) .opening) ∧ (op = 0x18 → waits (.rayAcq r) .opening) ∧ (op = 0x1C → waits (.rayMark r) .opening) ∧
      (op = 0x28 → waits (.rayDecide r) .opening)) ∧
    (∀ i t, s.dev.core.fabric.findIdx? (fun t => t.ray = r.val && !t.framed) = some i → s.dev.core.fabric[i]? = some t →
      let f := s.dev.frame t.frame
      let rest := s.dev.core.fabric.eraseIdx i
      let done (f1 : Frame) : Prop := exec (.frameTokenApply r) s = .next { s with dev := { s.dev with
        core := { s.dev.core with frames := Store.set {} s.dev.core.frames t.frame f1, fabric := rest } } }
      (t.kind = .setf → done (setFreq s.dev t.operand f)) ∧
      (t.kind = .vz → done { f with z := (f.z + t.operand) % 2 ^ 32 }))

/-- DECIDE (R235, R317 to R319): where every enabled selector of its table has received a chord with a state, at once or when the last
comes, the entry the table's index picks goes into GD and the ray goes on; at the table's deadline with no missing marker but a chord
still absent, FALLBACK goes into GD and the late fallback is counted. -/
def Obligations.DecideWritesItsEntryOrItsFallback : Prop :=
  ∀ (r : Fin 128) (w gd tb : Nat) (s : State), Store.wf {} s.dev.core.rays = true →
    let y := s.dev.ray r
    let t := tableFor s.dev tb y.shot
    let asks := (selectors t).filter selEn
    let entry := (Store.get 0 t.entries (tableIndex s.dev t y.shot)).toNat
    let left (i : Instr) (v : Nat) (f : Chords → Chords) : Prop := ∃ u, exec i s = .next u ∧
      u.dev.ray r = { y with st := .running, pc := y.pc + 1, g := Store.set 0 y.g gd (BitVec.ofNat 64 v) } ∧
      u.dev.chords = f s.dev.chords ∧ (∀ q : Fin 128, q ≠ r → u.dev.ray q = s.dev.ray q)
    ((∀ q ∈ asks, ∃ e, chordFor s.dev q y.shot = some e ∧ e.state.isSome = true) →
      (rayAt s.dev r w → w / 2 ^ 56 = 0x28 → bits w 55 52 = gd → bits w 51 46 = tb → isOpened s.dev y.shot = true →
        left (.rayDecide r) entry (fun n => { n with decisions := (n.decisions + 1) % 2 ^ 64 })) ∧
      (y.st = .chord gd tb → raysRun s.dev = true →
        left (.decideResolve r) entry (fun n => { n with decisions := (n.decisions + 1) % 2 ^ 64 }))) ∧
    ((∀ q ∈ asks, ∀ e, chordFor s.dev q y.shot = some e → e.state.isSome = true) → (∃ q ∈ asks, chordFor s.dev q y.shot = none) →
      y.st = .chord gd tb → raysRun s.dev = true → (fixedMer s.dev y.shot).isSome = true →
      left (.decideDeadline r) t.fallback (fun n => { n with fbLate := (n.fbLate + 1) % 2 ^ 64 }))

/-- Of the rows of ray instructions, SETG, ADDG and DECIDE alone write general registers, and only those of the ray that executes them
(R238): whichever of the rows RAY_HALT to RAY_ADDG, DECIDE_RESOLVE, DECIDE_DEADLINE and FRAME_TOKEN_APPLY runs, a register that changes is a
register of that ray, and the row is one of these three, or resolves its DECIDE. Of other rows, such as PROG_START, which sets every
register to 0, this says nothing. -/
def Obligations.OnlySetgAddgAndDecideWriteARegister : Prop :=
  ∀ (i : Instr) (q : Fin 128) (n : Nat) (s t : State), Store.wf {} s.dev.core.rays = true →
    (match i with
      | .rayHalt _ | .rayMerid _ | .rayBarr _ | .rayAt _ | .rayWait _ | .rayPlay _ | .rayPlays _ | .raySetf _ | .rayVz _ | .rayAcq _
      | .rayMark _ | .rayLoop _ | .rayEndl _ | .rayJump _ | .rayBr _ | .rayDecide _ | .raySetg _ | .rayAddg _ | .decideResolve _
      | .decideDeadline _ | .frameTokenApply _ => True
      | _ => False) →
    exec i s = .next t → Store.get 0 (t.dev.ray q).g n ≠ Store.get 0 (s.dev.ray q).g n →
    i = .raySetg q ∨ i = .rayAddg q ∨ i = .rayDecide q ∨ i = .decideResolve q ∨ i = .decideDeadline q

/-! Release stages, read-out and chords (04, 06, 09). -/

/-- Items at their release stages (R24, R134, R166, R169, R207, R333): an item of the fabric whose frame part is done reaches its stage and
takes its place in vertex order, or is discarded with its cause; the head of a queue is released at a fixed vertex of a meridian that has
passed, and with it up to `more` items of equal vertex (R133); a jump is compared at its commit point; a stream item that needs data takes
up to 1,024 samples where the buffer has room. A release queue stays in vertex order (R133): where every vertex is known, an item put into
an ordered queue leaves it ordered, and the queue holds that item and what it held before. An arriving item brings the samples of its
template (R153, R162), a refill those of its segment (R169); a window that passes its gate lets its ray go on (R333), and it stands, for its
ordinal, behind those of equal vertex that have arrived before it (R133, R310). An item discarded on arrival ends a sense test of its port
(R432). How many of equal vertex go with the head, and which cause a discard on arrival has where several hold, are the model's choices (log
entries 123, 101). -/
def Obligations.ItemRows : Prop :=
  (∀ (n more : Nat) (port : Fin 97) (h : HostSide) (t : Tok) (rest : List Tok) (s : State), s.dev.wr = [] →
     let placed := if t.kind = .window then placeWindow t s.dev.core.run else (s.dev.core.run, t)
     let t1 := { placed.2 with arrival := some s.dev.time.lat, held := false, data := if readsStore t then template s.fuse s.dev t else t.data }
     let gone (d : Dev) : Dev :=
       let d1 := passGate t { d with core := { d.core with fabric := d.core.fabric.eraseIdx n } }
       noteShadow t1 { d1 with core := { d1.core with run := placed.1 } }
     let stage := s.dev.stage t.stage
     let q := s.dev.stage port
     (s.dev.core.fabric[n]? = some t → t.kind.isItem = true → t.framed = true → stage.queue.length < 64 → gateClosed s.dev t = false →
       readHeld s.dev t = false → tokensRun s.dev = true →
       (arrivalDiscard (gone s.dev) t1 = none →
         let place := (gone s.dev).stage t.stage
         exec (.itemArrival n) s =
           .next { s with dev := (gone s.dev).setStage t.stage { place with queue := insertItem (gone s.dev) t1 place.queue } }) ∧
       (∀ cause, arrivalDiscard (gone s.dev) t1 = some cause →
         exec (.itemArrival n) s = .next (s.on fun _ d => discardItem cause t1 (noteCut t.stage (gone d))))) ∧
     (s.dev.core.fabric[n]? = some t → t.kind = .window ∧ gateClosed s.dev t = true ∨ 64 ≤ stage.queue.length ∨ t.framed = false ∨
       readHeld s.dev t = true → exec (.itemArrival n) s = .next s) ∧
     (q.queue = t :: rest → s.dev.hif.lock = true → jumpWaiting s.dev port ≠ some t → (∃ v, vertexOf s.dev t = some (v, false)) →
       (running s.dev = true → meridianPassed s.dev t.shot = true) →
       exec (.itemRelease port more) s =
         .next (s.on fun x d => releaseEqual port (headVertex port s.dev) x more (settleOutput port (releaseHead t d)))) ∧
     (s.dev.hif.lock = false → exec (.itemRelease port more) s = .next s) ∧
     (jumpWaiting s.dev port = some t → exec (.jumpCommitCheck port) s = .next (s.on fun _ d => jumpCheck t d)) ∧
     (q.queue = t :: rest → q.playing = [] → Store.wf {} s.dev.stages = true → (∀ u ∈ s.dev.core.fabric, u.stage ≠ port.val) → h.ecc = [] →
       needsFill t = true → ((q.queue.filter (fun u => u.kind = .play)).map (buffered s.dev)).sum + min 1024 (t.len - t.got) ≤ 8192 →
       let new := min 1024 (t.len - t.got)
       let samples := (List.range new).map fun j => streamSample (s.sync h).ctx port t (t.got + j)
       ∃ u, exec (.streamBlockRefill port h) s = .next u ∧ (u.dev.stage port).queue =
         q.queue.map (fun p => if p = t then { t with got := t.got + new, data := t.data ++ samples } else p))) ∧
  (∀ (d : Dev) (t : Tok) (queue : List Tok), (∀ q ∈ t :: queue, ∃ v, vertexOf d q = some v) →
     queue.Pairwise (fun a b => notAfter d a b = true) →
     (insertItem d t queue).Pairwise (fun a b => notAfter d a b = true) ∧ (insertItem d t queue).Perm (t :: queue))

/-- Read-out and chord commands that are not staged return their results (R274, R330, R332), clearing counters where CLEAR asks; and the
state instant of a window (R257 to R263) ends it: the window goes from its stage, the state counts for its channel and its port, and the
state is that of the boundaries that hold, on the samples that the channel forms of its converter's codes; saturated samples count while
the window's shot is undecided (R253). -/
def Obligations.ReadoutAndChordRows : Prop :=
  ∀ (mb : Fin 32) (h : HostSide) (s : State) (c : Cmd),
    (s.begins roChReadSpec mb h = some c →
      exec (.roChRead mb h) s = .next (s.during h c fun x d => roChReadSpec.act x c d) ∧
      (bitOf (c.arg 2 1) 1 = true → s.dev.wr = [] → Store.wf {} s.dev.chans = true → ∃ t, exec (.roChRead mb h) s = .next t ∧
        t.dev.chan c.chanArg = { s.dev.chan c.chanArg with windows := 0, states := [] })) ∧
    (s.begins chTableReadSpec mb h = some c →
      let t := Store.get {} s.dev.core.tables (c.arg 0 1)
      exec (.chTableRead mb h) s = .next (s.during h c fun _ d => replyCmd c 0x0500
        (le 1 (c.arg 0 1) ++ zeros 7 ++ le 8 t.deadline ++ le 4 t.fallback ++ zeros 12 ++ (selectors t).flatMap (le 4) ++
          (List.range 256).flatMap (fun i => le 4 (Store.get 0 t.entries i).toNat)) d)) ∧
    (s.begins chStatusSpec mb h = some c →
      let n := s.dev.chords
      let out := le 1 s.dev.domain.dev ++ zeros 7 ++ le 8 n.fastSent ++ le 8 n.slowSent ++ le 8 n.missingSent ++ le 8 n.remoteRecv ++
        le 8 n.decisions ++ le 8 n.fbMissing ++ le 8 n.fbLate ++ le 8 n.slotDefer ++ le 8 s.dev.time.lat ++ zeros 8
      exec (.chStatus mb h) s = .next (s.during h c fun _ d =>
        if bitOf (c.arg 0 1) 0 then okCmd c 0x0500 0 out false { d with chords := { store := n.store } } else okCmd c 0x0500 0 out true d)) ∧
    (∀ (chan : Fin 192) (adc tail : List (BitVec 12)) (t : Tok) (stage : Nat), stage = 84 + chan.val / 16 →
      (s.dev.stage stage).playing.find? (fun u => u.chan = chan.val) = some t → t.stage = stage → t.chan = chan.val →
      Store.wf {} s.dev.chans = true → Store.wf {} s.dev.ports = true → Store.wf {} s.dev.stages = true →
      let g := chanFor (s.dev.chan chan) t.shot
      let e := noteBusy stage (advanceTo (((eighths (vertexFine s.dev t) + 7) / 8 + t.len + filterLatency g.filter) % 2 ^ 64) s.dev)
      let xs := channelSamples e chan g t.trim (eighths (vertexFine e t)) t.len (adc ++ tail)
      let ix := boundIndex g (integrate g (xs.map (·.1)))
      let st := bits g.map (2 * ix + 1) (2 * ix)
      let q := s.dev.chan chan
      ∃ u, exec (.stateInstant chan adc tail) s = .next u ∧ (u.dev.stage stage).playing = (s.dev.stage stage).playing.erase t ∧
        (u.dev.chan chan).windows = (q.windows + 1) % 2 ^ 64 ∧
        (u.dev.chan chan).states = Store.set 0 q.states st ((Store.get 0 q.states st + 1) % 2 ^ 32) ∧
        (u.dev.port stage).lastBusy = (e.port stage).lastBusy ∧ (u.dev.port stage).windows = ((s.dev.port stage).windows + 1) % 2 ^ 64 ∧
        (q.saturated < 2 ^ 32 → (shotOf s.dev t.shot).isSome = true →
          (u.dev.chan chan).saturated = (q.saturated + (xs.filter (·.2)).length) % 2 ^ 32))

/-! Read-out processors (10). -/

/-- The commands of the read-out processors and what ends a kernel (R290, R296, R301 to R308): reads and status return their results,
writes and a load change memory and kernel, RP_RUN starts the kernel in the state of R275, paused where bulk copying is throttled; RP_STOP
ends a standalone run, is staged for an attached one, detaching one that is drained at once, with every RP_STOP that waits for it, and else
changes nothing; a run that reaches MAX_US ends with 0x0615, and a
detaching kernel that waits with an empty queue is detached, which ends every RP_STOP that asked for it. -/
def Obligations.RpCommandsAndRows : Prop :=
  ∀ (mb : Fin 32) (h : HostSide) (s : State) (c : Cmd) (p : Fin 12),
    let a := c.arg 0 1
    let r := s.dev.rp a
    let own := s.dev.rp p
    (s.begins rpStatusSpec mb h = some c →
      exec (.rpStatus mb h) s = .next (s.during h c fun x d => rpStatusSpec.act x c d) ∧
      (bitOf (c.arg 1 1) 0 = true → s.dev.wr = [] → Store.wf {} s.dev.core.rps = true → ∃ t, exec (.rpStatus mb h) s = .next t ∧
        t.dev.rp a = { r with taken := 0, dropped := 0, emitted := 0 })) ∧
    (s.begins rpMemWriteSpec mb h = some c → exec (.rpMemWrite mb h) s = .next (s.during h c fun x d =>
      doneCmd c 0x0600 (d.setRp a { r with mem := putWords r.mem (c.arg 2 2) (memWords x c) }))) ∧
    (s.begins rpMemReadSpec mb h = some c → exec (.rpMemRead mb h) s = .next (s.during h c fun _ d =>
      replyCmd c 0x0600 ((List.range (c.arg 4 4)).flatMap fun i => le 4 (r.word (c.arg 2 2 + i))) d)) ∧
    (s.begins rpLoadSpec mb h = some c → ∀ cy loop, kernelFail (kernelCode c) (c.arg 1 1 = 1) (c.arg 8 2) = .ok (cy, loop) →
      let slow := if c.arg 1 1 = 1 then slowNs cy else 0
      let k : Kernel := {
        post := decide (c.arg 1 1 = 1), tag := c.arg 2 2, base := c.arg 4 2, words := c.arg 6 2, entry := c.arg 8 2
        cycles := cy, cyclesLoop := loop, slowNs := slow }
      exec (.rpLoad mb h) s = .next (s.during h c fun _ d =>
        okCmd c 0x0600 slow (le 4 cy ++ le 4 loop ++ le 4 slow ++ zeros 4) false
          (d.setRp a { r with kernel := some k, mode := .idle, mem := putWords r.mem k.base (kernelCode c) }))) ∧
    (s.begins rpRunSpec mb h = some c → ∀ k, r.kernel = some k →
      let mode := if (s.dev.slackOf s.dev.hif.core).throttled then RpMode.paused else RpMode.running
      exec (.rpRun mb h) s = .next (s.during h c fun _ d => 
        d.setRp a { r.fresh k with mode := mode, maxUs := c.arg 4 4, seq := c.seq, startLat := d.time.raw, pausedAt := d.time.raw })) ∧
    (s.begins rpStopSpec mb h = some c →
      (r.mode = .running ∨ r.mode = .paused →
        exec (.rpStop mb h) s = .next (s.during h c fun _ d => doneCmd c 0x0600 (endRun a 0x0616 d))) ∧
      (r.mode = .attached → running s.dev = true →
        exec (.rpStop mb h) s = .next (s.during h c fun _ d => putCmd { c with staged := true } d)) ∧
      (r.mode = .attached → running s.dev = false → r.drained = true → r.detaching = false → Store.wf {} s.dev.core.rps = true →
        exec (.rpStop mb h) s = .next (s.during h c fun _ d => doneCmd c 0x0600 (d.setRp a { r with mode := .idle, detachSeqs := [] }))) ∧
      (r.mode = .attached → running s.dev = false → r.drained = true → r.detaching = true → Store.wf {} s.dev.core.rps = true →
        exec (.rpStop mb h) s = .next (s.during h c fun _ d => doneCmd c 0x0600
          (r.detachSeqs.foldl (fun d n => endSeq (some n) (fun c d => doneCmd c 0x0600 d) d)
            (d.setRp a { r with mode := .idle, detaching := false, detachSeqs := [] })))) ∧
      (r.mode = .idle ∨ r.mode = .none → stagedCmds s.dev = [] → c.staged = false →
        exec (.rpStop mb h) s = .next (s.during h c fun _ d => okCmd c 0x0002 0 [] true d))) ∧
    (s.begins rpApplySpec mb h = some c →
      let c1 := { c with payload := applyPayload s.dev c, aux := c.arg 1 1 }
      (running s.dev = true → exec (.rpApply mb h) s = .next (s.during h c fun _ d => putCmd { c1 with staged := true } (putCmd c1 d))) ∧
      (running s.dev = false → exec (.rpApply mb h) s = .next (s.during h c fun _ d =>
        doneCmd c1 0x0600 (if c.arg 1 1 = 0 then applyWeights c1 (putCmd c1 d) else applyDisc c1 (putCmd c1 d))))) ∧
    (own.mode = .running →
      exec (.rpMaxUsExpiry p) s = .next (s.on fun _ d => endRun p 0x0615 (advance (1000 * own.maxUs - own.ranNs d.time.raw) d))) ∧
    (own.mode = .attached → own.detaching = true → own.queue = [] → own.waiting = true →
      let idle (d : Dev) : Dev := d.setRp p { own with mode := .idle, detaching := false, detachSeqs := [] }
      exec (.rpDetachComplete p) s = .next (s.on fun _ d =>
        own.detachSeqs.foldl (fun d n => endSeq (some n) (fun c d => doneCmd c 0x0600 d) d) (idle d)) ∧
      (∀ n, own.detachSeqs = [n] → cmdOf s.dev n = some c → c.dead = false →
        exec (.rpDetachComplete p) s = .next (s.on fun _ d => doneCmd c 0x0600 (idle d))))

/-- The instructions of a read-out processor that runs its kernel, each where it is the next word (R278, R286, R287, R291): the processor
goes on at the next word with the instruction's cycles counted, but that JMP and DJNZ go to their target, REP takes the repeated word's
effect N times and its cycles N times, WAITR takes the oldest result or waits, and HALT ends the run; and none of these changes anything
else. EMIT (R284, R292, R294) offers the 32-byte post record of the result to POST_RING, which fails the result's shot where the record
carries a cause, counts an INVALID record for that shot, and with CHORD set sends the state, or a missing marker, on the slow chord of the
result's channel, ordinal and shot. -/
def Obligations.RpInstructions : Prop :=
  ∀ (p : Fin 12) (k : Kernel) (w : Nat) (s : State), rpAt s.dev p k w → s.dev.wr = [] →
    let r := s.dev.rp p
    let op := bits w 31 24
    let goes (i : Instr) (r1 : Rp) : Prop := exec i s = .next { s with dev := s.dev.setRp p r1 }
    let plain (i : Instr) (r1 : Rp) : Prop := goes i { r1 with pc := r1.pc + 1, cycles := r1.cycles + cyclesOf w }
    let one : Rp := { r with pc := r.pc + 1, cycles := r.cycles + 1 }
    let n := bits w 23 21
    let ptr := Store.get ({} : Ptr) r.ptr n
    let count := Store.get 0 r.c (bits w 23 22)
    (op = 0x01 → exec (.rpHalt p) s = .next (s.on fun _ d =>
      endRun p r.haltStatus (d.setRp p { r with cycles := r.cycles + 1 }))) ∧
    (op = 0x02 → plain (.rpNop p) r) ∧
    (op = 0x04 → goes (.rpRep p) { iterate (repeatOnce (r.fetch k (r.pc + 1))) (bits w 15 0) r with
      pc := r.pc + 2, cycles := r.cycles + 1 + bits w 15 0 * cyclesRep (r.fetch k (r.pc + 1)) }) ∧
    (op = 0x08 → goes (.rpJmp p) { one with pc := bits w 13 0 }) ∧
    (op = 0x09 → (2 ≤ count → goes (.rpDjnz p) { one with c := Store.set 0 r.c (bits w 23 22) (count - 1), pc := bits w 13 0 }) ∧
      (count < 2 → goes (.rpDjnz p) { one with c := Store.set 0 r.c (bits w 23 22) 0 })) ∧
    (op = 0x0A → plain (.rpLdc p) { r with c := Store.set 0 r.c (bits w 23 22) (bits w 15 0) }) ∧
    (op = 0x10 → plain (.rpSetp p) { r with ptr := Store.set {} r.ptr n { ptr with addr := bits w 13 0 } }) ∧
    (op = 0x11 → let q : Ptr := { ptr with mode := bits w 20 19, k := bits w 18 15, step := signed 15 (bits w 14 0) }
      plain (.rpCfgp p) { r with ptr := Store.set {} r.ptr n q }) ∧
    (op = 0x18 → plain (.rpClr p) (clrOnce w r)) ∧
    (op = 0x19 → 
      let ovf := r.ovf &&& ~~~(BitVec.ofNat 4 (bits w 3 0))
      plain (.rpClrf p) { r with ovf := ovf, satst := r.satst && !bitOf w 4, codew := r.codew && !bitOf w 5 }) ∧
    (op = 0x20 → plain (.rpMac p) (macOnce w r)) ∧ (op = 0x21 → plain (.rpCmac p) (cmacOnce w r)) ∧
    (op = 0x22 → plain (.rpLda p) (loadOnce false w r)) ∧ (op = 0x23 → plain (.rpAdda p) (loadOnce true w r)) ∧
    (op = 0x24 → plain (.rpAddac p) (addacOnce w r)) ∧ (op = 0x25 → plain (.rpShra p) (shraOnce w r)) ∧
    (op = 0x28 → plain (.rpSt p) (stOnce w r)) ∧ (op = 0x29 → plain (.rpStc p) (stcOnce w r)) ∧ (op = 0x2A → plain (.rpMovw p) (movwOnce w r)) ∧
    (op = 0x2C → let m : BitVec 2 := if bitOf w 0 then 2 else 1
      plain (.rpSgn p) { r with state := if 0 ≤ r.accOf (bits w 22 21) then r.state ||| m else r.state &&& ~~~m }) ∧
    (∀ q rest, op = 0x30 → r.queue = q :: rest →
      goes (.rpWaitr p) { (r.setAcc 0 q.i).setAcc 1 q.q with
        pc := r.pc + 1, cycles := r.cycles + 1, queue := rest, waiting := false, res := q, state := 0, taken := (r.taken + 1) % 2 ^ 64 }) ∧
    (op = 0x30 → r.queue = [] → goes (.rpWaitr p) { r with waiting := true }) ∧
    (op = 0x31 → Store.wf {} s.dev.core.rps = true → ∃ t, exec (.rpEmit p) s = .next t ∧
      t.dev.rp p = { one with emitted := (r.emitted + 1) % 2 ^ 64 } ∧ t.ddr = s.ddr) ∧
    (op = 0x31 →
      let q := r.res
      let st := if bitOf w 1 then q.state % 4 else r.state.toNat
      let bad := decide (r.ovf ≠ 0)
      let a := if bitOf w 0 then 2 else 0
      let cause := if q.cause ≠ 0 then q.cause else if bad then Cause.overflow else 0
      let flags := st + flag bad 2 + flag (bitOf w 2 && !bad && decide (q.ordinal < 4)) 3 + flag (bitOf w 1) 4
      let offer : Offer := {
        bytes := le 6 q.shot ++ le 1 q.chan ++ le 1 flags ++ leI 8 (r.accOf a) ++ leI 8 (r.accOf (a + 1)) ++ le 2 cause ++ le 2 k.tag ++
          le 4 (s.dev.time.lat - q.lat).toNat
        kind := false, shot := some q.shot, inst := 0x100 + q.chan, at4096 := nowFine s.dev, cause := cause }
      let fails : ShotFail := { at4096 := nowFine s.dev, inst := 0x100 + q.chan, cause := cause, detail := 0 }
      let count (d : Dev) : Dev :=
        if bad then onShot q.shot (fun s => { s with rpOverflow := Store.set 0 s.rpOverflow p (Store.get 0 s.rpOverflow p + 1) }) d else d
      exec (.rpEmit p) s = .next (s.on fun _ d =>
        let d1 := count (d.setRp p { one with emitted := (r.emitted + 1) % 2 ^ 64 })
        let d2 := offerResult r.postRing offer (if cause = 0 then d1 else failShot q.shot fails 1 d1)
        if bitOf w 2 then sendChord true q.chan q.ordinal q.shot (if bad then none else some (BitVec.ofNat 2 st)) d2 else d2))

/-- What the arithmetic of a read-out processor leaves (R280 to R285, R287): MAC adds or subtracts the product of its two operands, ADDA
and ADDAC add to the accumulator and LDA loads it, SHRA rounds half up, each saturated at 48 bits with the accumulator's OVF bit set where
the result did not fit; ST writes the low half, the high half or the whole word of its address, saturated; ST and STC set SATST exactly where
a rounded value does not fit its store, and else leave it; CLR clears the
accumulators it names; and a word of the kernel's own code is never written, but sets CODEW. -/
def Obligations.RpArithmetic : Prop :=
  ∀ (w : Nat) (r : Rp), Store.wf 0 r.acc = true → Store.wf 0 r.mem = true →
    let a := bits w 22 21
    let neg := bitOf w 23
    let x := inFormat (bits w 16 15) (r.word (r.access (bits w 20 15)).1)
    let y := inFormat (bits w 10 9) (r.word ((r.access (bits w 20 15)).2.access (bits w 14 9)).1)
    let sum (keep : Int) (v : Int) : Int := if neg then keep - v else keep + v
    let acc (r1 : Rp) (v : Int) : Prop := r1.accOf a = satTo 48 v ∧ (∀ b, b < 4 → b ≠ a → r1.accOf b = r.accOf b) ∧
      (∀ b, b < 4 → r1.ovf.getLsbD b = (r.ovf.getLsbD b || (decide (b = a) && decide (satTo 48 v ≠ v)))) ∧ r1.mem = r.mem
    let at_ := (r.access (bits w 20 15)).1
    let stored (n : Nat) : Nat := (satTo n (r.rounded a (bits w 13 8)) % 2 ^ 32).toNat
    let width := match bits w 16 15 with | 2 => 18 | 3 => 32 | _ => 16
    let tooBig (n acc sh : Nat) : Bool := decide (satTo n (r.rounded acc sh) ≠ r.rounded acc sh)
    let pair := if bitOf w 22 then 2 else 0
    let inCode (b : Nat) : Prop := ∃ k, r.kernel = some k ∧ k.base ≤ b ∧ b < k.base + k.words
    acc (macOnce w r) (sum (r.accOf a) (x * y)) ∧
    acc (loadOnce false w r) (sum 0 (x * 2 ^ bits w 13 8)) ∧ acc (loadOnce true w r) (sum (r.accOf a) (x * 2 ^ bits w 13 8)) ∧
    acc (addacOnce w r) (sum (r.accOf a) (r.accOf (bits w 20 19))) ∧ acc (shraOnce w r) (r.rounded a (bits w 5 0)) ∧
    (¬inCode at_ →
      (bits w 16 15 = 0 → (stOnce w r).word at_ = r.word at_ / 2 ^ 16 * 2 ^ 16 + stored 16 % 2 ^ 16) ∧
      (bits w 16 15 = 1 → (stOnce w r).word at_ = stored 16 % 2 ^ 16 * 2 ^ 16 + r.word at_ % 2 ^ 16) ∧
      (bits w 16 15 = 2 → (stOnce w r).word at_ = stored 18) ∧ (bits w 16 15 = 3 → (stOnce w r).word at_ = stored 32) ∧
      ∀ b, b ≠ at_ → (stOnce w r).word b = r.word b) ∧
    (stOnce w r).satst = (r.satst || tooBig width a (bits w 13 8)) ∧
    (stcOnce w r).satst = (r.satst || tooBig 16 pair (bits w 13 8) || tooBig 16 (pair + 1) (bits w 13 8)) ∧
    (inCode at_ → (stOnce w r).codew = true ∧ (stOnce w r).mem = r.mem) ∧
    (∀ b, b < 4 → (clrOnce w r).accOf b = if bitOf w b then 0 else r.accOf b)

/-- Whatever a repeatable instruction does, and however often, every accumulator stays in the 48-bit range, an OVF bit once set
stays set, and so do SATST and CODEW (R283, R284): none of these instructions clears a flag, and none touches kernel or queue. -/
def Obligations.AccumulatorsStayIn48Bits : Prop :=
  ∀ (w n : Nat) (r : Rp), Store.wf 0 r.acc = true →
    (∀ a, -(2 ^ 47) ≤ r.accOf a ∧ r.accOf a < 2 ^ 47) →
    let t := iterate (repeatOnce w) n r
    (∀ a, -(2 ^ 47) ≤ t.accOf a ∧ t.accOf a < 2 ^ 47) ∧ (∀ i, r.ovf.getLsbD i = true → t.ovf.getLsbD i = true) ∧
    (r.satst = true → t.satst = true) ∧ (r.codew = true → t.codew = true) ∧ t.kernel = r.kernel ∧ t.queue = r.queue

/-! The acquisition engine (12). -/

/-- The acquisition commands (R350, R351, R356 to R363): a ring is enabled empty, with its control block written, its geometry staged
while it runs, disabled, or rebased to its write index; a unit that is idle takes its configuration, its history beginning anew with another
source (R343), and mask, is armed, and is stopped at
once, at its record's end or not at all; a group arm waits for ARM_AT, on this device where it is a member, and asks the other devices. -/
def Obligations.AcquisitionCommands : Prop :=
  ∀ (mb : Fin 32) (h : HostSide) (adc : List (BitVec 12)) (s : State) (c : Cmd),
    let n := c.arg 0 1
    let r := s.dev.acqRing n
    let q := s.dev.unit n
    let on := bitOf (c.arg 1 1) 0
    (s.begins acqStatusSpec mb h = some c →
      let out := le 1 n ++ le 1 q.st.code ++ le 1 (flag q.cfg.edge 0) ++ le 1 q.cfg.ring ++ le 4 q.deadMax ++ le 8 q.records ++
        le 8 q.failed ++ le 8 q.missed ++ le 8 q.violating ++ le 8 q.lateFires ++ le 8 s.dev.time.lat ++ zeros 8
      exec (.acqStatus mb h) s = .next (s.during h c fun _ d => okCmd c 0x0700 0 out (!on)
        (if on then d.setUnit n { q with records := 0, failed := 0, missed := 0, violating := 0, lateFires := 0 } else d))) ∧
    (s.begins acqRingConfigSpec mb h = some c →
      let g : Geometry := { length := c.arg 4 4, slot := c.arg 24 4, base := c.arg 8 8 }
      let r1 : AcqRing := {
        enabled := true, everEnabled := true, kind := bitOf (c.arg 1 1) 1, geo := g, ctrl := c.arg 16 8
        gen := if r.everEnabled then (r.gen + 1) % 2 ^ 32 else 0 }
      (r.enabled = false → on = false → exec (.acqRingConfig mb h) s = .next (s.during h c fun _ d => doneCmd c 0x0700 d)) ∧
      (r.enabled = true → on = false → exec (.acqRingConfig mb h) s = .next (s.during h c fun _ d =>
        doneCmd c 0x0700 (dropOffers n (d.setAcqRing n { r with enabled := false, staged := none })))) ∧
      (r.enabled = false → on = true → exec (.acqRingConfig mb h) s = .next (s.during h c fun _ d => doneCmd c 0x0700
        (ddrWrite (c.arg 16 8 + 64) (le 8 0) (ddrWrite (c.arg 16 8) (lineZero r1) (d.setAcqRing n r1))))) ∧
      (r.enabled = true → on = true → exec (.acqRingConfig mb h) s = .next (s.during h c fun _ d => doneCmd c 0x0700
        (putRing n { r with staged := if g = r.geo then none else some g } d)))) ∧
    (s.begins acqRingRebaseSpec mb h = some c →
      let r1 := AcqRing.takeGeometry { r with read := r.written, rebased := (r.rebased + r.unread) % 2 ^ 64 }
      exec (.acqRingRebase mb h) s = .next (s.during h c fun _ d => okCmd c 0x0700 r.unread [] false (publish
        { kind := 2, inst := n, seq := 0, start := d.time.lat, finish := d.time.lat, a := r.unread, b := r.written, c := r.gen, d := 0, e := 0 }
        (ddrWrite (r.ctrl + 64) (le 8 r.written) (ddrWrite r.ctrl (lineZero r1) (d.setAcqRing n r1)))))) ∧
    (s.begins acqUnitConfigSpec mb h = some c →
      let g := unitCfgOf c
      let q1 := if q.cfg.sameSource g then { q with cfg := g } else { q with cfg := g, history := [], seen := 0 }
      exec (.acqUnitConfig mb h) s = .next (s.during h c fun _ d => doneCmd c 0x0700 (d.setUnit n q1))) ∧
    (s.begins acqMaskSpec mb h = some c →
      let tab := (List.range (c.arg 4 2)).foldl (fun m i =>
        Store.set maskReset m (c.arg 2 2 + i) (c.argS (8 + 4 * i) 2, c.argS (10 + 4 * i) 2)) q.maskTab
      exec (.acqMask mb h) s = .next (s.during h c fun _ d => doneCmd c 0x0700 (d.setUnit n { q with maskTab := tab }))) ∧
    (s.begins acqArmSpec mb h = some c →
      exec (.acqArm mb h) s = .next (s.during h c fun _ d => doneCmd c 0x0700 (armUnit n (c.arg 8 8) on d))) ∧
    (s.begins (acqStopSpec adc) mb h = some c →
      let asked := { q with stopSeqs := q.stopSeqs ++ [c.seq] }
      (q.st = .idle → exec (.acqStop mb h adc) s = .next (s.during h c fun _ d => okCmd c 0x0002 0 [] true d)) ∧
      (q.st = .capturing → c.arg 1 1 = 0 → exec (.acqStop mb h adc) s = .next (s.during h c fun _ d => d.setUnit n asked)) ∧
      (q.st = .capturing → c.arg 1 1 = 1 → exec (.acqStop mb h adc) s = .next (s.during h c fun _ d =>
        finishCapture n (recordWords n (capturedNow d q) adc d) Cause.stopped (d.setUnit n asked))) ∧
      (q.st = .armed ∨ q.st = .rearming ∨ q.st = .waitingGroup → exec (.acqStop mb h adc) s = .next (s.during h c fun _ d => endUnit n 2 (d.setUnit n asked)))) ∧
    (s.begins acqGroupArmSpec mb h = some c →
      let here := isMember s.dev (c.arg 0 2)
      let self := if here then BitVec.ofNat 16 (2 ^ s.dev.domain.dev) else 0
      let g : GroupCap := {
        waiting := true, continuous := bitOf (c.arg 2 1) 0, count := c.arg 4 4, armAt := c.arg 8 8, fireDelay := c.arg 16 4
        cycle := c.arg 20 4 }
      let m : MasterArm := {
        seq := c.seq, armAt := c.arg 8 8, members := BitVec.ofNat 16 (c.arg 0 2), acks := self, replied := self }
      let ask : CtrlMsg := {
        type := 2, origin := s.dev.domain.dev, members := c.arg 0 2, continuous := bitOf (c.arg 2 1) 0, fireDelay := c.arg 16 4
        armAt := c.arg 8 8, count := c.arg 4 4, cycle := c.arg 20 4 }
      exec (.acqGroupArm mb h) s = .next (s.during h c fun _ d =>
        let d1 := { d with acq := { d.acq with masters := d.acq.masters ++ [m] } }
        sendCtrl ask (if here then waitGroup g d1 else d1)))

/-- RING_ENTRY_WRITE (R337, R339): the oldest entry offered to an enabled ring of its kind with room, READ taken from the control block,
stands in DDR5 at BASE + SLOT × (written − index at the last geometry, modulo LENGTH); line 0 of the control block shows one entry more; no
other byte of DDR5 changes. With LENGTH entries unread the entry is dropped and counted, and no byte but line 0 changes. -/
def Obligations.RingEntryReachesItsSlot : Prop :=
  ∀ (n : Fin 16) (o : Offer) (rest : List Offer) (s : State), s.settled → Store.wf {} s.dev.acq.rings = true →
    let r := s.dev.acqRing n
    let v := fromLe (Mem.read s.ddr (r.ctrl + 64) 8)
    let unread := (r.written + 2 ^ 64 - v) % 2 ^ 64
    let slotAt := r.geo.base + r.geo.slot * (((r.written + 2 ^ 64 - r.idx0) % 2 ^ 64) % r.geo.length)
    let size := o.bytes.length
    r.enabled = true → r.kind = o.kind → r.staged = none → r.offers = o :: rest → o.unit = none → o.shot = none →
    (unread < r.geo.length → (slotAt + size ≤ r.ctrl ∨ r.ctrl + 64 ≤ slotAt) →
      let r1 := { r with written := (r.written + 1) % 2 ^ 64, read := v, badRead := false, fullRaised := false, offers := rest }
      ∃ t, exec (.ringEntryWrite n) s = .next t ∧ t.dev.acqRing n = r1 ∧ Mem.read t.ddr slotAt size = o.bytes ∧
        Mem.read t.ddr r.ctrl 64 = lineZero r1 ∧ t.host = s.host ∧
        ∀ a, (a < slotAt ∨ slotAt + size ≤ a) → (a < r.ctrl ∨ r.ctrl + 64 ≤ a) → Mem.byte t.ddr a = Mem.byte s.ddr a) ∧
    (unread = r.geo.length →
      let r1 := { r with dropped := (r.dropped + 1) % 2 ^ 64, read := v, badRead := false, fullRaised := true, offers := rest }
      ∃ t, exec (.ringEntryWrite n) s = .next t ∧ t.dev.acqRing n = r1 ∧ Mem.read t.ddr r.ctrl 64 = lineZero r1 ∧
        ∀ a, (a < r.ctrl ∨ r.ctrl + 64 ≤ a) → Mem.byte t.ddr a = Mem.byte s.ddr a)

/-- Capture units and groups (R339 to R352): a poll takes a READ that the ring can have; an EDGE unit watches its source's samples, and a
trigger that was primed and meets its level begins the record of an armed unit, at that sample, and counts as missed for one that captures
or waits to be armed again; a RAY-mode unit keeps its history (R343); a record's end offers it, with its LEN samples; the unit is armed
again not before HOLDOFF; a group takes an
answer, an arm and a fire from its links, arms at ARM_AT, where the master's command ends with the devices that answered, and records from
the earliest fire, the lower device number first where two come at one instant. -/
def Obligations.CaptureAndGroupRows : Prop :=
  (∀ (n : Fin 16) (u : Fin 16) (l : Fin 4) (h : HostSide) (adc : List (BitVec 12)) (m : CtrlMsg) (ms : List CtrlMsg) (p : MasterArm)
       (f : FireMsg) (fs : List FireMsg) (w : Nat × Nat) (c : Cmd) (s : State), s.dev.wr = [] →
     let r := s.dev.acqRing n
     let q := s.dev.unit u
     let g := s.dev.acq.group
     let read := fromLe (Mem.read (s.sync h).ddr (r.ctrl + 64) 8)
     (r.enabled = true → (r.written + 2 ^ 64 - read) % 2 ^ 64 ≤ r.geo.length → r.staged = none → exec (.ringReadPoll n h) s =
       .next { s.sync h with dev := (s.sync h).dev.setAcqRing n { r with read := read, badRead := false } }) ∧
     (r.enabled = true → r.geo.length < (r.written + 2 ^ 64 - read) % 2 ^ 64 → exec (.ringReadPoll n h) s =
       .next ((s.sync h).on fun _ d => let d1 := d.setAcqRing n { r with badRead := true }
         if r.badRead then d1 else event 89 n read d1)) ∧
     let ticks := adc.length / 8
     let from_ := feedFrom s.dev u
     let until_ := if ticks = 0 then 0 else from_ / 8 + ticks - 1
     (q.cfg.edge = true → exec (.triggerFire u adc) s = .next (s.on fun _ d =>
       advanceTo until_ ((triggerValues d q.cfg from_ ticks adc).foldl (watchOne u) (feedUnit u adc d)))) ∧
     (q.cfg.edge = false → exec (.triggerFire u adc) s = .next (s.on fun _ d => advanceTo until_ (feedUnit u adc d))) ∧
     (q.st = .capturing → exec (.captureEnd u adc) s = .next (s.on fun _ d =>
       finishCapture u (recordWords u q.cfg.len adc d) 0 (advanceTo ((q.end8 + 7) / 8).toNat d))) ∧
     (q.st = .rearming →
       let d1 := advanceTo ((q.trig + (8 * q.cfg.holdoff + 7 : Nat)) / 8).toNat s.dev
       let q1 := { q with st := .armed, primed := (false, false), armedAt := 8 * d1.time.lat }
       exec (.unitRearm u) s = .next { s with dev := d1.setUnit u { q1 with deadMax := max q.deadMax q1.dead } }) ∧
     let taken := s.dev.setLink l { s.dev.link l with ctrlIn := ms }
     let fit := groupFit taken m.fireDelay m.cycle
     let reply (type : Nat) : CtrlMsg := { type := type, origin := s.dev.domain.dev, armAt := m.armAt }
     ((s.dev.link l).ctrlIn = m :: ms → m.type ≠ 2 →
       let bit := BitVec.ofNat 16 (2 ^ m.origin)
       let hear (a : MasterArm) : MasterArm := if m.armAt = a.armAt then { a with
         replied := a.replied ||| bit, acks := if m.type = 3 then a.acks ||| (bit &&& a.members) else a.acks } else a
       exec (.groupArmMessage l) s = .next { s with dev := { taken with acq := { s.dev.acq with masters := s.dev.acq.masters.map hear } } }) ∧
     ((s.dev.link l).ctrlIn = m :: ms → m.type = 2 → isMember taken m.members = false ∨ m.armAt < s.dev.time.lat →
       exec (.groupArmMessage l) s = .next { s with dev := taken }) ∧
     ((s.dev.link l).ctrlIn = m :: ms → m.type = 2 → isMember taken m.members = true → s.dev.time.lat ≤ m.armAt →
       (groupReady s.ctx taken && fit.1 && fit.2) = false → exec (.groupArmMessage l) s = .next (s.on fun _ _ => sendCtrl (reply 4) taken)) ∧
     ((s.dev.link l).ctrlIn = m :: ms → m.type = 2 → isMember taken m.members = true → s.dev.time.lat ≤ m.armAt →
       (groupReady s.ctx taken && fit.1 && fit.2) = true → exec (.groupArmMessage l) s = .next (s.on fun _ _ => sendCtrl (reply 3) (waitGroup {
         waiting := true, continuous := m.continuous, count := m.count, armAt := m.armAt, fireDelay := m.fireDelay, cycle := m.cycle } taken))) ∧
     (g.waiting = false → s.dev.acq.masters = [p] → cmdOf s.dev p.seq = some c → c.dead = false →
       exec .groupArmAt s = .next (s.on fun _ d => okCmd c (if p.acks = p.members then 0x0700 else 0x0701) p.acks.toNat [] false
         { advanceTo p.armAt d with acq := { d.acq with masters := [] } })) ∧
     (g.waiting = true → s.dev.acq.masters = [] → groupUnits s.dev = [u.val] → q.st = .waitingGroup → Store.wf {} s.dev.acq.units = true →
       ∃ t, exec .groupArmAt s = .next t ∧ (t.dev.unit u).st = .armed ∧ (t.dev.unit u).left = g.count ∧
         t.dev.acq.group.armed = true ∧ t.dev.acq.group.waiting = false) ∧
     ((s.dev.link l).fireIn = f :: fs → exec (.fireMessage l) s = .next (s.on fun _ d =>
       takeFire f.origin f.t (d.setLink l { d.link l with fireIn := fs }))) ∧
     (g.armed = true → winner g.fires = some w → (g.fires.erase w) = [] → groupUnits s.dev = [] →
       let d1 := advanceTo ((w.1 + 7) / 8 + g.fireDelay) s.dev
       let g1 := { g with fires := [], busyUntil := w.1 + 8 * g.cycle, prevBusy := g.busyUntil, lastT := w.1, lastOrigin := w.2 }
       exec .groupFireDecide s = .next { s with dev := { d1 with acq := { s.dev.acq with group := g1 } } }) ∧
     (g.armed = true → winner g.fires = some w → g.fires = [w] → groupUnits s.dev = [u.val] → q.st = .armed →
       Store.wf {} s.dev.acq.units = true → ∃ t, exec .groupFireDecide s = .next t ∧ (t.dev.unit u).st = .capturing ∧
         (t.dev.unit u).trig = w.1 ∧ (t.dev.unit u).origin = w.2)) ∧
  (∀ (u : Fin 16) (d : Dev) (t8 : Nat) (x : Int) (shot : Nat), Store.wf {} d.acq.units = true →
     let q := d.unit u
     let rising := bits q.cfg.tflags.toNat 1 0 = 0
     let rec1 := {
       q with st := .capturing, trig := t8, origin := d.domain.dev, trigRemote := false, missedRec := q.missedNow, missedNow := 0 }
     (rising → q.primed = (true, false) → q.cfg.level ≤ x → q.st = .armed → q.cfg.group = false → q.cfg.firing = false →
       (watchOne u d (t8, x)).unit u = { rec1 with primed := (false, false), trigShot := shotAt d t8 }) ∧
     (rising → q.primed = (false, false) → (watchOne u d (t8, x)).unit u =
       { q with primed := (decide (x ≤ q.cfg.level - q.cfg.hyst), false) }) ∧
     (q.st = .capturing ∨ q.st = .rearming → q.cfg.group = false → q.cfg.firing = false → unitTrigger u t8 shot d =
       d.setUnit u { q with missed := (q.missed + 1) % 2 ^ 64, missedNow := q.missedNow + 1 })) ∧
  (∀ (fires : List (Nat × Nat)) (w : Nat × Nat), winner fires = some w →
     w ∈ fires ∧ ∀ f ∈ fires, w.1 < f.1 ∨ (w.1 = f.1 ∧ w.2 ≤ f.2))

/-! Calibration (13). -/

/-- The calibration commands and rows (R366, R370 to R380, R382, R389 to R395): status and views are returned, a configuration is taken, a
run begins, is aborted, measures its groups and, complete, gives each measurement to the entry of its facet, or, where it has none, to its
port's residual, and asks for a commit; a commit takes the table and erases the slot it writes, and, its read-back matching, leaves that
slot valid (R381) and in force with the next generation, and otherwise keeps the table changed, the other slot standing as it was in both
cases; a timed commit comes COMMIT_S after the last, or after CAL_CONFIG, which is the model's choice (log entry 113), as is what a failed
read-back leaves (log entry 112); a slice takes its ports and returns its measurements; trims are recomputed at their period while no
program runs (R366); a port due for more than 60 s is reported once. -/
def Obligations.CalibrationCommandsAndRows : Prop :=
  ∀ (mb : Fin 32) (h : HostSide) (s : State) (c : Cmd) (table : Store Entry) (ms : List SliceMeas) (rs : List RunMeas) (tie : List Nat)
      (p : Fin 97),
    let g := s.dev.cal
    let other := 1 - g.slot
    let gen := (g.gen + 1) % 2 ^ 32
    (s.begins calStatusSpec mb h = some c →
      exec (.calStatus mb h) s = .next (s.during h c fun x d => replyCmd c 0x0800 (calStatusBytes x d) d)) ∧
    (s.begins calConfigSpec mb h = some c → exec (.calConfig mb h) s = .next (s.during h c fun _ d =>
      doneCmd c 0x0800 { d with cal := { g with background := bitOf (c.arg 0 1) 0, commitS := c.arg 4 4, commitAt := d.time.raw } })) ∧
    (s.begins calRunSpec mb h = some c →
      let ports := (List.range 97).filter (fun i => bitOf (c.arg 0 13) i)
      let g1 : Cal := { g with
        runOn := true, runState := 1, runCause := 0, runDone := [], runFluxDc := bitOf (c.arg 13 1) 0
        runStart := s.dev.time.lat, assigned := [], unassigned := 0 }
      (ports = [] → exec (.calRun mb h) s = .next (s.during h c fun _ d => okCmd c 0x0002 0 [] true d)) ∧
      (ports ≠ [] → exec (.calRun mb h) s = .next (s.during h c fun _ d => doneCmd c 0x0800 (startGroup ports { d with cal := g1 })))) ∧
    (s.begins calAbortSpec mb h = some c →
      (g.runOn = false → exec (.calAbort mb h) s = .next (s.during h c fun _ d => okCmd c 0x0002 0 [] true d)) ∧
      (g.runOn = true → exec (.calAbort mb h) s = .next (s.during h c fun _ d => doneCmd c 0x0800 (endCalRun Cause.stopped d)))) ∧
    (s.begins calReadSpec mb h = some c → c.arg 0 1 ≠ 8 → exec (.calRead mb h) s = .next (s.during h c fun _ d =>
      let d1 := settlePorts d
      replyCmd c 0x0800 ((List.range (c.arg 4 2)).flatMap fun i =>
        viewBytes d1 (c.arg 0 1) (c.arg 2 2 + i) (d1.freeCtr + 2 * i)) d1)) ∧
    (s.begins calCommitSpec mb h = some c →
      let erased := fillSlot other [] 0 (List.replicate 64 0xFF) g
      (g.changed = false → exec (.calCommit mb h) s = .next (s.during h c fun _ d => okCmd c 0x0002 0 [] true d)) ∧
      (g.changed = true → g.committing = none → exec (.calCommit mb h) s = .next (s.during h c fun _ d => { d with cal := { erased with
        committing := some d.core.facets, commitSeq := some c.seq, changed := false } })) ∧
      (g.changed = true → g.committing ≠ none → exec (.calCommit mb h) s = .next (s.during h c fun _ d =>
        { d with cal := { g with commitQueue := g.commitQueue ++ [some c.seq] } }))) ∧
    (g.committing = some table → g.commitQueue = [] → g.commitSeq = none →
      (∃ t, exec (.commitEnd true) s = .next t ∧ t.dev.cal.committing = none ∧ t.dev.cal.slot = other ∧ t.dev.cal.gen = gen ∧
        slotValid s.ctx t.dev.cal other = true ∧ ofSlot g.slot t.dev.cal.slots = ofSlot g.slot g.slots ∧ t.dev.cal.empty = false ∧
        t.dev.evt.pend.getLsbD 107 = true ∧ t.dev.core = s.dev.core) ∧
      (∃ t, exec (.commitEnd false) s = .next t ∧ t.dev.cal.committing = none ∧ t.dev.cal.commitSeq = none ∧ t.dev.cal.changed = true ∧
        t.dev.cal.slot = g.slot ∧ t.dev.cal.gen = g.gen ∧ ofSlot g.slot t.dev.cal.slots = ofSlot g.slot g.slots ∧
        t.dev.evt.pend.getLsbD 108 = true ∧ t.dev.core = s.dev.core)) ∧
    (g.commitS ≠ 0 → firmwareRuns s.dev = true →
      let timed (d : Dev) : Dev :=
        let d1 := advance (g.commitAt + 1000000000 * g.commitS - d.time.raw) d
        { d1 with cal := { d1.cal with commitAt := d1.time.raw } }
      (g.changed = true → exec .calTimedCommit s = .next (s.on fun _ d => requestCommit none (timed d))) ∧
      (g.changed = false → exec .calTimedCommit s = .next (s.on fun _ d => timed d))) ∧
    (g.runOn = true → g.runPorts ≠ [] →
      let d1 := advance (g.runNext - s.dev.time.raw) s.dev
      let group := runGroup g.runPorts
      let left := g.runPorts.filter (fun q => !group.contains q)
      let done := (rs.filter (fun m => group.contains m.port)).map fun m => {
        meas := m, temp := meanTemp d1 m.port, facet := runFacetOf d1 (meanTemp d1 m.port), wt := wallNow d1, raw := d1.time.raw }
      exec (.calGroupEnd rs) s = .next (s.on fun _ _ => startGroup left { d1 with cal := { g with runDone := g.runDone ++ done } })) ∧
    (g.runOn = true → g.runPorts = [] → g.committing = none → ∃ t, exec .calRunEnd s = .next t ∧ t.dev.cal.runOn = false ∧
      t.dev.cal.runState = 2 ∧ t.dev.cal.committing = some t.dev.core.facets ∧ t.dev.evt.pend.getLsbD 106 = true ∧
      let d1 := g.runDone.foldl (fun d m => applyRunMeas g.runFluxDc m d) s.dev
      t.dev.core.facets = d1.core.facets ∧ t.dev.core.resid = d1.core.resid) ∧
    (∀ (d : Dev) (r : RunDone) (fluxDc : Bool), Store.wf {} d.core.facets = true → Store.wf {} d.core.resid = true →
      let m := r.meas
      let q := m.port
      let t := applyRunMeas fluxDc r d
      (∀ f, r.facet = some f →
        let old := d.facet f q
        let keep := decide (portKind q = .flux) && !fluxDc
        let v := usedTrim q {
          delay := m.delay, phase := m.phase % 2 ^ 32, gain := m.gain
          dcofs := if keep then old.dcofs else m.dcofs, dcgain := if keep then old.dcgain else m.dcgain }
        t.facet f q = { delay := v.delay, phase := v.phase, gain := v.gain, temp := r.temp, dcofs := v.dcofs, dcgain := v.dcgain, valid := true,
                        source := 1, wt := r.wt } ∧
        t.resid q = {} ∧ ∀ k, k ≠ 97 * f + q → Store.get {} t.core.facets k = Store.get {} d.core.facets k) ∧
      (r.facet = none →
        let u := facetTrim d q r.temp
        t.core.facets = d.core.facets ∧ (t.resid q).delay = m.delay - u.delay ∧
        (portKind q ≠ .flux → q ≠ 96 → (u.phase + (t.resid q).phase) % 2 ^ 32 = m.phase % 2 ^ 32) ∧
        (t.resid q).gain = (if (usedTrim q u).gain = 0 then 32768 else (roundHalfUp ((m.gain * 32768 : Nat) : Int) u.gain).toNat) ∧
        ∀ p, p ≠ q → t.resid p = d.resid p)) ∧
    (slicesPaused s.dev = false → firmwareRuns s.dev = true → g.slice = [] → running s.dev = false → g.slices = 0 →
      exec (.sliceStart tie) s = .next (s.on fun x d => connectSlice true tie x (advance 0 d))) ∧
    (slicesPaused s.dev = false → firmwareRuns s.dev = true → g.slice = [] → running s.dev = true → g.sliceAt = none →
      s.dev.wr = [] → exec (.sliceStart tie) s = .next s) ∧
    (g.slice ≠ [] → exec (.sliceEnd ms) s = .next (s.on fun _ d =>
      (ms.filter (fun m => g.slice.contains m.port)).foldl (fun d m => sliceMeasured m d)
        { advance (g.sliceRaw + 640 - d.time.raw) d with
          cal := { d.cal with slice := [], errors := ms.filter (fun m => g.slice.contains m.port) } })) ∧
    (running s.dev = false → firmwareRuns s.dev = true → exec .trimRecompute s = .next (s.on fun x d => recomputeTrims x (paced .trims d))) ∧
    ((s.dev.due p).due = true → (s.dev.due p).starved = false → p.val < 96 → Store.wf {} s.dev.core.due = true →
      ∃ t, exec (.calStarved p) s = .next t ∧ (t.dev.due p).starved = true ∧ t.dev.evt.pend.getLsbD 105 = true)

/-- The facet interpolation (R369) over entries in ascending temperature: at an entry's temperature it gives that entry's trims, below the
lowest those of the lowest, above the highest those of the highest; and between two entries the delay lies between theirs. -/
def Obligations.InterpolationMeetsItsEntries : Prop :=
  ∀ (points : List Entry) (t : Int), points.Pairwise (fun a b => a.temp < b.temp) →
    (∀ e ∈ points, interpolate points e.temp = e.trim) ∧
    (∀ a rest, points = a :: rest → t ≤ a.temp → interpolate points t = a.trim) ∧
    (∀ front z, points = front ++ [z] → z.temp ≤ t → interpolate points t = z.trim) ∧
    (∀ a b, points = [a, b] → a.temp ≤ t → t ≤ b.temp →
      min a.delay b.delay ≤ (interpolate points t).delay ∧ (interpolate points t).delay ≤ max a.delay b.delay)

/-! The time-interval unit, wall time and the pulse generators (14). -/

/-- The time-interval unit (R396 to R404, R413 to R416): an input takes its configuration, its prescaler's phases being free; a
measurement is armed, calibrated, opened or ended by a failed calibration, started from the lattice, closed at its window's end and aborted,
its result held with its cause; an edge that conditioning turns away reaches nothing, and one it captures reaches the measurement and the
units that it triggers. A stop
is taken by an edge of its source and polarity that lies more than −12 ps from the start; it is coincident exactly where it lies within
12 ps; an edge that is no such stop is not taken. An edge of a stop source before the start is captured, or 12 ps or more before it, is an
orphan: the result counts these in ORPHANS and holds the first, and the measurement stands but for it (R402, R403). -/
def Obligations.TimRows : Prop :=
  (∀ (mb : Fin 32) (h : HostSide) (s : State) (c : Cmd) (m : Meas) (scales : List Nat) (src b : Nat) (falling : Bool),
     let tim := s.dev.tim
     let ended (t : State) (cause : Nat) : Prop := t.dev.tim.meas = none ∧ t.dev.evt.pend.getLsbD 112 = true ∧
       ∃ q rest, t.dev.tim.results = q :: rest ∧ q.id = m.id ∧ q.cause = cause ∧ q.ended = t.dev.time.lat ∧ q.stops = m.stops
     (s.begins timInputConfigSpec mb h = some c →
       let e : EvIn := { s.dev.evIn (c.arg 0 1) with
         hyst := c.arg 1 1, prescale := c.arg 2 1, holdoff := c.arg 4 4
         phase := (Config.free s.dev.freeCtr, Config.free (s.dev.freeCtr + 1)) }
       exec (.timInputConfig mb h) s = .next (s.during h c fun _ d => doneCmd c 0x0900
         { d with tim := { tim with inputs := Store.set {} tim.inputs (c.arg 0 1) e }, freeCtr := s.dev.freeCtr + 2 })) ∧
     (s.begins timMeasureSpec mb h = some c →
       let q : Meas := {
         id := tim.nextId, startSrc := c.arg 0 1, startFalling := bitOf (c.arg 1 1) 1, window := c.arg 4 4
         stopSrcs := (List.range (c.arg 2 1)).map (fun i => c.arg (24 + i) 1), startAt := c.arg 16 8
         openAt := if bitOf (c.arg 1 1) 0 then c.arg 8 8 else s.dev.time.lat + 1000 }
       exec (.timMeasure mb h) s = .next (s.during h c fun _ d => okCmd c 0x0900 tim.nextId [] false
         { d with tim := { tim with meas := some q, nextId := (tim.nextId + 1) % 2 ^ 32 } })) ∧
     (s.begins timReadSpec mb h = some c → resultOf s.dev (c.arg 0 4) = some m →
       exec (.timRead mb h) s = .next (s.during h c fun _ d => replyCmd c 0x0900 (timResultBytes m) d)) ∧
     (s.begins timAbortSpec mb h = some c →
       (tim.meas = none → exec (.timAbort mb h) s = .next (s.during h c fun _ d => okCmd c 0x0002 0 [] true d)) ∧
       (tim.meas = some m → ∃ t, exec (.timAbort mb h) s = .next t ∧ ended t Cause.stopped)) ∧
     (tim.meas = some m → m.calibrated = false → ∃ t q, exec (.timSelfCalibrate scales) s = .next t ∧ t.dev.tim.meas = some q ∧
       q = { m with calibrated := true, calOk := scales.all (fun v => decide (7900 ≤ v ∧ v ≤ 15000)), scale := q.scale,
                    warming := s.fuse.oven && !s.dev.hif.orfWarm }) ∧
     (tim.meas = some m → m.isOpen = false → m.calibrated = true →
       (m.calOk = true → ∃ t, exec .timWindowOpen s = .next t ∧ t.dev.tim = { tim with meas := some { m with isOpen := true } }) ∧
       (m.calOk = false → ∃ t, exec .timWindowOpen s = .next t ∧ ended t Cause.timCal)) ∧
     (tim.meas = some m → m.isOpen = true → m.startSrc = 64 → m.start = none →
       exec .timLatticeStart s = .next (s.on fun _ d => latticeStart (advanceTo m.startAt d))) ∧
     (tim.meas = some m → m.isOpen = true → ∃ t, exec .timWindowClose s = .next t ∧ ended t Cause.timeout) ∧
     (inputCode src = true → b ≤ 999 → s.dev.hif.state = .ready → s.dev.wr = [] →
       ((conditionEdge src falling b s.dev).1 = false →
         exec (.eventInputEdge src falling b) s = .next { s with dev := (conditionEdge src falling b s.dev).2 }) ∧
       ((conditionEdge src falling b s.dev).1 = true → src ≠ 8 →
         exec (.eventInputEdge src falling b) s = .next (s.on fun _ d =>
           eventTriggers src falling (timEdge src falling b (conditionEdge src falling b d).2))))) ∧
  (∀ (m : Meas) (start e : TimEdge) (falling : Bool), Store.wf none m.stops = true →
     let diff := e.ps - start.ps
     (diff ≤ -12 ∨ m.openStop e.src falling = none → m.takeStop start e falling = (m, false)) ∧
     (∀ i, -12 < diff → m.openStop e.src falling = some i → ∃ q, m.takeStop start e falling = (q, true) ∧ m.stop i = none ∧
       q.stop i = some { e with status := if diff ≤ 12 then 1 else 0 } ∧ ∀ j, j ≠ i → q.stop j = m.stop j)) ∧
  (∀ (d : Dev) (m : Meas) (src b cause : Nat) (falling : Bool), d.tim.meas = some m →
     let e : TimEdge := { tick := d.time.lat, before := b, src := src, status := 0 }
     let orphan : Prop := (timEdge src falling b d).tim = { d.tim with meas := some { m with early := m.early ++ [(e, falling)] } }
     (m.isOpen = true → 1000 * (m.openAt : Int) ≤ e.ps → e.ps ≤ 1000 * ((m.openAt + m.window : Nat) : Int) →
       (m.start = none → (m.openStop src falling).isSome = true → ¬(m.startSrc = src ∧ m.startFalling = falling) → orphan) ∧
       (∀ start, m.start = some start → e.ps - start.ps ≤ -12 → m.stopSource src falling = true → m.complete = false → orphan)) ∧
     ∃ q rest, (endMeas cause d).tim.results = q :: rest ∧ q.orphans = m.early.length ∧ q.orphan = (m.early.head?).map (·.1))

/-- Wall time (R408 to R412, R417 to R420): WT_STATUS returns it; a step waits for its tick, sets wall time there and counts, and is turned
away where wall time has been stepped and it does not say FORCE; a rate takes effect at the next tick without a step; a pulse generator takes
its pin and targets, gives it up at once or after the pulse in progress, drives its pin at a target, and lets it go at the trailing edge. -/
def Obligations.WallTimeRows : Prop :=
  ∀ (mb : Fin 32) (h : HostSide) (s : State) (c : Cmd) (n : Fin 4),
    let t0 := s.dev.time
    let g := s.dev.gen (c.arg 0 1)
    let own := s.dev.gen n
    let pin := c.arg 1 1
    (s.begins wtStatusSpec mb h = some c → exec (.wtStatus mb h) s = .next (s.during h c fun _ d => replyCmd c 0x0900
      (le 8 t0.lat ++ le 8 (wallNow d) ++ le 8 t0.raw ++ leI 4 t0.rate ++ le 1 (flag t0.stepped 0 + flag t0.suspect 1) ++
        zeros 3 ++ le 8 t0.w0 ++ le 8 t0.r0 ++ le 4 t0.steps ++ zeros 4 ++ le 8 t0.pulsesSkipped) d)) ∧
    (s.begins wtStepSpec mb h = some c → let at_ := if c.arg 16 8 = 0 then t0.lat + 1 else c.arg 16 8
      exec (.wtStep mb h) s = .next (s.during h c fun _ d => putCmd { c with aux := at_ } d)) ∧
    (nextStep s.dev = some c →
      let d1 := advanceTo c.aux s.dev
      (t0.stepped = true → bitOf (c.arg 1 1) 0 = false →
        exec .wtStepApply s = .next (s.on fun _ d => failCmd c (atPayload 0x0915 1) (advanceTo c.aux d))) ∧
      (t0.stepped = false ∨ bitOf (c.arg 1 1) 0 = true → ∃ t, exec .wtStepApply s = .next t ∧ t.dev.time.w0 = stepValue c d1 ∧
        t.dev.time.r0 = d1.time.raw ∧ t.dev.time.raw = d1.time.raw ∧ t.dev.time.stepped = true ∧ t.dev.time.steps = (t0.steps + 1) % 2 ^ 32 ∧
        t.dev.evt.pend.getLsbD 113 = true)) ∧
    (s.begins wtRateSpec mb h = some c → ∃ t, exec (.wtRate mb h) s = .next t ∧ t.dev.time.rate = c.argS 0 4 ∧
      t.dev.time.r0 = t.dev.time.raw ∧ t.dev.time.w0 = wallNow (advance 1 s.dev) ∧ t.dev.time.raw = (advance 1 s.dev).time.raw) ∧
    (s.begins wtPulseSpec mb h = some c →
      let g1 : WallGen := {
        on := true, pin := pin, continuous := bitOf (c.arg 2 1) 1, lowPulse := bitOf (c.arg 2 1) 2, width := c.arg 4 4
        target := c.arg 8 8, period := c.arg 16 8, left := c.arg 24 8, pulseEnd := g.pulseEnd, pulsePin := g.pulsePin
        stopping := false }
      (bitOf (c.arg 2 1) 0 = true → g.on = false → g.pulseEnd = none → ∃ t, exec (.wtPulse mb h) s = .next t ∧
        t.dev.time = { t0 with gens := Store.set {} t0.gens (c.arg 0 1) g1 } ∧
        t.dev.marker = { s.dev.marker with
          owned := s.dev.marker.owned ||| BitVec.ofNat 32 (2 ^ pin)
          pins := Store.set 2 s.dev.marker.pins pin (if g1.lowPulse then 1 else 0) }) ∧
      (bitOf (c.arg 2 1) 0 = false → g.on = false →
        exec (.wtPulse mb h) s = .next (s.during h c fun _ d => okCmd c 0x0002 0 [] true d)) ∧
      (bitOf (c.arg 2 1) 0 = false → g.on = true → g.pulseEnd ≠ none → exec (.wtPulse mb h) s = .next (s.during h c fun _ d =>
        doneCmd c 0x0900 (d.setGen (c.arg 0 1) { g with stopping := true }))) ∧
      (bitOf (c.arg 2 1) 0 = false → g.on = true → g.pulseEnd = none → exec (.wtPulse mb h) s = .next (s.during h c fun _ d =>
        doneCmd c 0x0900 (releaseGen (c.arg 0 1) d)))) ∧
    (own.on = true → own.stopping = false → own.pulseEnd = none → s.dev.marker.safe = false → own.continuous = true →
      Store.wf {} t0.gens = true → s.dev.wr = [] → ∃ t, exec (.wtPulseTarget n) s = .next t ∧
        t.dev.gen n = { own with
          pulseEnd := some (t.dev.time.raw + own.width), pulsePin := own.pin, target := own.target + own.period } ∧
        t.dev.marker = { s.dev.marker with pins := Store.set 2 s.dev.marker.pins own.pin (if own.lowPulse then 0 else 1) }) ∧
    (∀ e, own.pulseEnd = some e → own.stopping = false → Store.wf {} t0.gens = true →
      ∃ t, exec (.wtPulseTrailingEdge n) s = .next t ∧ t.dev.gen n = { own with pulseEnd := none } ∧
        t.dev.marker = if own.pulsePin = own.pin
          then { s.dev.marker with pins := Store.set 2 s.dev.marker.pins own.pin (if own.lowPulse then 1 else 0) }
          else (freePin own.pulsePin s.dev).marker)

/-! Markers and the bench (15). -/

/-- Markers and the bench (R421 to R440, R510, R550): the commands keep timing sets, vectors, configurations and indicators and return
status and vectors; BENCH_RESUME ends the unplug of each port it names whose sense reads 2, and a latched hold, and counts the outputs of
which it ended a cause; a strobe moves the pins and takes a passing period, and after the last period the item is over; a pin takes its
vector's state at its DRIVE_OFS (R424); a second equal sense reading puts its code in force, and a flux level below 20 mV sense code 0 at
once (R432); an open load makes an active port safe, after the switch-over gap where one is open (R437); a soft hold waits for its meridian,
with no program running a hold comes into force at once, with every output and the marker pins safe; a release leaves a hold with LATCH
latched, and one without it ends at once, or, with a program running, goes on till a meridian, or is cancelled where it still waited; and a
release before the 5 ms of a HOLD_N low at ready leaves no press (R436); the TAP takes an instruction and captures IDCODE, and firmware that
runs sees what the instruction does to the ports; and SMBus answers at the strapped address alone (R554): its page is taken, its codes
answered with their widths, with 0 after a shutdown (R503), and not before ready. The TAP's instruction after a reset, and which codes are
identity reads before ready, are the model's (log entries 33, 109); so are the row that stands for the end of a sense test (log entry 116)
and when the periodic rows run (log entry 117). -/
def Obligations.MarkerAndBenchRows : Prop :=
  ∀ (mb : Fin 32) (h : HostSide) (s : State) (c : Cmd) (port : Fin 97) (level below above : BitVec 32) (code : Fin 5) (ir cmd : BitVec 8)
      (addr : BitVec 7) (v : BitVec 8) (p : MarkPlay) (q r : Nat),
    let m := s.dev.marker
    let b := s.dev.bench
    (s.begins (mkvStatusSpec level) mb h = some c →
      exec (.mkvStatus mb h level) s = .next (s.during h c fun x d => (mkvStatusSpec level).act x c d) ∧
      (bitOf (c.arg 0 1) 0 = true → ∃ t, exec (.mkvStatus mb h level) s = .next t ∧ t.dev.marker.items = 0 ∧ t.dev.marker.failPeriods = 0 ∧
        t.dev.marker.failStrobes = 0 ∧ t.dev.marker.fails = [])) ∧
    (s.begins mkvTsetWriteSpec mb h = some c →
      let ts : TSet := { period := c.arg 4 4, ofs := (List.range 64).foldl (fun l k => Store.set 0 l k (c.arg (8 + 2 * k) 2)) [] }
      exec (.mkvTsetWrite mb h) s = .next (s.during h c fun _ d =>
        doneCmd c 0x0A00 { d with marker := { m with tsets := Store.set {} m.tsets (c.arg 0 1) ts } })) ∧
    (s.begins mkvWriteSpec mb h = some c →
      let put (l : Store MkVector) (i : Nat) : Store MkVector := Store.set {} l (c.arg 0 2 + i)
        { states := BitVec.ofNat 128 (c.arg (8 + 24 * i) 16), tset := c.arg (24 + 24 * i) 1, rep := c.arg (28 + 24 * i) 4 }
      exec (.mkvWrite mb h) s = .next (s.during h c fun _ d =>
        doneCmd c 0x0A00 { d with marker := { m with vectors := (List.range (c.arg 4 4)).foldl put m.vectors } })) ∧
    (s.begins mkvReadSpec mb h = some c → exec (.mkvRead mb h) s = .next (s.during h c fun _ d =>
      replyCmd c 0x0A00 ((List.range (c.arg 4 4)).flatMap (fun i => vectorBytes (m.vector (c.arg 0 2 + i)))) d)) ∧
    (s.begins benchStatusSpec mb h = some c → exec (.benchStatus mb h) s = .next (s.during h c fun x d => replyCmd c 0x0A00
      (le 1 (holdCode b) ++ le 1 (((List.range 8).map fun i => flag (indOn x d i) i).sum) ++ zeros 6 ++ le 8 s.dev.time.lat ++
        (List.range 96).flatMap (fun i => le 1 (plugByte x d i))) d)) ∧
    (s.begins benchConfigSpec mb h = some c →
      let b1 : Bench := { b with
        hard := bitOf (c.arg 0 1) 0, latch := bitOf (c.arg 0 1) 1, auto := BitVec.ofNat 96 (c.arg 16 12)
        senseOff := portMask s.ctx &&& ~~~(BitVec.ofNat 96 (c.arg 4 12)) }
      ∃ t, exec (.benchConfig mb h) s = .next t ∧ t.dev.bench = b1) ∧
    (s.begins benchResumeSpec mb h = some c → c.arg 0 12 = 0 →
      (bitOf (c.arg 12 1) 0 = true → b.hold = .latched → b.pressed = false → running s.dev = true →
        ∃ t, exec (.benchResume mb h) s = .next t ∧ t.dev.bench = { b with resumeHold := true }) ∧
      (bitOf (c.arg 12 1) 0 = false → exec (.benchResume mb h) s = .next (s.during h c fun _ d => okCmd c 0x0002 0 [] false d)) ∧
      (bitOf (c.arg 12 1) 0 = true → b.hold = .latched → b.pressed = false → b.resumeHold = false → running s.dev = false →
        let n := ((outputs s.fuse).filter (fun i => (s.dev.port i).causes.contains .hold)).length
        exec (.benchResume mb h) s =
          .next (s.during h c fun _ d => okCmd c (if n = 0 then 0x0002 else 0x0A00) n [] false (causeEnded (endHold d))))) ∧
    (s.begins benchResumeSpec mb h = some c →
      let named (i : Nat) : Bool := (BitVec.ofNat 96 (c.arg 0 12)).getLsbD i && (s.dev.port i).causes.contains .unplug
      (bitOf (c.arg 12 1) 0 = false → Store.wf {} s.dev.ports = true →
        let n := ((outputs s.fuse).filter (fun i => named i && senseNow s.dev i = 2)).length
        exec (.benchResume mb h) s = .next (s.during h c fun x d => okCmd c (if n = 0 then 0x0002 else 0x0A00) n [] false
          (d.forAll (outputs x.fuse) fun i d => if named i then tryResume i (d.setPort i { d.port i with resumed := true }) else d))) ∧
      (port.val ∈ outputs s.fuse → named port = true → senseNow s.dev port = 2 → (s.dev.port port).causes = [.unplug] →
        Store.wf {} s.dev.ports = true → ∃ t, exec (.benchResume mb h) s = .next t ∧ (t.dev.port port).causes = [] ∧
          (t.dev.port port).safe = (running s.dev && (s.dev.port port).safe))) ∧
    (s.begins indConfigSpec mb h = some c →
      let put (l : Store Nat) (i : Nat) : Store Nat := Store.set (if i = 0 then 1 else 0) l i (c.arg i 1)
      exec (.indConfig mb h) s = .next (s.during h c fun _ d =>
        doneCmd c 0x0A00 { d with bench := { b with ind := (List.range 8).foldl put b.ind } })) ∧
    (m.play = some p → nextPeriod m (p.item.addr + p.item.count) (p.item.count + 1) p.vec p.rep = some (q, r) →
      failingPins m (m.vector q) below above = [] → Store.wf 2 m.pins = true →
      let ts := m.tset (m.vector q).tset
      let last := (comparedPins m (m.vector q)).foldl (fun n i => max n (p.at128 + Store.get 0 ts.ofs (2 * i + 1))) p.at128
      ∃ t, exec (.markerStrobe below above) s = .next t ∧ t.dev.marker.fails = m.fails ∧
        t.dev.marker.play = some { p with
          vec := q, rep := r + 1, at128 := p.at128 + 128 * ts.period, drivenTo := 128 * t.dev.time.lat + 1 } ∧
        t.dev.time.lat = (advanceTo (last / 128).toNat s.dev).time.lat ∧
        ∀ i, i < 32 → Store.get 2 t.dev.marker.pins i =
          if m.owned.getLsbD i then Store.get 2 m.pins i else pinAt m p (128 * t.dev.time.lat) i) ∧
    (m.play = some p → nextPeriod m (p.item.addr + p.item.count) (p.item.count + 1) p.vec p.rep = none →
      exec (.markerStrobe below above) s = .next (s.on fun _ d => finishMark (drivePins (advanceTo ((p.at128 + 127) / 128).toNat d)))) ∧
    (∀ (now : Int) (i : Nat), let vec := m.vector p.item.addr
      let drive := p.start128 + Store.get 0 (m.tset vec.tset).ofs (2 * i)
      p.item.count = 1 → 0 < vec.rep → p.drivenTo ≤ drive →
        (drive ≤ now → pinAt m p now i = driverOf (pinState vec i)) ∧ (now < drive → pinAt m p now i = Store.get 2 m.pins i)) ∧
    (let e := settlePort port (paced (.sense port) s.dev)
      let ep := e.port port
      port.val < 96 → s.fuse.hasPort port = true → e.bench.senseOff.getLsbD port = false → portKind port ≠ .flux → idleForTest e port = true →
      ep.causes.contains .unplug = false →
      (code.val ≠ ep.lastSense → exec (.plugSenseTest port code) s = .next (s.on fun _ d =>
        let d1 := settlePort port (paced (.sense port) d)
        d1.setPort port { d1.port port with lastSense := code.val })) ∧
      (code.val = ep.lastSense → code.val ≠ ep.sense → Store.wf {} e.ports = true →
        ∃ t, exec (.plugSenseTest port code) s = .next t ∧ (t.dev.port port).sense = code.val ∧
          t.dev.evt.pend.getLsbD (if code.val = 2 then 121 else 122) = true)) ∧
    (let e := settlePort port s.dev
     s.fuse.hasPort port = true → portKind port = .flux → e.bench.senseOff.getLsbD port = false → fluxBelow e port = true →
      (e.port port).sense ≠ 0 → Store.wf {} e.ports = true → ∃ t, exec (.plugSenseTest port code) s = .next t ∧
        (t.dev.port port).sense = 0 ∧ t.dev.evt.pend.getLsbD 122 = true) ∧
    (s.fuse.hasPort port = true → port.val < 84 → portActive (settlePort port s.dev) port = true →
      (inGap s.dev = false → exec (.openLoadDetect port) s = .next (s.on fun _ d => unplugActive port (settlePort port d))) ∧
      (inGap s.dev = true → exec (.openLoadDetect port) s = .next (s.on fun _ d =>
        let d1 := settlePort port d
        { d1 with bench := { d1.bench with gapOpens := d1.bench.gapOpens ++ [port.val] } }))) ∧
    (s.dev.hif.state = .ready → b.pressed = false → b.hold = .released → b.hard = false → running s.dev = true →
      let b1 : Bench := { b with
        pressed := true, pressHard := false, pressLatch := b.latch, resumeHold := false, hold := .waiting, lowSince := none }
      ∃ t, exec .holdPressed s = .next t ∧ t.dev.bench = b1 ∧ t.dev.ports = s.dev.ports ∧ t.dev.evt.pend.getLsbD 124 = true) ∧
    (s.dev.hif.state = .ready → firmwareRuns s.dev = true → b.pressed = false → b.hold = .released → running s.dev = false →
      Store.wf {} s.dev.ports = true → ∃ t, exec .holdPressed s = .next t ∧ t.dev.bench.hold = .inForce ∧ t.dev.bench.pressed = true ∧
        t.dev.evt.pend.getLsbD 124 = true ∧ .hold ∈ t.dev.marker.causes ∧ t.dev.marker.safe = true ∧
        ∀ i : Fin 97, i.val ∈ outputs s.fuse → .hold ∈ (t.dev.port i).causes ∧ portCond (t.dev.port i) = if (t.dev.port i).off then 0 else 2) ∧
    (s.dev.hif.state = .ready → b.pressed = true → b.pressLatch = false →
      (b.hold = .waiting → ∃ t, exec .holdReleased s = .next t ∧
        t.dev.bench = { b with pressed := false, hold := .released } ∧ t.dev.ports = s.dev.ports) ∧
      (b.hold = .inForce → running s.dev = true → ∃ t, exec .holdReleased s = .next t ∧
        t.dev.bench = { b with pressed := false } ∧ t.dev.ports = s.dev.ports) ∧
      (b.hold = .inForce → running s.dev = false → ∃ t, exec .holdReleased s = .next t ∧
        t.dev.bench = { b with pressed := false, hold := .released, resumeHold := false } ∧
        ∀ i : Fin 97, .hold ∉ (t.dev.port i).causes ∧ ((s.dev.port i).causes = [.hold] → (t.dev.port i).safe = false))) ∧
    (s.dev.hif.state = .ready → b.pressed = false → s.dev.wr = [] →
      exec .holdReleased s = .next { s with dev := { s.dev with bench := { b with lowSince := none } } }) ∧
    (s.dev.hif.state = .ready → b.pressed = true → b.hold = .inForce → b.pressLatch = true → ∃ t, exec .holdReleased s = .next t ∧
      t.dev.bench = { b with pressed := false, hold := .latched } ∧ t.dev.ports = s.dev.ports ∧ t.dev.evt.pend.getLsbD 125 = true) ∧
    (let taken (d : Dev) : Dev := { d with
        bench := { b with tap := if ir.toNat ≤ 5 then ir else 0xFF }
        readData := if ir = 0x01 then some (le 4 (idcode s.fuse)) else if 5 < ir.toNat then some (le 1 0) else none }
     (firmwareRuns s.dev = false → s.dev.wr = [] → exec (.tapInstructionUpdate ir) s = .next { s with dev := taken s.dev }) ∧
     (firmwareRuns s.dev = true → exec (.tapInstructionUpdate ir) s = .next (s.on fun x d => followTap x (taken d)))) ∧
    (s.dev.wr = [] →
      (addr.toNat ≠ b.smbAddr → exec (.smbusTransaction cmd none addr) s = .next { s with dev := { s.dev with readData := none } }) ∧
      (addr.toNat = b.smbAddr → v.toNat ≤ 5 → s.dev.hif.state = .ready → exec (.smbusTransaction 0 (some v) addr) s =
        .next { s with dev := { s.dev with bench := { b with page := v.toNat }, readData := some [] } }) ∧
      (addr.toNat = b.smbAddr → s.dev.thermal.isShut = false → s.dev.hif.state = .ready → exec (.smbusTransaction cmd none addr) s =
        .next { s with dev := { s.dev with readData := (smbusRead s.dev cmd.toNat).map (le (smbusWidth cmd.toNat)) } }) ∧
      (addr.toNat = b.smbAddr → s.dev.thermal.isShut = true → cmd.toNat ∈ [0x00, 0x20, 0x8B, 0x8C, 0x8D, 0x8E, 0x99] →
        exec (.smbusTransaction cmd none addr) s =
          .next { s with dev := { s.dev with readData := some (zeros (smbusWidth cmd.toNat)) } }) ∧
      (s.dev.thermal.isShut = false → s.dev.hif.state ≠ .ready → cmd ≠ 0x99 → exec (.smbusTransaction cmd none addr) s =
        .next { s with dev := { s.dev with readData := none } }))

/-! Device links (16). -/

/-- The 240 bytes of a link frame hold the whole frame (R442, R443): whatever its sequence number, slot, chords, messages, credits and
segment, each within its field, a receiver reads back from them the frame that was sent. -/
def Obligations.LinkFrameReadsBackWhole : Prop :=
  ∀ (f : LinkFrame),
    f.seq < 2 ^ 16 → f.slot < 2 ^ 32 → f.shotBase < 2 ^ 48 → f.ack < 2 ^ 16 → f.creditRet < 2 ^ 8 → f.chords.length ≤ 48 →
    (∀ c ∈ f.chords, c.dev < 16 ∧ c.chan < 256 ∧ c.ord < 4 ∧ (c.shot = f.shotBase ∨ c.shot = f.shotBase + 1)) →
    (∀ m, f.fire = some m → m.origin < 2 ^ 8 ∧ m.t < 2 ^ 64) →
    (∀ m, f.ctrl = some m → (m.type = 2 ∨ m.type = 3 ∨ m.type = 4) ∧ m.origin < 2 ^ 8 ∧ m.members < 2 ^ 16 ∧ m.fireDelay < 2 ^ 16 ∧
      m.armAt < 2 ^ 64 ∧ m.count < 2 ^ 32 ∧ m.cycle < 2 ^ 32) →
    (∀ g, f.seg = some g → g.seq < 2 ^ 16 ∧ g.bytes.length = 32 ∧ g.age = 0 ∧ g.again = false ∧ g.lost = false) →
    (frameBytes f).length = 240 ∧ frameOf (frameBytes f) = some f

/-- The link commands (R452 to R456, R460 to R465): LNK_STATUS returns its result; LNK_CONFIG brings a link up from stage 0, ends what a
disabled one carried, sends an active one into electrical idle from its next frame boundary on, begins or ends its fast exit (R452), and
else takes its settings; LNK_TRAIN waits for stage 5, retraining an active link; LNK_DOMAIN takes the domain and retrains every active link
(R463); and LNK_ALIGN measures, taking the parent's mean from its segment where that has come, starts its slew and waits for its end.
The rounding of half a femtosecond is the model's (log entry 25); so are the means as operands, ALIGNED 0 from the beginning of LNK_ALIGN on,
and LNK_DOMAIN ending an alignment (log entry 118). -/
def Obligations.LinkCommands : Prop :=
  ∀ (mb : Fin 32) (h : HostSide) (s : State) (c : Cmd) (dPC dCP : Int),
    let l := c.arg 0 1
    let k := s.dev.link l
    let m := s.dev.domain
    let set := { k with
      enable := bitOf (c.arg 1 1) 0, idle := bitOf (c.arg 1 1) 1, ctleCodes := (List.range 4).map (fun i => c.arg (2 + i) 1) }
    (s.begins lnkStatusSpec mb h = some c → let clear := bitOf (c.arg 1 1) 0
      exec (.lnkStatus mb h) s = .next (s.during h c fun _ d => okCmd c 0x0B00 0 (lnkStatusBytes d l) (!clear)
        (if clear then d.setLink l { k with crcErrors := 0, retrains := 0, misrouted := 0 } else d))) ∧
    (s.begins lnkConfigSpec mb h = some c →
      (set.enable = false → exec (.lnkConfig mb h) s = .next (s.during h c fun _ d => doneCmd c 0x0B00
        (endTrains l (fun q d => failCmd q { status := 0x0B11, detail := 32 } d) (enterStage l 0 (leaveActive l (d.setLink l set)))))) ∧
      (set.enable = true → k.stage = 0 → Store.wf {} s.dev.links = true → ∃ t, exec (.lnkConfig mb h) s = .next t ∧ t.dev.link l = { set with
        stage := 1, stageAt := s.dev.time.raw, failAt := none, crcWindow := 0, segSeq := 0, ack := 0, sending := [], unacked := []
        segIn := [] }) ∧
      (set.enable = true → k.stage ≠ 0 → k.stage ≠ 5 → Store.wf {} s.dev.links = true →
        exec (.lnkConfig mb h) s = .next (s.during h c fun _ d => doneCmd c 0x0B00 (d.setLink l set))) ∧
      (set.enable = true → k.stage = 5 → Store.wf {} s.dev.links = true →
        (set.idle = true → k.isIdle = false → (∃ t, exec (.lnkConfig mb h) s = .next t ∧
          (t.dev.link l).isIdle = true ∧ (t.dev.link l).timed = false ∧ (t.dev.link l).chordQ = [] ∧ (t.dev.link l).exitAt = none ∧
          (m.id ≠ 0 → m.parent = l → t.dev.domain.aligned = false)) ∧
          exec (.lnkConfig mb h) s = .next (s.during h c fun _ d => doneCmd c 0x0B00 (goIdle l (d.setLink l set)))) ∧
        (set.idle = true → k.isIdle = true →
          exec (.lnkConfig mb h) s = .next (s.during h c fun _ d => doneCmd c 0x0B00 (d.setLink l { set with exitAt := none }))) ∧
        (set.idle = false → k.isIdle = true → exec (.lnkConfig mb h) s = .next (s.during h c fun _ d =>
          doneCmd c 0x0B00 (d.setLink l { set with exitAt := some (k.exitAt.getD s.dev.time.raw) }))) ∧
        (set.idle = false → k.isIdle = false →
          exec (.lnkConfig mb h) s = .next (s.during h c fun _ d => doneCmd c 0x0B00 (d.setLink l set))))) ∧
    (s.begins lnkTrainSpec mb h = some c →
      (k.stage ≠ 5 → exec (.lnkTrain mb h) s = .next (s.during h c fun _ d => d.setLink l { k with trainSeqs := k.trainSeqs ++ [c.seq] })) ∧
      (k.stage = 5 → exec (.lnkTrain mb h) s = .next (s.during h c fun _ d => let d1 := startRetrain l d
        d1.setLink l { d1.link l with trainSeqs := (d1.link l).trainSeqs ++ [c.seq] }))) ∧
    (s.begins lnkDomainSpec mb h = some c →
      let m1 : Domain := {
        id := c.arg 0 2, dev := c.arg 2 1, parent := c.arg 3 1, phaseFs := m.phaseFs
        ingress := (List.range 16).foldl (fun q v => Store.set 0 q v (c.arg (4 + v) 1)) []
        relay := (List.range 4).foldl (fun q j => Store.set 0 q j (BitVec.ofNat 16 (c.arg (20 + 2 * j) 2))) []
        depth := if c.arg 0 2 ≠ 0 ∧ c.arg 3 1 = 0xFF then 0 else 0xFF }
      ((∀ j : Fin 4, linkActive (s.dev.link j) = false) →
        exec (.lnkDomain mb h) s = .next (s.during h c fun _ d => doneCmd c 0x0B00 { endAlign d with domain := m1 })) ∧
      exec (.lnkDomain mb h) s = .next (s.during h c fun _ d => doneCmd c 0x0B00
        (({ endAlign d with domain := m1 } : Dev).forAll [0, 1, 2, 3] fun j d => if linkActive (d.link j) then startRetrain j d else d)) ∧
      (Store.wf {} s.dev.links = true → ∃ t, exec (.lnkDomain mb h) s = .next t ∧ ∀ j : Fin 4, linkActive (s.dev.link j) = true →
        (t.dev.link j).stage = 2 ∧ (t.dev.link j).timed = false ∧ (t.dev.link j).retrains = ((s.dev.link j).retrains + 1) % 2 ^ 32)) ∧
    (s.begins (lnkAlignSpec dPC dCP) mb h = some c →
      let dCP := (s.dev.link m.parent).peerMean.getD dCP
      let delay := Int.fdiv (dPC + dCP) 2
      let theta := Int.fdiv (dPC - dCP - c.argS 8 8) 2
      let m1 : Domain := { m with
        aligned := false, alignSeq := some c.seq, alignDelay := delay, alignTheta := theta, phaseFs := m.phaseFs - theta
        alignEnd := s.dev.time.raw + 1000 * ((theta.natAbs + 999) / 1000) }
      exec (.lnkAlign mb h dPC dCP) s = .next (s.during h c fun _ d =>
        { d.setLink m.parent { d.link m.parent with delayFs := delay, peerMean := none } with domain := m1 }))

/-- What happens on a link (R442 to R452, R454, R457): it goes up stage by stage, fails at a stage's limit or at a skew beyond 64 UI, and
tries again at stage 1; it sends a 240-byte frame at each slot under the next sequence number, each lane beginning with its marker (R442); a
parent sends a mean it has measured (R456); an intact frame is held and makes the link timed, a broken one is counted; a held frame of a
timed link reaches the die at 16 × SLOT + 48 (R445): its chords, fire and control message are taken where INGRESS names this link, the
messages once, and go on to the timed links whose RELAY names their source, a chord in the slot 16 ticks later, while a misrouted chord is
only counted (R454); one of an untimed link leaves nothing but its place; a segment is taken, its type obeyed and its buffer given back, or
resent; a failed bring-up goes on at stage 1 with the interval of the retrain it belongs to (R525); CTLE goes one step; idle is left;
markers missing for 4 frames retrain a link at stage 4 or 5 (R446); alignment is tracked, its correction held while a program runs and taken
at once with none (R457); and a slew ends with its verification. When the periodic rows run is the model's own (log entry 117). -/
def Obligations.LinkRows : Prop :=
  ∀ (l : Fin 4) (bytes : List Byte) (off delay res theta : Int) (found reversed : Bool) (skew : Nat) (f : LinkFrame) (fs : List LinkFrame)
      (g : Segment) (gs : List Segment) (c : Cmd) (n : Nat) (s : State), s.dev.wr = [] → Store.wf {} s.dev.links = true →
    let k := s.dev.link l
    let m := s.dev.domain
    let raw := s.dev.time.raw
    let becomes (i : Instr) (k1 : Link) : Prop := exec i s = .next { s with dev := s.dev.setLink l k1 }
    (k.stage = 1 → k.failAt = none → found = true → ∃ t, exec (.linkReceiverDetect l found) s = .next t ∧ t.dev.link l =
      { k with ctle := k.ctleCodes.getD s.dev.thermal.band 0, stage := 2, stageAt := t.dev.time.raw, crcWindow := 0
               scramble := (List.range 4).map fun m => Config.laneSeed m % 2 ^ 31 }) ∧
    (k.stage = 2 → k.failAt = none → becomes (.linkBitLock l) { k with stage := 3, stageAt := raw }) ∧
    (k.stage = 3 → k.failAt = none →
      (skew ≤ 64 → ∃ t, exec (.linkMarkerLock l reversed skew) s = .next t ∧ (t.dev.link l).stage = 4 ∧ (t.dev.link l).credits = 32 ∧
        (t.dev.link l).reversed = reversed ∧ (t.dev.link l).sending = capabilityBytes s.ctx s.dev :: k.sending ∧
        (t.dev.link l).unacked = k.unacked.map (fun q => { q with again := true, lost := true }) ∧ (t.dev.link l).toReturn = 0) ∧
      (64 < skew → exec (.linkMarkerLock l reversed skew) s = .next (s.on fun _ d => linkFail l 4 d))) ∧
    (k.stage = 4 → k.failAt = none → k.segIn.find? isCapability = some g → m.id = 0 → delay ≤ 20000000 →
      ∃ t, exec (.capabilityExchange l delay) s = .next t ∧ (t.dev.link l).stage = 5 ∧ (t.dev.link l).delayFs = delay ∧
        (t.dev.link l).peerDev = fld g.bytes 1 1 ∧ (t.dev.link l).trainSeqs = [] ∧ t.dev.evt.pend.getLsbD 136 = true) ∧
    (k.failAt = none → k.stage = 2 ∨ k.stage = 3 ∨ k.stage = 4 → ∃ t, exec (.linkStageTimeout l) s = .next t ∧
      (t.dev.link l).failAt = some t.dev.time.raw ∧ (t.dev.link l).reason = (if k.stage = 4 then 5 else k.stage)) ∧
    (k.failAt = some n → ∃ t, exec (.linkRetry l) s = .next t ∧ (t.dev.link l).stage = 1 ∧ (t.dev.link l).failAt = none ∧
      (t.dev.link l).retrainAt = k.retrainAt) ∧
    (3 ≤ k.stage → k.failAt = none → k.isIdle = false → ∃ t, exec (.linkFrameTransmit l) s = .next t ∧
      (t.dev.link l).seq = (k.seq + 1) % 2 ^ 16 ∧ (t.dev.link l).lastTx.length = 240 ∧ fld (t.dev.link l).lastTx 0 2 = k.seq % 2 ^ 16 ∧
      (t.dev.link l).lanes.length = 4 ∧ ∀ w ∈ (t.dev.link l).lanes, w.toNat % 2 ^ 32 = Config.laneMarker % 2 ^ 32) ∧
    (linkActive k = true → k.failAt = none → m.id ≠ 0 → m.parent ≠ l → k.credits = 0 → k.unacked = [] →
      ∃ t, exec (.linkFrameTransmit l (some (res, n))) s = .next t ∧
        (t.dev.link l).sending = k.sending ++ [le 1 2 ++ zeros 7 ++ leI 8 res ++ le 2 n ++ zeros 14]) ∧
    (k.stage = 5 → k.failAt = none → k.isIdle = false → k.crcWindow = 0 →
      (frameOf bytes = some f → m.id ≠ 0 → k.peerDomain = m.id → off.natAbs ≤ 4 →
        becomes (.linkFrameReceive l bytes off) { classTwoIn k f with timed := true, held := k.held ++ [f] }) ∧
      (frameOf bytes = none → k.crcTimes = [] → becomes (.linkFrameReceive l bytes off) { k with
        crcErrors := (k.crcErrors + 1) % 2 ^ 64, crcTimes := [raw], crcWindow := 1, crcWindowAt := raw })) ∧
    (k.held = f :: fs → k.timed = false → becomes (.linkFrameRelease l) { k with held := fs }) ∧
    (k.held = f :: fs → linkTimed k = true →
      let atTick := 16 * slotNear s.dev.time.lat f.slot + 48
      let lat := (advanceTo atTick s.dev).time.lat
      let here (src : Nat) : Bool := Store.get 0 m.ingress src = l.val
      let relayed {α : Type} (src : Nat) (j : Fin 4) (v : α) : List α :=
        if (Store.get 0 m.relay j).getLsbD src && linkTimed (s.dev.link j) then [v] else []
      exec (.linkFrameRelease l) s = .next (s.on fun _ d =>
        let d1 := f.chords.foldl (fun d q => chordIn l q d) ((advanceTo atTick d).setLink l { k with held := fs })
        let d2 := match f.fire with | none => d1 | some q => fireArrives l q d1
        match f.ctrl with | none => d2 | some q => ctrlArrives l q d2) ∧
      (∀ q, f.chords = [q] → f.fire = none → f.ctrl = none →
        (here q.dev = true → ∃ t, exec (.linkFrameRelease l) s = .next t ∧ t.dev.time.lat = lat ∧ q ∈ t.dev.chords.store ∧
          t.dev.chords.remoteRecv = (s.dev.chords.remoteRecv + 1) % 2 ^ 64 ∧
          ∀ j : Fin 4, (t.dev.link j).chordQ = (s.dev.link j).chordQ ++ relayed q.dev j (lat + 16, q)) ∧
        (here q.dev = false → ∃ t, exec (.linkFrameRelease l) s = .next t ∧ t.dev.time.lat = lat ∧ t.dev.chords = s.dev.chords ∧
          t.dev.link l = { k with held := fs, misrouted := (k.misrouted + 1) % 2 ^ 32 })) ∧
      (∀ q, f.chords = [] → f.fire = some q → f.ctrl = none → here q.origin = true → k.seenFires.contains (q.origin, q.t) = false →
        ∃ t, exec (.linkFrameRelease l) s = .next t ∧ t.dev.time.lat = lat ∧ (t.dev.link l).fireIn = k.fireIn ++ [{ q with copy := false }] ∧
          ∀ j : Fin 4, (t.dev.link j).fires = (s.dev.link j).fires ++ relayed q.origin j { q with copy := false }) ∧
      (∀ q, f.chords = [] → f.fire = none → f.ctrl = some q → here q.origin = true → k.seenCtrls.contains (q.type, q.origin, q.armAt) = false →
        ∃ t, exec (.linkFrameRelease l) s = .next t ∧ t.dev.time.lat = lat ∧ (t.dev.link l).ctrlIn = k.ctrlIn ++ [{ q with copy := false }] ∧
          ∀ j : Fin 4, (t.dev.link j).ctrls = (s.dev.link j).ctrls ++ relayed q.origin j { q with copy := false })) ∧
    (k.segIn = g :: gs → let k1 := { k with segIn := gs, toReturn := if g.lost then k.toReturn else k.toReturn + 1 }
      (fld g.bytes 0 1 = 1 → ∃ t, exec (.segmentReceive l) s = .next t ∧ t.dev.link l = { k1 with
        peerDev := fld g.bytes 1 1, peerDomain := fld g.bytes 2 2, peerDepth := fld g.bytes 4 1, peerSerial := fld g.bytes 8 8 }) ∧
      (fld g.bytes 0 1 = 2 → ∃ t, exec (.segmentReceive l) s = .next t ∧ t.dev.link l = { k1 with
        peerMean := some (fldS g.bytes 8 8), peerMeanSeq := fld g.bytes 16 2 }) ∧
      (fld g.bytes 0 1 ≠ 1 → fld g.bytes 0 1 ≠ 2 → becomes (.segmentReceive l) k1)) ∧
    (k.unacked.find? (fun q => decide (64 ≤ q.age) && !q.again) = some g → becomes (.segmentResend l)
      { k with unacked := k.unacked.map (fun q => if q.seq = g.seq then { q with again := true } else q) }) ∧
    (let want := k.ctleCodes.getD s.dev.thermal.band 0
     let k1 : Link := { k with ctle := if k.ctle < want then k.ctle + 1 else if want < k.ctle then k.ctle - 1 else k.ctle }
     k.stage = 5 → exec (.ctleStep l) s = .next { s with dev := (paced (.ctle l) s.dev).setLink l k1 }) ∧
    (k.exitAt = some n → found = true → ∃ t, exec (.linkIdleExit l found) s = .next t ∧
      t.dev.link l = { k with isIdle := false, exitAt := none }) ∧
    ((k.stage = 5 ∨ (k.stage = 4 ∧ k.failAt = none)) → k.isIdle = false →
      exec (.laneMarkersMissing l) s = .next (s.on fun _ d => startRetrain l d) ∧
      ∃ t, exec (.laneMarkersMissing l) s = .next t ∧ (t.dev.link l).stage = 2 ∧ (t.dev.link l).retrains = (k.retrains + 1) % 2 ^ 32) ∧
    (m.aligned = true → linkActive (s.dev.link m.parent) = true →
      (theta.natAbs ≤ 5000 → let step := clampI (-100) 100 theta
        exec (.alignTrack theta) s = .next { s with dev := { (paced .align s.dev) with domain :=
          (if running s.dev then { m with theta := theta, corr := step } else { m with theta := theta, phaseFs := m.phaseFs - step, corr := 0 } : Domain) } }) ∧
      (5000 < theta.natAbs → ∃ t, exec (.alignTrack theta) s = .next t ∧ t.dev.domain.aligned = false ∧ t.dev.evt.pend.getLsbD 140 = true)) ∧
    (m.alignSeq = some n → cmdOf s.dev n = some c →
      (res.natAbs ≤ 500 → ∃ t, exec (.latticeSlewEnd res) s = .next t ∧ t.dev.domain.aligned = true ∧ t.dev.domain.theta = res ∧
        t.dev.domain.alignSeq = none ∧ t.dev.evt.pend.getLsbD 139 = true) ∧
      (500 < res.natAbs → ∃ t, exec (.latticeSlewEnd res) s = .next t ∧ t.dev.domain.aligned = false ∧ t.dev.domain.alignSeq = none))

/-! The mirror core (17) and ledgers (03). -/

/-- The mirror core (R467 to R489): status and configuration; a planned switch-over waits for its meridian; a resynchronisation starts and
ends with the standby holding the per-core state; an epoch is closed and applied; heartbeats count, each core's 2 µs after the other's, and
are noted with what they carry; the standby takes over when it hears the active core on neither path, or, where it may not, the active core
is lost as on an S part (R472, R489); a path alone that is silent is faulted, till it is restored, and none where both are to the active
core (R474); a core that resigns is taken over from or reloads; the gap ends; a token that the standby has computed for a shadow shot and
the active core has not issued is a mismatch (R481); a deposed core and failed self-tests leave the standby as R473 and R482 say, and a
standby whose self-test has latched raises its event and stays. LEDGER_CHECK (R526) reports an identity that has been out of balance for 1
ms. And whatever a takeover finds (R473, R475, R476, and R115 for a standby in state 5), the standby is the active core from then on, the
core it deposed waits for its latch, the switch-over is counted with its instant and reason, no planned one is left, and the device and its
link go on; so do lattice and wall time, the envelope store and its pages, the marker's vectors and timing sets, the calibration store, the
flash and the rings' configuration, where no unfinished command has changed any of them, and no commit and no slot write is in progress.
What such a command has written to the envelope store reads, once undone, as before, but where it has been written anew since, and every
other word stands. The model's own readings are how self-test events and passes count (log entries 32, 58), when periodic rows and ledger
checks run (log entries 117, 119), which paths are faulted where both are silent (log entry 31), how the shadow run is compared (log entry
66), and what a takeover undoes (log entry 106). -/
def Obligations.MirrorAndLedgerRows : Prop :=
  (∀ (mb : Fin 32) (h : HostSide) (s : State) (c : Cmd) (byMirror offDie healthy : Bool) (g : SwitchOver) (ns : Nat)
       (e : Nat × Core × Resume) (faults : List (Nat × ShadowTok)), s.dev.wr = [] →
     let m := s.dev.mirror
     let into (m1 : Mirror) : Host.Outcome State Fault Refusal := .next { s with dev := { s.dev with mirror := m1 } }
     let key := flag offDie 1 + flag byMirror 0
     let standby := !s.dev.hif.core
     let later := advance (silentAt offDie s.dev - s.dev.time.raw) s.dev
     (s.begins mirStatusSpec mb h = some c →
       exec (.mirStatus mb h) s = .next (s.during h c fun _ d => let d1 := settleBist d; replyCmd c 0x0C00 (mirStatusBytes d1) d1)) ∧
     (s.begins mirSwitchSpec mb h = some c → running s.dev = true → exec (.mirSwitch mb h) s = .next (s.during h c fun _ d =>
       { d with mirror := { m with planned := some 3, planSeq := some c.seq } })) ∧
     (s.begins mirResyncSpec mb h = some c → bitOf (c.arg 0 1) 0 = false → ∃ t, exec (.mirResync mb h) s = .next t ∧
       t.dev.mirror.standby = 3 ∧ t.dev.mirror.resyncSeq = some c.seq) ∧
     (s.begins mirConfigSpec mb h = some c →
       let m1 : Mirror := { m with takeover := bitOf (c.arg 0 1) 0, shadow := bitOf (c.arg 0 1) 1, autoRecover := bitOf (c.arg 0 1) 2 }
       exec (.mirConfig mb h) s = .next (s.during h c fun _ d => doneCmd c 0x0C00 { d with mirror := m1 })) ∧
     (s.fuse.duplex = true → firmwareRuns s.dev = true → running s.dev = true → m.sw = none → ∃ t, exec .epochTimerClose s = .next t ∧
       t.dev.mirror.epochs = m.epochs + 1 ∧ t.dev.mirror.epochLt = t.dev.time.lat ∧
       t.dev.mirror.closed = some (m.epochs + 1, s.dev.core, if 0 < s.dev.core.run.k then m.point else m.resume)) ∧
     (followsEpochs s.dev = true → m.closed = some e →
       exec (.epochApply true) s = into { m with
         copy := e.2.1, copyResume := e.2.2, copyEpoch := e.1, closed := none
         shadowFrom := if e.2.2.shot = m.copyResume.shot ∧ m.copyEpoch ≠ 0 then m.shadowFrom else e.2.1 } ∧
       exec (.epochApply false) s = into { m with closed := none }) ∧
     (s.fuse.duplex = true → coreUp s.dev byMirror = true →
       exec (.heartbeatSend byMirror) s = .next { s with dev := { paced (.heartbeat byMirror) (interleaved byMirror s.dev) with mirror :=
         { m with beats := if byMirror then (m.beats.1, m.beats.2 + 1) else (m.beats.1 + 1, m.beats.2) } } } ∧
       exec (.heartbeatReceive byMirror offDie healthy) s = into { m with
         seen := Store.set 0 m.seen key s.dev.time.raw, sick := Store.set 0 m.sick key (if healthy then 0 else 1)
         heard := Store.set none m.heard key (some { mirror := !byMirror, seq := beatOf m (!byMirror), epoch := m.epochs, healthy := healthy })
         heardFrom := if Store.get 0 m.seen key + 12000 < s.dev.time.raw then Store.set 0 m.heardFrom key s.dev.time.raw else m.heardFrom }) ∧
     (s.fuse.duplex = true → s.dev.hif.state = .ready → 3 ≤ m.standby → m.sw = none →
       (silent later false standby = true → silent later true standby = true → mayTakeOver s.dev = true →
         exec (.heartbeatTimeout offDie) s = .next (s.on fun x d => takeOver 1 x (advance (silentAt offDie d - d.time.raw) d))) ∧
       (silent later false standby = true → silent later true standby = true → mayTakeOver s.dev = false →
         exec (.heartbeatTimeout offDie) s = .next (s.on fun x d => reloadCore x (advance (silentAt offDie d - d.time.raw) d))) ∧
       (silent later offDie standby = false → silent later false (!standby) = true → silent later true (!standby) = true →
         exec (.heartbeatTimeout offDie) s = .next { s with dev := later }) ∧
       (silent later offDie standby = true → silent later (!offDie) standby = false →
         m.onDieFault = false → m.offDieFault = false → ∃ t, exec (.heartbeatTimeout offDie) s = .next t ∧
           t.dev.mirror.offDieFault = offDie ∧ t.dev.mirror.onDieFault = !offDie ∧ t.dev.evt.pend.getLsbD 153 = true)) ∧
     (pathFaulted s.dev offDie = true → carries s.dev offDie false = true → carries s.dev offDie true = true →
       ∃ t, exec (.heartbeatPathRestored offDie) s = .next t ∧ pathFaulted t.dev offDie = false ∧ t.dev.evt.pend.getLsbD 154 = true ∧
         t.dev.time = (advance (wholeAt offDie s.dev - s.dev.time.raw) s.dev).time) ∧
     (s.fuse.duplex = true → firmwareRuns s.dev = true →
       (mayTakeOver s.dev = true → exec .coreResign s = .next (s.on fun x d => takeOver 2 x d)) ∧
       (mayTakeOver s.dev = false → exec .coreResign s = .next (s.on fun x d => reloadCore x d))) ∧
     (m.sw = some g → g.gapOver = false → ns ≤ 2000 → running s.dev = true → exec (.switchoverGapEnd ns) s = .next (s.on fun x d =>
       let d1 := advanceTo (g.t + ns) d
       gapEffects x (resumeShot d.core.run.k { d1 with mirror := { m with sw := some { g with gapOver := true }, lastGap := ns } }))) ∧
     (m.deposedRunning = true →
       (m.autoRecover = false → exec .deposedLatchSeen s = into { m with deposedRunning := false }) ∧
       (m.autoRecover = true → ∃ t, exec .deposedLatchSeen s = .next t ∧ t.dev.mirror.standby = 2 ∧ t.dev.mirror.loadSrc = m.imgActive.src)) ∧
     (m.standby = 3 → firmwareRuns s.dev = true → ∃ t, exec .resyncComplete s = .next t ∧ t.dev.mirror.standby = resyncState m ∧
       t.dev.mirror.copy = s.dev.core ∧ t.dev.mirror.copyResume = insideResume s.dev ∧ t.dev.mirror.shadowFrom = s.dev.core) ∧
     (shadowBad faults s.ctx s.dev = true → m.recentErrors = 0 →
       ∃ t, exec (.shadowMismatch faults) s = .next t ∧ t.dev.mirror.standby = 3 ∧ t.dev.mirror.mismatches = (m.mismatches + 1) % 2 ^ 64 ∧ t.dev.evt.pend.getLsbD 156 = true) ∧
     (m.standby = 4 → m.errLatched = false → m.recentErrors = 2 → s.dev.time.raw ≤ m.resyncEnd + 1000000000 → ∃ t, exec .bistError s = .next t ∧
       t.dev.mirror.standby = 6 ∧ t.dev.mirror.errLatched = true ∧ t.dev.mirror.bistErrors = (m.bistErrors + 1) % 2 ^ 32) ∧
     (3 ≤ m.standby → m.errLatched = true → ∃ t, exec .bistError s = .next t ∧ t.dev.mirror.standby = m.standby ∧
       t.dev.mirror.bistErrors = (m.bistErrors + 1) % 2 ^ 32 ∧ t.dev.evt.pend.getLsbD 156 = true) ∧
     (firmwareRuns s.dev = true →
       (unbalanced s.dev = [] → exec .ledgerCheck s = .next { s with dev := { paced .ledger s.dev with ledger := { s.dev.ledger with
         suspects := [], faults := s.dev.ledger.faults % 2 ^ 32 } } }) ∧
       (∀ q since, unbalanced s.dev = [q] → s.dev.ledger.suspects = [(q, since)] →
         since + 1000000 ≤ (paced .ledger s.dev).time.raw → ∃ t, exec .ledgerCheck s = .next t ∧
         t.dev.ledger.faults = (s.dev.ledger.faults + 1) % 2 ^ 32 ∧ t.dev.evt.pend.getLsbD 52 = true))) ∧
  (∀ (reason : Nat) (x : Ctx) (d : Dev), d.mirror.standby = 4 ∨ d.mirror.standby = 5 →
     let t := takeOver reason x d
     t.hif.core = !d.hif.core ∧ t.hif.state = d.hif.state ∧ t.hif.linkUp = d.hif.linkUp ∧ t.mirror.standby = 1 ∧ t.mirror.planned = none ∧
       t.mirror.deposedRunning = true ∧ t.mirror.failed = false ∧ t.mirror.switchovers = (d.mirror.switchovers + 1) % 2 ^ 32 ∧ t.mirror.lastT = d.time.lat ∧
       t.mirror.lastReason = reason ∧ t.mirror.imgActive = d.mirror.imgStandby ∧ t.core.fabric = [] ∧
       (∃ g, t.mirror.sw = some g ∧ g.t = d.time.lat ∧ g.gapOver = false) ∧
       (d.mirror.undo = [] → d.cal.committing = none → d.images.writeSeq = none → Store.wf {} d.acq.rings = true →
         t.time = d.time ∧ t.env = d.env ∧ t.pages = d.pages ∧ t.marker.vectors = d.marker.vectors ∧ t.marker.tsets = d.marker.tsets ∧
         t.cal.slots = d.cal.slots ∧ t.cal.stores = d.cal.stores ∧ t.images.slot0 = d.images.slot0 ∧ t.images.slot1 = d.images.slot1 ∧
         t.images.dirA = d.images.dirA ∧ t.images.dirB = d.images.dirB ∧ ∀ n : Fin 16, (t.acqRing n).plan = (d.acqRing n).plan)) ∧
  (∀ (gone : Nat → Bool) (u : Undo) (d : Dev) (a : Nat), d.mirror.undo = [u] → gone u.seq = true → Store.wf 0 d.env = true →
     let word (st : Store (BitVec 32)) : BitVec 32 := Store.get 0 st a
     word (undoCommands gone d).env =
       if word u.before.env ≠ word u.after.env ∧ word d.env = word u.after.env then word u.before.env else word d.env)

/-! Temperature, housekeeping and rails (18). -/

/-- Temperature, housekeeping and rails (R490 to R509, R514 to R518): status, configurations and conversions; a sample gives each sensor in
service whose reading passes its value; a band falls by one when its floor's second is over, the warning clears and a throttle level is let
go after theirs; MR4 is noted; a rail scan notes every rail; a conversion takes its samples, and the last ends its command; the results
still to settle are kept for the next conversion of the same selection, and the end of low-power mode makes the next two settle (R505,
R507). When the periodic rows run, and when a conversion's first sample is due, are the model's own (log entries 117, 120). -/
def Obligations.ThermalAndHouseRows : Prop :=
  ∀ (mb : Fin 32) (h : HostSide) (s : State) (c : Cmd) (ts td : List SensorReading) (volts amps : List Int) (ch : Fin 2) (fast : Bool)
      (code : BitVec 12) (value : Int) (retaken : Bool) (v : Convert) (since : Nat), s.dev.wr = [] →
    let t0 := s.dev.thermal
    let house := s.dev.house
    (s.begins thmStatusSpec mb h = some c →
      exec (.thmStatus mb h) s = .next (s.during h c fun _ d => replyCmd c 0x0D00 (thmStatusBytes d) d)) ∧
    (s.begins thmConfigSpec mb h = some c → ∃ t, exec (.thmConfig mb h) s = .next t ∧
      t.dev.thermal.extendNext = some (bitOf (c.arg 0 1) 0) ∧ t.dev.thermal.extend = t0.extend ∧
      (∀ n : Fin 4, t0.remotes = [] →
        (t.dev.remote n).limit = c.argS (4 + 2 * n) 2 ∧ (t.dev.remote n).ideal = c.arg (12 + 2 * n) 2)) ∧
    (s.begins hkaConvertSpec mb h = some c →
      let sel := (c.arg 0 1, c.arg 1 1, c.arg 2 1)
      let q : Convert := {
        channel := c.arg 0 1, sub := c.arg 1 1, gain := c.arg 2 1, count := c.arg 4 4, interval := c.arg 8 4, seq := c.seq
        due := s.dev.time.raw + c.arg 8 4, settle := if house.lastSel = sel then house.lastSettle else 2 }
      exec (.hkaConvert mb h) s = .next (s.during h c fun _ d => { d with house := { house with conv := some q, lastSel := sel } })) ∧
    (s.begins hkaConfigSpec mb h = some c →
      let low := decide (c.arg 0 1 = 1)
      exec (.hkaConfig mb h) s = .next (s.during h c fun _ d =>
        let d1 := if lowPowerNow s.dev = true ∧ low = false then wakeAdc d else d
        doneCmd c (if low = true ∧ t0.periodUs ≠ 10000 then 0x0D01 else 0x0D00) { d1 with house := { d1.house with lowPower := low } })) ∧
    (s.begins railStatusSpec mb h = some c → bitOf (c.arg 0 1) 0 = false → exec (.railStatus mb h) s = .next (s.during h c fun x d =>
      okCmd c 0x0D00 0 ((List.range 6).flatMap (railEntry x d) ++ le 8 s.dev.time.lat) true d)) ∧
    (firmwareRuns s.dev = true → ts.length = 24 → td.length = 4 → Store.wf {} t0.sensors = true →
      ∃ t, exec (.sensorSample ts td) s = .next t ∧ ∀ (n : Fin 24) (u : Int), (ts.map SensorReading.value).getD n none = some u →
        (s.dev.sensor n).state = 0 → checkReading (paced .sensors s.dev) (ts.map SensorReading.value) n = 0 →
        (t.dev.sensor n).value = u ∧ (t.dev.sensor n).state = 0) ∧
    (t0.band ≠ 0 → Store.get none t0.bandCool t0.band = some since → ∃ t, exec .bandFall s = .next t ∧
      t.dev.time = (advance (since + 1000000000 - s.dev.time.raw) s.dev).time ∧ t.dev.thermal.band = t0.band - 1 ∧ t.dev.evt.pend.getLsbD 172 = true) ∧
    (t0.warning = true → t0.warnCool = some since →
      let d1 := advance (since + 1000000000 - s.dev.time.raw) s.dev
      exec .thermalWarningClear s = .next { s with dev := { d1 with thermal := { t0 with warning := false } } }) ∧
    (t0.level ≠ 0 → Store.get none t0.levelCool t0.level = some since →
      let d1 := advance (since + 100000000 - s.dev.time.raw) s.dev
      (running s.dev = true → exec .throttleRelease s = .next { s with dev := { d1 with thermal := { t0 with release := true } } }) ∧
      (running s.dev = false → ∃ t, exec .throttleRelease s = .next t ∧ t.dev.thermal.level = t0.level - 1 ∧
        t.dev.evt.pend.getLsbD 174 = true)) ∧
    (let bit := BitVec.ofNat 2 (2 ^ ch.val)
     exec (.mr4Poll ch fast) s = .next { s with dev := { paced (.mr4 ch) s.dev with thermal := { t0 with
      mr4 := if fast then t0.mr4 ||| bit else t0.mr4 &&& ~~~bit } } }) ∧
    (firmwareRuns s.dev = true → volts.length = 6 → Store.wf {} house.rails = true → ∃ t, exec (.railScan volts amps) s = .next t ∧
      ∀ n : Fin 6, (t.dev.rail n).v = volts.getD n 0 ∧ (t.dev.rail n).scanned = true) ∧
    (house.conv = some v →
      let settle := if retaken then 2 else v.settle
      let e := advance (v.due - s.dev.time.raw) s.dev
      let taken := v.taken ++ hkaEntry e.time.lat v code value (decide (0 < settle) || lowPowerNow s.dev) retaken
      (v.n + 1 < v.count → exec (.hkaSample code value retaken) s = .next { s with dev := { e with house := { house with
        conv := some { v with taken := taken, n := v.n + 1, settle := settle - 1, due := e.time.raw + v.interval }
        lastSel := (v.channel, v.sub, v.gain), lastSettle := settle - 1 } } }) ∧
      (v.count ≤ v.n + 1 → cmdOf s.dev v.seq = some c → c.dead = false → exec (.hkaSample code value retaken) s = .next (s.on fun _ d =>
        okCmd c 0x0D00 0 taken false { advance (v.due - d.time.raw) d with house := { house with
          conv := none, lastSel := (v.channel, v.sub, v.gain), lastSettle := settle - 1 } })))

end
end

