-- ==== Sys2Proof/Laws/Bytes.lean ====
section
/-! SUPPORT. Little-endian fields: what a field reads of the bytes that `le` laid out. -/

namespace Sys2Proof.Machine

@[simp] theorem length_le (n v : Nat) : (le n v).length = n := by
  induction n generalizing v with
  | zero => rfl
  | succ n ih => simp [le, ih]

/-- The number laid out, cut to the bytes it has. -/
theorem fromLe_le (n v : Nat) : fromLe (le n v) = v % 2 ^ (8 * n) := by
  induction n generalizing v with
  | zero => simp [le, fromLe, Nat.mod_one]
  | succ n ih =>
    have h1 : 2 ^ (8 * (n + 1)) = 256 * 2 ^ (8 * n) := by rw [Nat.mul_add, Nat.pow_add, Nat.mul_comm]
    simp only [le, fromLe, ih, BitVec.toNat_ofNat, h1]
    rw [Nat.mod_mul]

/-- A field that begins after a prefix. -/
theorem fld_append_right (a b : List Byte) (off n : Nat) (h : a.length ≤ off) : fld (a ++ b) off n = fld b (off - a.length) n := by
  unfold fld
  rw [List.drop_append, List.drop_eq_nil_of_le h, List.nil_append]

/-- The field that a prefix is. -/
theorem fld_append_le (v n : Nat) (b : List Byte) : fld (le n v ++ b) 0 n = v % 2 ^ (8 * n) := by
  unfold fld
  rw [List.drop_zero, List.take_left' (length_le n v), fromLe_le]

end Sys2Proof.Machine
end

