-- ==== Sys2Proof/Laws/Store.lean ====
section
/-! SUPPORT. Laws of the sparse table: reading after writing, and the canonical form. -/

namespace Sys2Proof

@[simp] theorem Store.get_nil {β : Type} (d : β) (k : Nat) : Store.get d [] k = d := rfl

variable {α : Type} [DecidableEq α] {dflt : α}

/-- A key below every listed one reads as the default. -/
theorem Store.get_below {lo k : Nat} {m : Store α} (h : Store.wfFrom dflt lo m = true) (hk : k < lo) :
    Store.get dflt m k = dflt := by
  induction m generalizing lo with
  | nil => rfl
  | cons p rest ih =>
    obtain ⟨j, v⟩ := p
    simp only [Store.wfFrom, Bool.and_eq_true, decide_eq_true_eq] at h
    simp only [Store.get]
    split
    · omega
    · exact ih h.2 (by omega)

theorem Store.wfFrom_mono {lo lo' : Nat} {m : Store α} (h : Store.wfFrom dflt lo m = true) (hl : lo' ≤ lo) :
    Store.wfFrom dflt lo' m = true := by
  cases m with
  | nil => rfl
  | cons p rest =>
    obtain ⟨j, v⟩ := p
    simp only [Store.wfFrom, Bool.and_eq_true, decide_eq_true_eq] at h ⊢
    exact ⟨⟨by omega, h.1.2⟩, h.2⟩

/-- Writing keeps the canonical form. -/
theorem Store.wfFrom_set {lo k : Nat} {v : α} {m : Store α} (h : Store.wfFrom dflt lo m = true) (hk : lo ≤ k) :
    Store.wfFrom dflt lo (Store.set dflt m k v) = true := by
  induction m generalizing lo with
  | nil =>
    by_cases hv : v = dflt <;> simp [Store.set, Store.wfFrom, hv, hk]
  | cons p rest ih =>
    obtain ⟨j, w⟩ := p
    simp only [Store.wfFrom, Bool.and_eq_true, decide_eq_true_eq] at h
    obtain ⟨⟨hj, hw⟩, hr⟩ := h
    simp only [Store.set]
    split
    · split
      · simp [Store.wfFrom, hj, hw, hr]
      · simp only [Store.wfFrom, Bool.and_eq_true, decide_eq_true_eq]
        exact ⟨⟨hk, ‹_›⟩, ⟨by omega, hw⟩, hr⟩
    · split
      · split
        · exact Store.wfFrom_mono hr (by omega)
        · simp only [Store.wfFrom, Bool.and_eq_true, decide_eq_true_eq]
          exact ⟨⟨hk, ‹_›⟩, by subst_vars; exact hr⟩
      · simp only [Store.wfFrom, Bool.and_eq_true, decide_eq_true_eq]
        exact ⟨⟨hj, hw⟩, ih hr (by omega)⟩

theorem Store.wf_set {k : Nat} {v : α} {m : Store α} (h : Store.wf dflt m = true) : Store.wf dflt (Store.set dflt m k v) = true :=
  Store.wfFrom_set h (Nat.zero_le k)

/-- In a canonical table a read after a write gives the value written. -/
theorem Store.get_set_same_from {lo k : Nat} {v : α} {m : Store α} (h : Store.wfFrom dflt lo m = true) :
    Store.get dflt (Store.set dflt m k v) k = v := by
  induction m generalizing lo with
  | nil => by_cases hv : v = dflt <;> simp [Store.set, Store.get, hv]
  | cons p rest ih =>
    obtain ⟨j, w⟩ := p
    simp only [Store.wfFrom, Bool.and_eq_true, decide_eq_true_eq] at h
    simp only [Store.set]
    split
    · split
      · subst_vars
        simp only [Store.get]
        rw [if_neg (by omega)]
        exact Store.get_below h.2 (by omega)
      · simp [Store.get]
    · split
      · split
        · subst_vars; exact Store.get_below h.2 (by omega)
        · simp [Store.get]
      · simp only [Store.get]
        rw [if_neg ‹_›]
        exact ih h.2

theorem Store.get_set_same {k : Nat} {v : α} {m : Store α} (h : Store.wf dflt m = true) :
    Store.get dflt (Store.set dflt m k v) k = v := Store.get_set_same_from h

/-- A write leaves every other key alone. -/
theorem Store.get_set_other {k i : Nat} {v : α} {m : Store α} (hne : i ≠ k) :
    Store.get dflt (Store.set dflt m k v) i = Store.get dflt m i := by
  induction m with
  | nil => by_cases hv : v = dflt <;> simp [Store.set, Store.get, hv, hne]
  | cons p rest ih =>
    obtain ⟨j, w⟩ := p
    simp only [Store.set]
    split
    · split
      · rfl
      · simp [Store.get, hne]
    · split
      · subst_vars
        split <;> simp [Store.get, hne]
      · simp only [Store.get]
        split
        · rfl
        · exact ih

end Sys2Proof
end

