-- ==== Sys2Proof/Laws/Memory.lean ====
section
/-! SUPPORT. Laws of the byte memories, and what committing a command's writes can do. -/

namespace Sys2Proof.Machine

theorem Mem.wf_put {m : Mem} {a : Nat} {b : Byte} (h : Mem.wf m = true) : Mem.wf (Mem.put m a b) = true := Store.wf_set h

theorem Mem.wf_write {m : Mem} {a : Nat} {bs : List Byte} (h : Mem.wf m = true) : Mem.wf (Mem.write m a bs) = true := by
  induction bs generalizing m a with
  | nil => exact h
  | cons b bs ih => exact ih (Mem.wf_put h)

/-- A byte outside the written range reads as before. -/
theorem Mem.byte_write_outside {m : Mem} {a i : Nat} {bs : List Byte} (h : i < a ∨ a + bs.length ≤ i) :
    Mem.byte (Mem.write m a bs) i = Mem.byte m i := by
  induction bs generalizing m a with
  | nil => rfl
  | cons b bs ih =>
    simp only [List.length_cons] at h
    rw [Mem.write, ih (by omega)]
    exact Store.get_set_other (by omega)

/-- A byte inside the written range reads as written. -/
theorem Mem.byte_write_inside {m : Mem} {a i : Nat} {bs : List Byte} (hm : Mem.wf m = true) (h : i < bs.length) :
    Mem.byte (Mem.write m a bs) (a + i) = bs[i] := by
  induction bs generalizing m a i with
  | nil => simp at h
  | cons b bs ih =>
    cases i with
    | zero =>
      rw [Mem.write, Mem.byte_write_outside (by omega)]
      exact Store.get_set_same hm
    | succ i =>
      simp only [List.length_cons] at h
      rw [Mem.write, show a + (i + 1) = (a + 1) + i by omega, ih (Mem.wf_put hm) (by omega)]
      rfl

/-- Reading back the range just written gives the bytes written. -/
theorem Mem.read_write_same {m : Mem} {a : Nat} {bs : List Byte} (hm : Mem.wf m = true) :
    Mem.read (Mem.write m a bs) a bs.length = bs := by
  apply List.ext_getElem
  · simp [Mem.read]
  · intro i h1 h2
    simp only [Mem.read, List.getElem_map, List.getElem_range]
    exact Mem.byte_write_inside hm h2

theorem ddrAfter_wf {m : Mem} (w : MemWrite) (h : Mem.wf m = true) : Mem.wf (ddrAfter m w) = true := by
  cases w with
  | ddr a bs => exact Mem.wf_write h
  | host a bs => exact h
  | ddrLost => rfl

theorem hostAfter_wf {m : Mem} (w : MemWrite) (h : Mem.wf m = true) : Mem.wf (hostAfter m w) = true := by
  cases w with
  | ddr a bs => exact h
  | host a bs => exact Mem.wf_write h
  | ddrLost => exact h

theorem foldl_ddrAfter_wf (ws : List MemWrite) {m : Mem} (h : Mem.wf m = true) : Mem.wf (ws.foldl ddrAfter m) = true := by
  induction ws generalizing m with
  | nil => exact h
  | cons w ws ih => exact ih (ddrAfter_wf w h)

theorem foldl_hostAfter_wf (ws : List MemWrite) {m : Mem} (h : Mem.wf m = true) : Mem.wf (ws.foldl hostAfter m) = true := by
  induction ws generalizing m with
  | nil => exact h
  | cons w ws ih => exact ih (hostAfter_wf w h)

/-- Everything a device operation can do to a state: it leaves the queue and the fuses, settles the write queue and keeps
both memories canonical. -/
theorem State.on_settled (s : State) (f : Ctx → Dev → Dev) (hd : Mem.wf s.ddr = true) (hh : Mem.wf s.host = true) :
    (s.on f).settled := ⟨foldl_ddrAfter_wf _ hd, foldl_hostAfter_wf _ hh, rfl⟩

@[simp] theorem State.on_pending (s : State) (f : Ctx → Dev → Dev) : (s.on f).pending = s.pending := rfl
@[simp] theorem State.on_fuse (s : State) (f : Ctx → Dev → Dev) : (s.on f).fuse = s.fuse := rfl
@[simp] theorem State.on_wr (s : State) (f : Ctx → Dev → Dev) : (s.on f).dev.wr = [] := rfl
@[simp] theorem State.sync_pending (s : State) (h : HostSide) : (s.sync h).pending = s.pending := rfl
@[simp] theorem State.sync_fuse (s : State) (h : HostSide) : (s.sync h).fuse = s.fuse := rfl
@[simp] theorem State.sync_ddr (s : State) (h : HostSide) : (s.sync h).ddr = s.ddr := rfl

theorem State.sync_host_wf {s : State} (h : HostSide) (hh : Mem.wf s.host = true) : Mem.wf (s.sync h).host = true := by
  have key : ∀ (cs : List (Nat × Byte)) (m : Mem), Mem.wf m = true →
      Mem.wf (cs.foldl (fun m c => Mem.put m c.1 c.2) m) = true := by
    intro cs
    induction cs with
    | nil => exact fun _ hm => hm
    | cons c cs ih => exact fun m hm => ih _ (Mem.wf_put hm)
  exact key _ _ hh

/-- An operation that queues no write leaves both memories as they were. -/
theorem State.on_quiet {s : State} {f : Ctx → Dev → Dev} (h : (f ⟨s.fuse, s.ddr, s.host⟩ s.dev).wr = []) :
    s.on f = { s with dev := f ⟨s.fuse, s.ddr, s.host⟩ s.dev } := by
  unfold State.on
  generalize f ⟨s.fuse, s.ddr, s.host⟩ s.dev = d at h ⊢
  cases d
  simp_all

end Sys2Proof.Machine
end

