-- ==== Sys2Proof/Laws/State.lean ====
section
/-! SUPPORT. What each named update of the device leaves alone: one lemma per field per update, true by definition, so that
no later proof unfolds a record update. -/

namespace Sys2Proof.Machine

/-! `Dev.setMb`. -/
@[simp] theorem Dev.setMb_hif (d : Dev) (m : Nat) (v : Mailbox) : (d.setMb m v).hif = d.hif := rfl
@[simp] theorem Dev.setMb_time (d : Dev) (m : Nat) (v : Mailbox) : (d.setMb m v).time = d.time := rfl
@[simp] theorem Dev.setMb_slots (d : Dev) (m : Nat) (v : Mailbox) : (d.setMb m v).slots = d.slots := rfl
@[simp] theorem Dev.setMb_bells (d : Dev) (m : Nat) (v : Mailbox) : (d.setMb m v).bells = d.bells := rfl
@[simp] theorem Dev.setMb_dma (d : Dev) (m : Nat) (v : Mailbox) : (d.setMb m v).dma = d.dma := rfl
@[simp] theorem Dev.setMb_evt (d : Dev) (m : Nat) (v : Mailbox) : (d.setMb m v).evt = d.evt := rfl
@[simp] theorem Dev.setMb_lattice (d : Dev) (m : Nat) (v : Mailbox) : (d.setMb m v).lattice = d.lattice := rfl
@[simp] theorem Dev.setMb_slack (d : Dev) (m : Nat) (v : Mailbox) : (d.setMb m v).slack = d.slack := rfl
@[simp] theorem Dev.setMb_discards (d : Dev) (m : Nat) (v : Mailbox) : (d.setMb m v).discards = d.discards := rfl
@[simp] theorem Dev.setMb_discardTotal (d : Dev) (m : Nat) (v : Mailbox) : (d.setMb m v).discardTotal = d.discardTotal := rfl
@[simp] theorem Dev.setMb_ports (d : Dev) (m : Nat) (v : Mailbox) : (d.setMb m v).ports = d.ports := rfl
@[simp] theorem Dev.setMb_pages (d : Dev) (m : Nat) (v : Mailbox) : (d.setMb m v).pages = d.pages := rfl
@[simp] theorem Dev.setMb_env (d : Dev) (m : Nat) (v : Mailbox) : (d.setMb m v).env = d.env := rfl
@[simp] theorem Dev.setMb_envPrev (d : Dev) (m : Nat) (v : Mailbox) : (d.setMb m v).envPrev = d.envPrev := rfl
@[simp] theorem Dev.setMb_envCopies (d : Dev) (m : Nat) (v : Mailbox) : (d.setMb m v).envCopies = d.envCopies := rfl
@[simp] theorem Dev.setMb_stages (d : Dev) (m : Nat) (v : Mailbox) : (d.setMb m v).stages = d.stages := rfl
@[simp] theorem Dev.setMb_chans (d : Dev) (m : Nat) (v : Mailbox) : (d.setMb m v).chans = d.chans := rfl
@[simp] theorem Dev.setMb_chords (d : Dev) (m : Nat) (v : Mailbox) : (d.setMb m v).chords = d.chords := rfl
@[simp] theorem Dev.setMb_core (d : Dev) (m : Nat) (v : Mailbox) : (d.setMb m v).core = d.core := rfl
@[simp] theorem Dev.setMb_acq (d : Dev) (m : Nat) (v : Mailbox) : (d.setMb m v).acq = d.acq := rfl
@[simp] theorem Dev.setMb_cal (d : Dev) (m : Nat) (v : Mailbox) : (d.setMb m v).cal = d.cal := rfl
@[simp] theorem Dev.setMb_tim (d : Dev) (m : Nat) (v : Mailbox) : (d.setMb m v).tim = d.tim := rfl
@[simp] theorem Dev.setMb_marker (d : Dev) (m : Nat) (v : Mailbox) : (d.setMb m v).marker = d.marker := rfl
@[simp] theorem Dev.setMb_bench (d : Dev) (m : Nat) (v : Mailbox) : (d.setMb m v).bench = d.bench := rfl
@[simp] theorem Dev.setMb_links (d : Dev) (m : Nat) (v : Mailbox) : (d.setMb m v).links = d.links := rfl
@[simp] theorem Dev.setMb_domain (d : Dev) (m : Nat) (v : Mailbox) : (d.setMb m v).domain = d.domain := rfl
@[simp] theorem Dev.setMb_mirror (d : Dev) (m : Nat) (v : Mailbox) : (d.setMb m v).mirror = d.mirror := rfl
@[simp] theorem Dev.setMb_thermal (d : Dev) (m : Nat) (v : Mailbox) : (d.setMb m v).thermal = d.thermal := rfl
@[simp] theorem Dev.setMb_house (d : Dev) (m : Nat) (v : Mailbox) : (d.setMb m v).house = d.house := rfl
@[simp] theorem Dev.setMb_images (d : Dev) (m : Nat) (v : Mailbox) : (d.setMb m v).images = d.images := rfl
@[simp] theorem Dev.setMb_ledger (d : Dev) (m : Nat) (v : Mailbox) : (d.setMb m v).ledger = d.ledger := rfl
@[simp] theorem Dev.setMb_last (d : Dev) (m : Nat) (v : Mailbox) : (d.setMb m v).last = d.last := rfl
@[simp] theorem Dev.setMb_hostBad (d : Dev) (m : Nat) (v : Mailbox) : (d.setMb m v).hostBad = d.hostBad := rfl
@[simp] theorem Dev.setMb_eccLines (d : Dev) (m : Nat) (v : Mailbox) : (d.setMb m v).eccLines = d.eccLines := rfl
@[simp] theorem Dev.setMb_fwBroken (d : Dev) (m : Nat) (v : Mailbox) : (d.setMb m v).fwBroken = d.fwBroken := rfl
@[simp] theorem Dev.setMb_pcie (d : Dev) (m : Nat) (v : Mailbox) : (d.setMb m v).pcie = d.pcie := rfl
@[simp] theorem Dev.setMb_readData (d : Dev) (m : Nat) (v : Mailbox) : (d.setMb m v).readData = d.readData := rfl
@[simp] theorem Dev.setMb_freeCtr (d : Dev) (m : Nat) (v : Mailbox) : (d.setMb m v).freeCtr = d.freeCtr := rfl
@[simp] theorem Dev.setMb_wr (d : Dev) (m : Nat) (v : Mailbox) : (d.setMb m v).wr = d.wr := rfl

/-! `Dev.setRing`. -/
@[simp] theorem Dev.setRing_hif (d : Dev) (m : Nat) (v : DmaRing) : (d.setRing m v).hif = d.hif := rfl
@[simp] theorem Dev.setRing_time (d : Dev) (m : Nat) (v : DmaRing) : (d.setRing m v).time = d.time := rfl
@[simp] theorem Dev.setRing_mbs (d : Dev) (m : Nat) (v : DmaRing) : (d.setRing m v).mbs = d.mbs := rfl
@[simp] theorem Dev.setRing_slots (d : Dev) (m : Nat) (v : DmaRing) : (d.setRing m v).slots = d.slots := rfl
@[simp] theorem Dev.setRing_bells (d : Dev) (m : Nat) (v : DmaRing) : (d.setRing m v).bells = d.bells := rfl
@[simp] theorem Dev.setRing_evt (d : Dev) (m : Nat) (v : DmaRing) : (d.setRing m v).evt = d.evt := rfl
@[simp] theorem Dev.setRing_lattice (d : Dev) (m : Nat) (v : DmaRing) : (d.setRing m v).lattice = d.lattice := rfl
@[simp] theorem Dev.setRing_slack (d : Dev) (m : Nat) (v : DmaRing) : (d.setRing m v).slack = d.slack := rfl
@[simp] theorem Dev.setRing_discards (d : Dev) (m : Nat) (v : DmaRing) : (d.setRing m v).discards = d.discards := rfl
@[simp] theorem Dev.setRing_discardTotal (d : Dev) (m : Nat) (v : DmaRing) : (d.setRing m v).discardTotal = d.discardTotal := rfl
@[simp] theorem Dev.setRing_ports (d : Dev) (m : Nat) (v : DmaRing) : (d.setRing m v).ports = d.ports := rfl
@[simp] theorem Dev.setRing_pages (d : Dev) (m : Nat) (v : DmaRing) : (d.setRing m v).pages = d.pages := rfl
@[simp] theorem Dev.setRing_env (d : Dev) (m : Nat) (v : DmaRing) : (d.setRing m v).env = d.env := rfl
@[simp] theorem Dev.setRing_envPrev (d : Dev) (m : Nat) (v : DmaRing) : (d.setRing m v).envPrev = d.envPrev := rfl
@[simp] theorem Dev.setRing_envCopies (d : Dev) (m : Nat) (v : DmaRing) : (d.setRing m v).envCopies = d.envCopies := rfl
@[simp] theorem Dev.setRing_stages (d : Dev) (m : Nat) (v : DmaRing) : (d.setRing m v).stages = d.stages := rfl
@[simp] theorem Dev.setRing_chans (d : Dev) (m : Nat) (v : DmaRing) : (d.setRing m v).chans = d.chans := rfl
@[simp] theorem Dev.setRing_chords (d : Dev) (m : Nat) (v : DmaRing) : (d.setRing m v).chords = d.chords := rfl
@[simp] theorem Dev.setRing_core (d : Dev) (m : Nat) (v : DmaRing) : (d.setRing m v).core = d.core := rfl
@[simp] theorem Dev.setRing_acq (d : Dev) (m : Nat) (v : DmaRing) : (d.setRing m v).acq = d.acq := rfl
@[simp] theorem Dev.setRing_cal (d : Dev) (m : Nat) (v : DmaRing) : (d.setRing m v).cal = d.cal := rfl
@[simp] theorem Dev.setRing_tim (d : Dev) (m : Nat) (v : DmaRing) : (d.setRing m v).tim = d.tim := rfl
@[simp] theorem Dev.setRing_marker (d : Dev) (m : Nat) (v : DmaRing) : (d.setRing m v).marker = d.marker := rfl
@[simp] theorem Dev.setRing_bench (d : Dev) (m : Nat) (v : DmaRing) : (d.setRing m v).bench = d.bench := rfl
@[simp] theorem Dev.setRing_links (d : Dev) (m : Nat) (v : DmaRing) : (d.setRing m v).links = d.links := rfl
@[simp] theorem Dev.setRing_domain (d : Dev) (m : Nat) (v : DmaRing) : (d.setRing m v).domain = d.domain := rfl
@[simp] theorem Dev.setRing_mirror (d : Dev) (m : Nat) (v : DmaRing) : (d.setRing m v).mirror = d.mirror := rfl
@[simp] theorem Dev.setRing_thermal (d : Dev) (m : Nat) (v : DmaRing) : (d.setRing m v).thermal = d.thermal := rfl
@[simp] theorem Dev.setRing_house (d : Dev) (m : Nat) (v : DmaRing) : (d.setRing m v).house = d.house := rfl
@[simp] theorem Dev.setRing_images (d : Dev) (m : Nat) (v : DmaRing) : (d.setRing m v).images = d.images := rfl
@[simp] theorem Dev.setRing_ledger (d : Dev) (m : Nat) (v : DmaRing) : (d.setRing m v).ledger = d.ledger := rfl
@[simp] theorem Dev.setRing_last (d : Dev) (m : Nat) (v : DmaRing) : (d.setRing m v).last = d.last := rfl
@[simp] theorem Dev.setRing_hostBad (d : Dev) (m : Nat) (v : DmaRing) : (d.setRing m v).hostBad = d.hostBad := rfl
@[simp] theorem Dev.setRing_eccLines (d : Dev) (m : Nat) (v : DmaRing) : (d.setRing m v).eccLines = d.eccLines := rfl
@[simp] theorem Dev.setRing_fwBroken (d : Dev) (m : Nat) (v : DmaRing) : (d.setRing m v).fwBroken = d.fwBroken := rfl
@[simp] theorem Dev.setRing_pcie (d : Dev) (m : Nat) (v : DmaRing) : (d.setRing m v).pcie = d.pcie := rfl
@[simp] theorem Dev.setRing_readData (d : Dev) (m : Nat) (v : DmaRing) : (d.setRing m v).readData = d.readData := rfl
@[simp] theorem Dev.setRing_freeCtr (d : Dev) (m : Nat) (v : DmaRing) : (d.setRing m v).freeCtr = d.freeCtr := rfl
@[simp] theorem Dev.setRing_wr (d : Dev) (m : Nat) (v : DmaRing) : (d.setRing m v).wr = d.wr := rfl

/-! `Dev.setPort`. -/
@[simp] theorem Dev.setPort_hif (d : Dev) (m : Nat) (v : Port) : (d.setPort m v).hif = d.hif := rfl
@[simp] theorem Dev.setPort_time (d : Dev) (m : Nat) (v : Port) : (d.setPort m v).time = d.time := rfl
@[simp] theorem Dev.setPort_mbs (d : Dev) (m : Nat) (v : Port) : (d.setPort m v).mbs = d.mbs := rfl
@[simp] theorem Dev.setPort_slots (d : Dev) (m : Nat) (v : Port) : (d.setPort m v).slots = d.slots := rfl
@[simp] theorem Dev.setPort_bells (d : Dev) (m : Nat) (v : Port) : (d.setPort m v).bells = d.bells := rfl
@[simp] theorem Dev.setPort_dma (d : Dev) (m : Nat) (v : Port) : (d.setPort m v).dma = d.dma := rfl
@[simp] theorem Dev.setPort_evt (d : Dev) (m : Nat) (v : Port) : (d.setPort m v).evt = d.evt := rfl
@[simp] theorem Dev.setPort_lattice (d : Dev) (m : Nat) (v : Port) : (d.setPort m v).lattice = d.lattice := rfl
@[simp] theorem Dev.setPort_slack (d : Dev) (m : Nat) (v : Port) : (d.setPort m v).slack = d.slack := rfl
@[simp] theorem Dev.setPort_discards (d : Dev) (m : Nat) (v : Port) : (d.setPort m v).discards = d.discards := rfl
@[simp] theorem Dev.setPort_discardTotal (d : Dev) (m : Nat) (v : Port) : (d.setPort m v).discardTotal = d.discardTotal := rfl
@[simp] theorem Dev.setPort_pages (d : Dev) (m : Nat) (v : Port) : (d.setPort m v).pages = d.pages := rfl
@[simp] theorem Dev.setPort_env (d : Dev) (m : Nat) (v : Port) : (d.setPort m v).env = d.env := rfl
@[simp] theorem Dev.setPort_envPrev (d : Dev) (m : Nat) (v : Port) : (d.setPort m v).envPrev = d.envPrev := rfl
@[simp] theorem Dev.setPort_envCopies (d : Dev) (m : Nat) (v : Port) : (d.setPort m v).envCopies = d.envCopies := rfl
@[simp] theorem Dev.setPort_stages (d : Dev) (m : Nat) (v : Port) : (d.setPort m v).stages = d.stages := rfl
@[simp] theorem Dev.setPort_chans (d : Dev) (m : Nat) (v : Port) : (d.setPort m v).chans = d.chans := rfl
@[simp] theorem Dev.setPort_chords (d : Dev) (m : Nat) (v : Port) : (d.setPort m v).chords = d.chords := rfl
@[simp] theorem Dev.setPort_core (d : Dev) (m : Nat) (v : Port) : (d.setPort m v).core = d.core := rfl
@[simp] theorem Dev.setPort_acq (d : Dev) (m : Nat) (v : Port) : (d.setPort m v).acq = d.acq := rfl
@[simp] theorem Dev.setPort_cal (d : Dev) (m : Nat) (v : Port) : (d.setPort m v).cal = d.cal := rfl
@[simp] theorem Dev.setPort_tim (d : Dev) (m : Nat) (v : Port) : (d.setPort m v).tim = d.tim := rfl
@[simp] theorem Dev.setPort_marker (d : Dev) (m : Nat) (v : Port) : (d.setPort m v).marker = d.marker := rfl
@[simp] theorem Dev.setPort_bench (d : Dev) (m : Nat) (v : Port) : (d.setPort m v).bench = d.bench := rfl
@[simp] theorem Dev.setPort_links (d : Dev) (m : Nat) (v : Port) : (d.setPort m v).links = d.links := rfl
@[simp] theorem Dev.setPort_domain (d : Dev) (m : Nat) (v : Port) : (d.setPort m v).domain = d.domain := rfl
@[simp] theorem Dev.setPort_mirror (d : Dev) (m : Nat) (v : Port) : (d.setPort m v).mirror = d.mirror := rfl
@[simp] theorem Dev.setPort_thermal (d : Dev) (m : Nat) (v : Port) : (d.setPort m v).thermal = d.thermal := rfl
@[simp] theorem Dev.setPort_house (d : Dev) (m : Nat) (v : Port) : (d.setPort m v).house = d.house := rfl
@[simp] theorem Dev.setPort_images (d : Dev) (m : Nat) (v : Port) : (d.setPort m v).images = d.images := rfl
@[simp] theorem Dev.setPort_ledger (d : Dev) (m : Nat) (v : Port) : (d.setPort m v).ledger = d.ledger := rfl
@[simp] theorem Dev.setPort_last (d : Dev) (m : Nat) (v : Port) : (d.setPort m v).last = d.last := rfl
@[simp] theorem Dev.setPort_hostBad (d : Dev) (m : Nat) (v : Port) : (d.setPort m v).hostBad = d.hostBad := rfl
@[simp] theorem Dev.setPort_eccLines (d : Dev) (m : Nat) (v : Port) : (d.setPort m v).eccLines = d.eccLines := rfl
@[simp] theorem Dev.setPort_fwBroken (d : Dev) (m : Nat) (v : Port) : (d.setPort m v).fwBroken = d.fwBroken := rfl
@[simp] theorem Dev.setPort_pcie (d : Dev) (m : Nat) (v : Port) : (d.setPort m v).pcie = d.pcie := rfl
@[simp] theorem Dev.setPort_readData (d : Dev) (m : Nat) (v : Port) : (d.setPort m v).readData = d.readData := rfl
@[simp] theorem Dev.setPort_freeCtr (d : Dev) (m : Nat) (v : Port) : (d.setPort m v).freeCtr = d.freeCtr := rfl
@[simp] theorem Dev.setPort_wr (d : Dev) (m : Nat) (v : Port) : (d.setPort m v).wr = d.wr := rfl

/-! `Dev.setStage`. -/
@[simp] theorem Dev.setStage_hif (d : Dev) (m : Nat) (v : Stage) : (d.setStage m v).hif = d.hif := rfl
@[simp] theorem Dev.setStage_time (d : Dev) (m : Nat) (v : Stage) : (d.setStage m v).time = d.time := rfl
@[simp] theorem Dev.setStage_mbs (d : Dev) (m : Nat) (v : Stage) : (d.setStage m v).mbs = d.mbs := rfl
@[simp] theorem Dev.setStage_slots (d : Dev) (m : Nat) (v : Stage) : (d.setStage m v).slots = d.slots := rfl
@[simp] theorem Dev.setStage_bells (d : Dev) (m : Nat) (v : Stage) : (d.setStage m v).bells = d.bells := rfl
@[simp] theorem Dev.setStage_dma (d : Dev) (m : Nat) (v : Stage) : (d.setStage m v).dma = d.dma := rfl
@[simp] theorem Dev.setStage_evt (d : Dev) (m : Nat) (v : Stage) : (d.setStage m v).evt = d.evt := rfl
@[simp] theorem Dev.setStage_lattice (d : Dev) (m : Nat) (v : Stage) : (d.setStage m v).lattice = d.lattice := rfl
@[simp] theorem Dev.setStage_slack (d : Dev) (m : Nat) (v : Stage) : (d.setStage m v).slack = d.slack := rfl
@[simp] theorem Dev.setStage_discards (d : Dev) (m : Nat) (v : Stage) : (d.setStage m v).discards = d.discards := rfl
@[simp] theorem Dev.setStage_discardTotal (d : Dev) (m : Nat) (v : Stage) : (d.setStage m v).discardTotal = d.discardTotal := rfl
@[simp] theorem Dev.setStage_ports (d : Dev) (m : Nat) (v : Stage) : (d.setStage m v).ports = d.ports := rfl
@[simp] theorem Dev.setStage_pages (d : Dev) (m : Nat) (v : Stage) : (d.setStage m v).pages = d.pages := rfl
@[simp] theorem Dev.setStage_env (d : Dev) (m : Nat) (v : Stage) : (d.setStage m v).env = d.env := rfl
@[simp] theorem Dev.setStage_envPrev (d : Dev) (m : Nat) (v : Stage) : (d.setStage m v).envPrev = d.envPrev := rfl
@[simp] theorem Dev.setStage_envCopies (d : Dev) (m : Nat) (v : Stage) : (d.setStage m v).envCopies = d.envCopies := rfl
@[simp] theorem Dev.setStage_chans (d : Dev) (m : Nat) (v : Stage) : (d.setStage m v).chans = d.chans := rfl
@[simp] theorem Dev.setStage_chords (d : Dev) (m : Nat) (v : Stage) : (d.setStage m v).chords = d.chords := rfl
@[simp] theorem Dev.setStage_core (d : Dev) (m : Nat) (v : Stage) : (d.setStage m v).core = d.core := rfl
@[simp] theorem Dev.setStage_acq (d : Dev) (m : Nat) (v : Stage) : (d.setStage m v).acq = d.acq := rfl
@[simp] theorem Dev.setStage_cal (d : Dev) (m : Nat) (v : Stage) : (d.setStage m v).cal = d.cal := rfl
@[simp] theorem Dev.setStage_tim (d : Dev) (m : Nat) (v : Stage) : (d.setStage m v).tim = d.tim := rfl
@[simp] theorem Dev.setStage_marker (d : Dev) (m : Nat) (v : Stage) : (d.setStage m v).marker = d.marker := rfl
@[simp] theorem Dev.setStage_bench (d : Dev) (m : Nat) (v : Stage) : (d.setStage m v).bench = d.bench := rfl
@[simp] theorem Dev.setStage_links (d : Dev) (m : Nat) (v : Stage) : (d.setStage m v).links = d.links := rfl
@[simp] theorem Dev.setStage_domain (d : Dev) (m : Nat) (v : Stage) : (d.setStage m v).domain = d.domain := rfl
@[simp] theorem Dev.setStage_mirror (d : Dev) (m : Nat) (v : Stage) : (d.setStage m v).mirror = d.mirror := rfl
@[simp] theorem Dev.setStage_thermal (d : Dev) (m : Nat) (v : Stage) : (d.setStage m v).thermal = d.thermal := rfl
@[simp] theorem Dev.setStage_house (d : Dev) (m : Nat) (v : Stage) : (d.setStage m v).house = d.house := rfl
@[simp] theorem Dev.setStage_images (d : Dev) (m : Nat) (v : Stage) : (d.setStage m v).images = d.images := rfl
@[simp] theorem Dev.setStage_ledger (d : Dev) (m : Nat) (v : Stage) : (d.setStage m v).ledger = d.ledger := rfl
@[simp] theorem Dev.setStage_last (d : Dev) (m : Nat) (v : Stage) : (d.setStage m v).last = d.last := rfl
@[simp] theorem Dev.setStage_hostBad (d : Dev) (m : Nat) (v : Stage) : (d.setStage m v).hostBad = d.hostBad := rfl
@[simp] theorem Dev.setStage_eccLines (d : Dev) (m : Nat) (v : Stage) : (d.setStage m v).eccLines = d.eccLines := rfl
@[simp] theorem Dev.setStage_fwBroken (d : Dev) (m : Nat) (v : Stage) : (d.setStage m v).fwBroken = d.fwBroken := rfl
@[simp] theorem Dev.setStage_pcie (d : Dev) (m : Nat) (v : Stage) : (d.setStage m v).pcie = d.pcie := rfl
@[simp] theorem Dev.setStage_readData (d : Dev) (m : Nat) (v : Stage) : (d.setStage m v).readData = d.readData := rfl
@[simp] theorem Dev.setStage_freeCtr (d : Dev) (m : Nat) (v : Stage) : (d.setStage m v).freeCtr = d.freeCtr := rfl
@[simp] theorem Dev.setStage_wr (d : Dev) (m : Nat) (v : Stage) : (d.setStage m v).wr = d.wr := rfl

/-! `Dev.setChan`. -/
@[simp] theorem Dev.setChan_hif (d : Dev) (m : Nat) (v : Chan) : (d.setChan m v).hif = d.hif := rfl
@[simp] theorem Dev.setChan_time (d : Dev) (m : Nat) (v : Chan) : (d.setChan m v).time = d.time := rfl
@[simp] theorem Dev.setChan_mbs (d : Dev) (m : Nat) (v : Chan) : (d.setChan m v).mbs = d.mbs := rfl
@[simp] theorem Dev.setChan_slots (d : Dev) (m : Nat) (v : Chan) : (d.setChan m v).slots = d.slots := rfl
@[simp] theorem Dev.setChan_bells (d : Dev) (m : Nat) (v : Chan) : (d.setChan m v).bells = d.bells := rfl
@[simp] theorem Dev.setChan_dma (d : Dev) (m : Nat) (v : Chan) : (d.setChan m v).dma = d.dma := rfl
@[simp] theorem Dev.setChan_evt (d : Dev) (m : Nat) (v : Chan) : (d.setChan m v).evt = d.evt := rfl
@[simp] theorem Dev.setChan_lattice (d : Dev) (m : Nat) (v : Chan) : (d.setChan m v).lattice = d.lattice := rfl
@[simp] theorem Dev.setChan_slack (d : Dev) (m : Nat) (v : Chan) : (d.setChan m v).slack = d.slack := rfl
@[simp] theorem Dev.setChan_discards (d : Dev) (m : Nat) (v : Chan) : (d.setChan m v).discards = d.discards := rfl
@[simp] theorem Dev.setChan_discardTotal (d : Dev) (m : Nat) (v : Chan) : (d.setChan m v).discardTotal = d.discardTotal := rfl
@[simp] theorem Dev.setChan_ports (d : Dev) (m : Nat) (v : Chan) : (d.setChan m v).ports = d.ports := rfl
@[simp] theorem Dev.setChan_pages (d : Dev) (m : Nat) (v : Chan) : (d.setChan m v).pages = d.pages := rfl
@[simp] theorem Dev.setChan_env (d : Dev) (m : Nat) (v : Chan) : (d.setChan m v).env = d.env := rfl
@[simp] theorem Dev.setChan_envPrev (d : Dev) (m : Nat) (v : Chan) : (d.setChan m v).envPrev = d.envPrev := rfl
@[simp] theorem Dev.setChan_envCopies (d : Dev) (m : Nat) (v : Chan) : (d.setChan m v).envCopies = d.envCopies := rfl
@[simp] theorem Dev.setChan_stages (d : Dev) (m : Nat) (v : Chan) : (d.setChan m v).stages = d.stages := rfl
@[simp] theorem Dev.setChan_chords (d : Dev) (m : Nat) (v : Chan) : (d.setChan m v).chords = d.chords := rfl
@[simp] theorem Dev.setChan_core (d : Dev) (m : Nat) (v : Chan) : (d.setChan m v).core = d.core := rfl
@[simp] theorem Dev.setChan_acq (d : Dev) (m : Nat) (v : Chan) : (d.setChan m v).acq = d.acq := rfl
@[simp] theorem Dev.setChan_cal (d : Dev) (m : Nat) (v : Chan) : (d.setChan m v).cal = d.cal := rfl
@[simp] theorem Dev.setChan_tim (d : Dev) (m : Nat) (v : Chan) : (d.setChan m v).tim = d.tim := rfl
@[simp] theorem Dev.setChan_marker (d : Dev) (m : Nat) (v : Chan) : (d.setChan m v).marker = d.marker := rfl
@[simp] theorem Dev.setChan_bench (d : Dev) (m : Nat) (v : Chan) : (d.setChan m v).bench = d.bench := rfl
@[simp] theorem Dev.setChan_links (d : Dev) (m : Nat) (v : Chan) : (d.setChan m v).links = d.links := rfl
@[simp] theorem Dev.setChan_domain (d : Dev) (m : Nat) (v : Chan) : (d.setChan m v).domain = d.domain := rfl
@[simp] theorem Dev.setChan_mirror (d : Dev) (m : Nat) (v : Chan) : (d.setChan m v).mirror = d.mirror := rfl
@[simp] theorem Dev.setChan_thermal (d : Dev) (m : Nat) (v : Chan) : (d.setChan m v).thermal = d.thermal := rfl
@[simp] theorem Dev.setChan_house (d : Dev) (m : Nat) (v : Chan) : (d.setChan m v).house = d.house := rfl
@[simp] theorem Dev.setChan_images (d : Dev) (m : Nat) (v : Chan) : (d.setChan m v).images = d.images := rfl
@[simp] theorem Dev.setChan_ledger (d : Dev) (m : Nat) (v : Chan) : (d.setChan m v).ledger = d.ledger := rfl
@[simp] theorem Dev.setChan_last (d : Dev) (m : Nat) (v : Chan) : (d.setChan m v).last = d.last := rfl
@[simp] theorem Dev.setChan_hostBad (d : Dev) (m : Nat) (v : Chan) : (d.setChan m v).hostBad = d.hostBad := rfl
@[simp] theorem Dev.setChan_eccLines (d : Dev) (m : Nat) (v : Chan) : (d.setChan m v).eccLines = d.eccLines := rfl
@[simp] theorem Dev.setChan_fwBroken (d : Dev) (m : Nat) (v : Chan) : (d.setChan m v).fwBroken = d.fwBroken := rfl
@[simp] theorem Dev.setChan_pcie (d : Dev) (m : Nat) (v : Chan) : (d.setChan m v).pcie = d.pcie := rfl
@[simp] theorem Dev.setChan_readData (d : Dev) (m : Nat) (v : Chan) : (d.setChan m v).readData = d.readData := rfl
@[simp] theorem Dev.setChan_freeCtr (d : Dev) (m : Nat) (v : Chan) : (d.setChan m v).freeCtr = d.freeCtr := rfl
@[simp] theorem Dev.setChan_wr (d : Dev) (m : Nat) (v : Chan) : (d.setChan m v).wr = d.wr := rfl

/-! `Dev.setRay`. -/
@[simp] theorem Dev.setRay_hif (d : Dev) (m : Nat) (v : Ray) : (d.setRay m v).hif = d.hif := rfl
@[simp] theorem Dev.setRay_time (d : Dev) (m : Nat) (v : Ray) : (d.setRay m v).time = d.time := rfl
@[simp] theorem Dev.setRay_mbs (d : Dev) (m : Nat) (v : Ray) : (d.setRay m v).mbs = d.mbs := rfl
@[simp] theorem Dev.setRay_slots (d : Dev) (m : Nat) (v : Ray) : (d.setRay m v).slots = d.slots := rfl
@[simp] theorem Dev.setRay_bells (d : Dev) (m : Nat) (v : Ray) : (d.setRay m v).bells = d.bells := rfl
@[simp] theorem Dev.setRay_dma (d : Dev) (m : Nat) (v : Ray) : (d.setRay m v).dma = d.dma := rfl
@[simp] theorem Dev.setRay_evt (d : Dev) (m : Nat) (v : Ray) : (d.setRay m v).evt = d.evt := rfl
@[simp] theorem Dev.setRay_lattice (d : Dev) (m : Nat) (v : Ray) : (d.setRay m v).lattice = d.lattice := rfl
@[simp] theorem Dev.setRay_slack (d : Dev) (m : Nat) (v : Ray) : (d.setRay m v).slack = d.slack := rfl
@[simp] theorem Dev.setRay_discards (d : Dev) (m : Nat) (v : Ray) : (d.setRay m v).discards = d.discards := rfl
@[simp] theorem Dev.setRay_discardTotal (d : Dev) (m : Nat) (v : Ray) : (d.setRay m v).discardTotal = d.discardTotal := rfl
@[simp] theorem Dev.setRay_ports (d : Dev) (m : Nat) (v : Ray) : (d.setRay m v).ports = d.ports := rfl
@[simp] theorem Dev.setRay_pages (d : Dev) (m : Nat) (v : Ray) : (d.setRay m v).pages = d.pages := rfl
@[simp] theorem Dev.setRay_env (d : Dev) (m : Nat) (v : Ray) : (d.setRay m v).env = d.env := rfl
@[simp] theorem Dev.setRay_envPrev (d : Dev) (m : Nat) (v : Ray) : (d.setRay m v).envPrev = d.envPrev := rfl
@[simp] theorem Dev.setRay_envCopies (d : Dev) (m : Nat) (v : Ray) : (d.setRay m v).envCopies = d.envCopies := rfl
@[simp] theorem Dev.setRay_stages (d : Dev) (m : Nat) (v : Ray) : (d.setRay m v).stages = d.stages := rfl
@[simp] theorem Dev.setRay_chans (d : Dev) (m : Nat) (v : Ray) : (d.setRay m v).chans = d.chans := rfl
@[simp] theorem Dev.setRay_chords (d : Dev) (m : Nat) (v : Ray) : (d.setRay m v).chords = d.chords := rfl
@[simp] theorem Dev.setRay_acq (d : Dev) (m : Nat) (v : Ray) : (d.setRay m v).acq = d.acq := rfl
@[simp] theorem Dev.setRay_cal (d : Dev) (m : Nat) (v : Ray) : (d.setRay m v).cal = d.cal := rfl
@[simp] theorem Dev.setRay_tim (d : Dev) (m : Nat) (v : Ray) : (d.setRay m v).tim = d.tim := rfl
@[simp] theorem Dev.setRay_marker (d : Dev) (m : Nat) (v : Ray) : (d.setRay m v).marker = d.marker := rfl
@[simp] theorem Dev.setRay_bench (d : Dev) (m : Nat) (v : Ray) : (d.setRay m v).bench = d.bench := rfl
@[simp] theorem Dev.setRay_links (d : Dev) (m : Nat) (v : Ray) : (d.setRay m v).links = d.links := rfl
@[simp] theorem Dev.setRay_domain (d : Dev) (m : Nat) (v : Ray) : (d.setRay m v).domain = d.domain := rfl
@[simp] theorem Dev.setRay_mirror (d : Dev) (m : Nat) (v : Ray) : (d.setRay m v).mirror = d.mirror := rfl
@[simp] theorem Dev.setRay_thermal (d : Dev) (m : Nat) (v : Ray) : (d.setRay m v).thermal = d.thermal := rfl
@[simp] theorem Dev.setRay_house (d : Dev) (m : Nat) (v : Ray) : (d.setRay m v).house = d.house := rfl
@[simp] theorem Dev.setRay_images (d : Dev) (m : Nat) (v : Ray) : (d.setRay m v).images = d.images := rfl
@[simp] theorem Dev.setRay_ledger (d : Dev) (m : Nat) (v : Ray) : (d.setRay m v).ledger = d.ledger := rfl
@[simp] theorem Dev.setRay_last (d : Dev) (m : Nat) (v : Ray) : (d.setRay m v).last = d.last := rfl
@[simp] theorem Dev.setRay_hostBad (d : Dev) (m : Nat) (v : Ray) : (d.setRay m v).hostBad = d.hostBad := rfl
@[simp] theorem Dev.setRay_eccLines (d : Dev) (m : Nat) (v : Ray) : (d.setRay m v).eccLines = d.eccLines := rfl
@[simp] theorem Dev.setRay_fwBroken (d : Dev) (m : Nat) (v : Ray) : (d.setRay m v).fwBroken = d.fwBroken := rfl
@[simp] theorem Dev.setRay_pcie (d : Dev) (m : Nat) (v : Ray) : (d.setRay m v).pcie = d.pcie := rfl
@[simp] theorem Dev.setRay_readData (d : Dev) (m : Nat) (v : Ray) : (d.setRay m v).readData = d.readData := rfl
@[simp] theorem Dev.setRay_freeCtr (d : Dev) (m : Nat) (v : Ray) : (d.setRay m v).freeCtr = d.freeCtr := rfl
@[simp] theorem Dev.setRay_wr (d : Dev) (m : Nat) (v : Ray) : (d.setRay m v).wr = d.wr := rfl
@[simp] theorem Dev.setRay_core_progMem (d : Dev) (m : Nat) (v : Ray) : (d.setRay m v).core.progMem = d.core.progMem := rfl
@[simp] theorem Dev.setRay_core_progs (d : Dev) (m : Nat) (v : Ray) : (d.setRay m v).core.progs = d.core.progs := rfl
@[simp] theorem Dev.setRay_core_loci (d : Dev) (m : Nat) (v : Ray) : (d.setRay m v).core.loci = d.core.loci := rfl
@[simp] theorem Dev.setRay_core_frames (d : Dev) (m : Nat) (v : Ray) : (d.setRay m v).core.frames = d.core.frames := rfl
@[simp] theorem Dev.setRay_core_fabric (d : Dev) (m : Nat) (v : Ray) : (d.setRay m v).core.fabric = d.core.fabric := rfl
@[simp] theorem Dev.setRay_core_frameDefer (d : Dev) (m : Nat) (v : Ray) : (d.setRay m v).core.frameDefer = d.core.frameDefer := rfl
@[simp] theorem Dev.setRay_core_run (d : Dev) (m : Nat) (v : Ray) : (d.setRay m v).core.run = d.core.run := rfl
@[simp] theorem Dev.setRay_core_shots (d : Dev) (m : Nat) (v : Ray) : (d.setRay m v).core.shots = d.core.shots := rfl
@[simp] theorem Dev.setRay_core_statuses (d : Dev) (m : Nat) (v : Ray) : (d.setRay m v).core.statuses = d.core.statuses := rfl
@[simp] theorem Dev.setRay_core_tables (d : Dev) (m : Nat) (v : Ray) : (d.setRay m v).core.tables = d.core.tables := rfl
@[simp] theorem Dev.setRay_core_tablesPrev (d : Dev) (m : Nat) (v : Ray) : (d.setRay m v).core.tablesPrev = d.core.tablesPrev := rfl
@[simp] theorem Dev.setRay_core_exports (d : Dev) (m : Nat) (v : Ray) : (d.setRay m v).core.exports = d.core.exports := rfl
@[simp] theorem Dev.setRay_core_rps (d : Dev) (m : Nat) (v : Ray) : (d.setRay m v).core.rps = d.core.rps := rfl
@[simp] theorem Dev.setRay_core_cmds (d : Dev) (m : Nat) (v : Ray) : (d.setRay m v).core.cmds = d.core.cmds := rfl
@[simp] theorem Dev.setRay_core_nextSeq (d : Dev) (m : Nat) (v : Ray) : (d.setRay m v).core.nextSeq = d.core.nextSeq := rfl
@[simp] theorem Dev.setRay_core_pins (d : Dev) (m : Nat) (v : Ray) : (d.setRay m v).core.pins = d.core.pins := rfl
@[simp] theorem Dev.setRay_core_facets (d : Dev) (m : Nat) (v : Ray) : (d.setRay m v).core.facets = d.core.facets := rfl
@[simp] theorem Dev.setRay_core_resid (d : Dev) (m : Nat) (v : Ray) : (d.setRay m v).core.resid = d.core.resid := rfl
@[simp] theorem Dev.setRay_core_due (d : Dev) (m : Nat) (v : Ray) : (d.setRay m v).core.due = d.core.due := rfl

/-! `Dev.setFrame`. -/
@[simp] theorem Dev.setFrame_hif (d : Dev) (m : Nat) (v : Frame) : (d.setFrame m v).hif = d.hif := rfl
@[simp] theorem Dev.setFrame_time (d : Dev) (m : Nat) (v : Frame) : (d.setFrame m v).time = d.time := rfl
@[simp] theorem Dev.setFrame_mbs (d : Dev) (m : Nat) (v : Frame) : (d.setFrame m v).mbs = d.mbs := rfl
@[simp] theorem Dev.setFrame_slots (d : Dev) (m : Nat) (v : Frame) : (d.setFrame m v).slots = d.slots := rfl
@[simp] theorem Dev.setFrame_bells (d : Dev) (m : Nat) (v : Frame) : (d.setFrame m v).bells = d.bells := rfl
@[simp] theorem Dev.setFrame_dma (d : Dev) (m : Nat) (v : Frame) : (d.setFrame m v).dma = d.dma := rfl
@[simp] theorem Dev.setFrame_evt (d : Dev) (m : Nat) (v : Frame) : (d.setFrame m v).evt = d.evt := rfl
@[simp] theorem Dev.setFrame_lattice (d : Dev) (m : Nat) (v : Frame) : (d.setFrame m v).lattice = d.lattice := rfl
@[simp] theorem Dev.setFrame_slack (d : Dev) (m : Nat) (v : Frame) : (d.setFrame m v).slack = d.slack := rfl
@[simp] theorem Dev.setFrame_discards (d : Dev) (m : Nat) (v : Frame) : (d.setFrame m v).discards = d.discards := rfl
@[simp] theorem Dev.setFrame_discardTotal (d : Dev) (m : Nat) (v : Frame) : (d.setFrame m v).discardTotal = d.discardTotal := rfl
@[simp] theorem Dev.setFrame_ports (d : Dev) (m : Nat) (v : Frame) : (d.setFrame m v).ports = d.ports := rfl
@[simp] theorem Dev.setFrame_pages (d : Dev) (m : Nat) (v : Frame) : (d.setFrame m v).pages = d.pages := rfl
@[simp] theorem Dev.setFrame_env (d : Dev) (m : Nat) (v : Frame) : (d.setFrame m v).env = d.env := rfl
@[simp] theorem Dev.setFrame_envPrev (d : Dev) (m : Nat) (v : Frame) : (d.setFrame m v).envPrev = d.envPrev := rfl
@[simp] theorem Dev.setFrame_envCopies (d : Dev) (m : Nat) (v : Frame) : (d.setFrame m v).envCopies = d.envCopies := rfl
@[simp] theorem Dev.setFrame_stages (d : Dev) (m : Nat) (v : Frame) : (d.setFrame m v).stages = d.stages := rfl
@[simp] theorem Dev.setFrame_chans (d : Dev) (m : Nat) (v : Frame) : (d.setFrame m v).chans = d.chans := rfl
@[simp] theorem Dev.setFrame_chords (d : Dev) (m : Nat) (v : Frame) : (d.setFrame m v).chords = d.chords := rfl
@[simp] theorem Dev.setFrame_acq (d : Dev) (m : Nat) (v : Frame) : (d.setFrame m v).acq = d.acq := rfl
@[simp] theorem Dev.setFrame_cal (d : Dev) (m : Nat) (v : Frame) : (d.setFrame m v).cal = d.cal := rfl
@[simp] theorem Dev.setFrame_tim (d : Dev) (m : Nat) (v : Frame) : (d.setFrame m v).tim = d.tim := rfl
@[simp] theorem Dev.setFrame_marker (d : Dev) (m : Nat) (v : Frame) : (d.setFrame m v).marker = d.marker := rfl
@[simp] theorem Dev.setFrame_bench (d : Dev) (m : Nat) (v : Frame) : (d.setFrame m v).bench = d.bench := rfl
@[simp] theorem Dev.setFrame_links (d : Dev) (m : Nat) (v : Frame) : (d.setFrame m v).links = d.links := rfl
@[simp] theorem Dev.setFrame_domain (d : Dev) (m : Nat) (v : Frame) : (d.setFrame m v).domain = d.domain := rfl
@[simp] theorem Dev.setFrame_mirror (d : Dev) (m : Nat) (v : Frame) : (d.setFrame m v).mirror = d.mirror := rfl
@[simp] theorem Dev.setFrame_thermal (d : Dev) (m : Nat) (v : Frame) : (d.setFrame m v).thermal = d.thermal := rfl
@[simp] theorem Dev.setFrame_house (d : Dev) (m : Nat) (v : Frame) : (d.setFrame m v).house = d.house := rfl
@[simp] theorem Dev.setFrame_images (d : Dev) (m : Nat) (v : Frame) : (d.setFrame m v).images = d.images := rfl
@[simp] theorem Dev.setFrame_ledger (d : Dev) (m : Nat) (v : Frame) : (d.setFrame m v).ledger = d.ledger := rfl
@[simp] theorem Dev.setFrame_last (d : Dev) (m : Nat) (v : Frame) : (d.setFrame m v).last = d.last := rfl
@[simp] theorem Dev.setFrame_hostBad (d : Dev) (m : Nat) (v : Frame) : (d.setFrame m v).hostBad = d.hostBad := rfl
@[simp] theorem Dev.setFrame_eccLines (d : Dev) (m : Nat) (v : Frame) : (d.setFrame m v).eccLines = d.eccLines := rfl
@[simp] theorem Dev.setFrame_fwBroken (d : Dev) (m : Nat) (v : Frame) : (d.setFrame m v).fwBroken = d.fwBroken := rfl
@[simp] theorem Dev.setFrame_pcie (d : Dev) (m : Nat) (v : Frame) : (d.setFrame m v).pcie = d.pcie := rfl
@[simp] theorem Dev.setFrame_readData (d : Dev) (m : Nat) (v : Frame) : (d.setFrame m v).readData = d.readData := rfl
@[simp] theorem Dev.setFrame_freeCtr (d : Dev) (m : Nat) (v : Frame) : (d.setFrame m v).freeCtr = d.freeCtr := rfl
@[simp] theorem Dev.setFrame_wr (d : Dev) (m : Nat) (v : Frame) : (d.setFrame m v).wr = d.wr := rfl
@[simp] theorem Dev.setFrame_core_progMem (d : Dev) (m : Nat) (v : Frame) : (d.setFrame m v).core.progMem = d.core.progMem := rfl
@[simp] theorem Dev.setFrame_core_progs (d : Dev) (m : Nat) (v : Frame) : (d.setFrame m v).core.progs = d.core.progs := rfl
@[simp] theorem Dev.setFrame_core_loci (d : Dev) (m : Nat) (v : Frame) : (d.setFrame m v).core.loci = d.core.loci := rfl
@[simp] theorem Dev.setFrame_core_rays (d : Dev) (m : Nat) (v : Frame) : (d.setFrame m v).core.rays = d.core.rays := rfl
@[simp] theorem Dev.setFrame_core_fabric (d : Dev) (m : Nat) (v : Frame) : (d.setFrame m v).core.fabric = d.core.fabric := rfl
@[simp] theorem Dev.setFrame_core_frameDefer (d : Dev) (m : Nat) (v : Frame) : (d.setFrame m v).core.frameDefer = d.core.frameDefer := rfl
@[simp] theorem Dev.setFrame_core_run (d : Dev) (m : Nat) (v : Frame) : (d.setFrame m v).core.run = d.core.run := rfl
@[simp] theorem Dev.setFrame_core_shots (d : Dev) (m : Nat) (v : Frame) : (d.setFrame m v).core.shots = d.core.shots := rfl
@[simp] theorem Dev.setFrame_core_statuses (d : Dev) (m : Nat) (v : Frame) : (d.setFrame m v).core.statuses = d.core.statuses := rfl
@[simp] theorem Dev.setFrame_core_tables (d : Dev) (m : Nat) (v : Frame) : (d.setFrame m v).core.tables = d.core.tables := rfl
@[simp] theorem Dev.setFrame_core_tablesPrev (d : Dev) (m : Nat) (v : Frame) : (d.setFrame m v).core.tablesPrev = d.core.tablesPrev := rfl
@[simp] theorem Dev.setFrame_core_exports (d : Dev) (m : Nat) (v : Frame) : (d.setFrame m v).core.exports = d.core.exports := rfl
@[simp] theorem Dev.setFrame_core_rps (d : Dev) (m : Nat) (v : Frame) : (d.setFrame m v).core.rps = d.core.rps := rfl
@[simp] theorem Dev.setFrame_core_cmds (d : Dev) (m : Nat) (v : Frame) : (d.setFrame m v).core.cmds = d.core.cmds := rfl
@[simp] theorem Dev.setFrame_core_nextSeq (d : Dev) (m : Nat) (v : Frame) : (d.setFrame m v).core.nextSeq = d.core.nextSeq := rfl
@[simp] theorem Dev.setFrame_core_pins (d : Dev) (m : Nat) (v : Frame) : (d.setFrame m v).core.pins = d.core.pins := rfl
@[simp] theorem Dev.setFrame_core_facets (d : Dev) (m : Nat) (v : Frame) : (d.setFrame m v).core.facets = d.core.facets := rfl
@[simp] theorem Dev.setFrame_core_resid (d : Dev) (m : Nat) (v : Frame) : (d.setFrame m v).core.resid = d.core.resid := rfl
@[simp] theorem Dev.setFrame_core_due (d : Dev) (m : Nat) (v : Frame) : (d.setFrame m v).core.due = d.core.due := rfl

/-! `Dev.setRp`. -/
@[simp] theorem Dev.setRp_hif (d : Dev) (m : Nat) (v : Rp) : (d.setRp m v).hif = d.hif := rfl
@[simp] theorem Dev.setRp_time (d : Dev) (m : Nat) (v : Rp) : (d.setRp m v).time = d.time := rfl
@[simp] theorem Dev.setRp_mbs (d : Dev) (m : Nat) (v : Rp) : (d.setRp m v).mbs = d.mbs := rfl
@[simp] theorem Dev.setRp_slots (d : Dev) (m : Nat) (v : Rp) : (d.setRp m v).slots = d.slots := rfl
@[simp] theorem Dev.setRp_bells (d : Dev) (m : Nat) (v : Rp) : (d.setRp m v).bells = d.bells := rfl
@[simp] theorem Dev.setRp_dma (d : Dev) (m : Nat) (v : Rp) : (d.setRp m v).dma = d.dma := rfl
@[simp] theorem Dev.setRp_evt (d : Dev) (m : Nat) (v : Rp) : (d.setRp m v).evt = d.evt := rfl
@[simp] theorem Dev.setRp_lattice (d : Dev) (m : Nat) (v : Rp) : (d.setRp m v).lattice = d.lattice := rfl
@[simp] theorem Dev.setRp_slack (d : Dev) (m : Nat) (v : Rp) : (d.setRp m v).slack = d.slack := rfl
@[simp] theorem Dev.setRp_discards (d : Dev) (m : Nat) (v : Rp) : (d.setRp m v).discards = d.discards := rfl
@[simp] theorem Dev.setRp_discardTotal (d : Dev) (m : Nat) (v : Rp) : (d.setRp m v).discardTotal = d.discardTotal := rfl
@[simp] theorem Dev.setRp_ports (d : Dev) (m : Nat) (v : Rp) : (d.setRp m v).ports = d.ports := rfl
@[simp] theorem Dev.setRp_pages (d : Dev) (m : Nat) (v : Rp) : (d.setRp m v).pages = d.pages := rfl
@[simp] theorem Dev.setRp_env (d : Dev) (m : Nat) (v : Rp) : (d.setRp m v).env = d.env := rfl
@[simp] theorem Dev.setRp_envPrev (d : Dev) (m : Nat) (v : Rp) : (d.setRp m v).envPrev = d.envPrev := rfl
@[simp] theorem Dev.setRp_envCopies (d : Dev) (m : Nat) (v : Rp) : (d.setRp m v).envCopies = d.envCopies := rfl
@[simp] theorem Dev.setRp_stages (d : Dev) (m : Nat) (v : Rp) : (d.setRp m v).stages = d.stages := rfl
@[simp] theorem Dev.setRp_chans (d : Dev) (m : Nat) (v : Rp) : (d.setRp m v).chans = d.chans := rfl
@[simp] theorem Dev.setRp_chords (d : Dev) (m : Nat) (v : Rp) : (d.setRp m v).chords = d.chords := rfl
@[simp] theorem Dev.setRp_acq (d : Dev) (m : Nat) (v : Rp) : (d.setRp m v).acq = d.acq := rfl
@[simp] theorem Dev.setRp_cal (d : Dev) (m : Nat) (v : Rp) : (d.setRp m v).cal = d.cal := rfl
@[simp] theorem Dev.setRp_tim (d : Dev) (m : Nat) (v : Rp) : (d.setRp m v).tim = d.tim := rfl
@[simp] theorem Dev.setRp_marker (d : Dev) (m : Nat) (v : Rp) : (d.setRp m v).marker = d.marker := rfl
@[simp] theorem Dev.setRp_bench (d : Dev) (m : Nat) (v : Rp) : (d.setRp m v).bench = d.bench := rfl
@[simp] theorem Dev.setRp_links (d : Dev) (m : Nat) (v : Rp) : (d.setRp m v).links = d.links := rfl
@[simp] theorem Dev.setRp_domain (d : Dev) (m : Nat) (v : Rp) : (d.setRp m v).domain = d.domain := rfl
@[simp] theorem Dev.setRp_mirror (d : Dev) (m : Nat) (v : Rp) : (d.setRp m v).mirror = d.mirror := rfl
@[simp] theorem Dev.setRp_thermal (d : Dev) (m : Nat) (v : Rp) : (d.setRp m v).thermal = d.thermal := rfl
@[simp] theorem Dev.setRp_house (d : Dev) (m : Nat) (v : Rp) : (d.setRp m v).house = d.house := rfl
@[simp] theorem Dev.setRp_images (d : Dev) (m : Nat) (v : Rp) : (d.setRp m v).images = d.images := rfl
@[simp] theorem Dev.setRp_ledger (d : Dev) (m : Nat) (v : Rp) : (d.setRp m v).ledger = d.ledger := rfl
@[simp] theorem Dev.setRp_last (d : Dev) (m : Nat) (v : Rp) : (d.setRp m v).last = d.last := rfl
@[simp] theorem Dev.setRp_hostBad (d : Dev) (m : Nat) (v : Rp) : (d.setRp m v).hostBad = d.hostBad := rfl
@[simp] theorem Dev.setRp_eccLines (d : Dev) (m : Nat) (v : Rp) : (d.setRp m v).eccLines = d.eccLines := rfl
@[simp] theorem Dev.setRp_fwBroken (d : Dev) (m : Nat) (v : Rp) : (d.setRp m v).fwBroken = d.fwBroken := rfl
@[simp] theorem Dev.setRp_pcie (d : Dev) (m : Nat) (v : Rp) : (d.setRp m v).pcie = d.pcie := rfl
@[simp] theorem Dev.setRp_readData (d : Dev) (m : Nat) (v : Rp) : (d.setRp m v).readData = d.readData := rfl
@[simp] theorem Dev.setRp_freeCtr (d : Dev) (m : Nat) (v : Rp) : (d.setRp m v).freeCtr = d.freeCtr := rfl
@[simp] theorem Dev.setRp_wr (d : Dev) (m : Nat) (v : Rp) : (d.setRp m v).wr = d.wr := rfl
@[simp] theorem Dev.setRp_core_progMem (d : Dev) (m : Nat) (v : Rp) : (d.setRp m v).core.progMem = d.core.progMem := rfl
@[simp] theorem Dev.setRp_core_progs (d : Dev) (m : Nat) (v : Rp) : (d.setRp m v).core.progs = d.core.progs := rfl
@[simp] theorem Dev.setRp_core_loci (d : Dev) (m : Nat) (v : Rp) : (d.setRp m v).core.loci = d.core.loci := rfl
@[simp] theorem Dev.setRp_core_rays (d : Dev) (m : Nat) (v : Rp) : (d.setRp m v).core.rays = d.core.rays := rfl
@[simp] theorem Dev.setRp_core_frames (d : Dev) (m : Nat) (v : Rp) : (d.setRp m v).core.frames = d.core.frames := rfl
@[simp] theorem Dev.setRp_core_fabric (d : Dev) (m : Nat) (v : Rp) : (d.setRp m v).core.fabric = d.core.fabric := rfl
@[simp] theorem Dev.setRp_core_frameDefer (d : Dev) (m : Nat) (v : Rp) : (d.setRp m v).core.frameDefer = d.core.frameDefer := rfl
@[simp] theorem Dev.setRp_core_run (d : Dev) (m : Nat) (v : Rp) : (d.setRp m v).core.run = d.core.run := rfl
@[simp] theorem Dev.setRp_core_shots (d : Dev) (m : Nat) (v : Rp) : (d.setRp m v).core.shots = d.core.shots := rfl
@[simp] theorem Dev.setRp_core_statuses (d : Dev) (m : Nat) (v : Rp) : (d.setRp m v).core.statuses = d.core.statuses := rfl
@[simp] theorem Dev.setRp_core_tables (d : Dev) (m : Nat) (v : Rp) : (d.setRp m v).core.tables = d.core.tables := rfl
@[simp] theorem Dev.setRp_core_tablesPrev (d : Dev) (m : Nat) (v : Rp) : (d.setRp m v).core.tablesPrev = d.core.tablesPrev := rfl
@[simp] theorem Dev.setRp_core_exports (d : Dev) (m : Nat) (v : Rp) : (d.setRp m v).core.exports = d.core.exports := rfl
@[simp] theorem Dev.setRp_core_cmds (d : Dev) (m : Nat) (v : Rp) : (d.setRp m v).core.cmds = d.core.cmds := rfl
@[simp] theorem Dev.setRp_core_nextSeq (d : Dev) (m : Nat) (v : Rp) : (d.setRp m v).core.nextSeq = d.core.nextSeq := rfl
@[simp] theorem Dev.setRp_core_pins (d : Dev) (m : Nat) (v : Rp) : (d.setRp m v).core.pins = d.core.pins := rfl
@[simp] theorem Dev.setRp_core_facets (d : Dev) (m : Nat) (v : Rp) : (d.setRp m v).core.facets = d.core.facets := rfl
@[simp] theorem Dev.setRp_core_resid (d : Dev) (m : Nat) (v : Rp) : (d.setRp m v).core.resid = d.core.resid := rfl
@[simp] theorem Dev.setRp_core_due (d : Dev) (m : Nat) (v : Rp) : (d.setRp m v).core.due = d.core.due := rfl

/-! `Dev.setDue`. -/
@[simp] theorem Dev.setDue_hif (d : Dev) (m : Nat) (v : Due) : (d.setDue m v).hif = d.hif := rfl
@[simp] theorem Dev.setDue_time (d : Dev) (m : Nat) (v : Due) : (d.setDue m v).time = d.time := rfl
@[simp] theorem Dev.setDue_mbs (d : Dev) (m : Nat) (v : Due) : (d.setDue m v).mbs = d.mbs := rfl
@[simp] theorem Dev.setDue_slots (d : Dev) (m : Nat) (v : Due) : (d.setDue m v).slots = d.slots := rfl
@[simp] theorem Dev.setDue_bells (d : Dev) (m : Nat) (v : Due) : (d.setDue m v).bells = d.bells := rfl
@[simp] theorem Dev.setDue_dma (d : Dev) (m : Nat) (v : Due) : (d.setDue m v).dma = d.dma := rfl
@[simp] theorem Dev.setDue_evt (d : Dev) (m : Nat) (v : Due) : (d.setDue m v).evt = d.evt := rfl
@[simp] theorem Dev.setDue_lattice (d : Dev) (m : Nat) (v : Due) : (d.setDue m v).lattice = d.lattice := rfl
@[simp] theorem Dev.setDue_slack (d : Dev) (m : Nat) (v : Due) : (d.setDue m v).slack = d.slack := rfl
@[simp] theorem Dev.setDue_discards (d : Dev) (m : Nat) (v : Due) : (d.setDue m v).discards = d.discards := rfl
@[simp] theorem Dev.setDue_discardTotal (d : Dev) (m : Nat) (v : Due) : (d.setDue m v).discardTotal = d.discardTotal := rfl
@[simp] theorem Dev.setDue_ports (d : Dev) (m : Nat) (v : Due) : (d.setDue m v).ports = d.ports := rfl
@[simp] theorem Dev.setDue_pages (d : Dev) (m : Nat) (v : Due) : (d.setDue m v).pages = d.pages := rfl
@[simp] theorem Dev.setDue_env (d : Dev) (m : Nat) (v : Due) : (d.setDue m v).env = d.env := rfl
@[simp] theorem Dev.setDue_envPrev (d : Dev) (m : Nat) (v : Due) : (d.setDue m v).envPrev = d.envPrev := rfl
@[simp] theorem Dev.setDue_envCopies (d : Dev) (m : Nat) (v : Due) : (d.setDue m v).envCopies = d.envCopies := rfl
@[simp] theorem Dev.setDue_stages (d : Dev) (m : Nat) (v : Due) : (d.setDue m v).stages = d.stages := rfl
@[simp] theorem Dev.setDue_chans (d : Dev) (m : Nat) (v : Due) : (d.setDue m v).chans = d.chans := rfl
@[simp] theorem Dev.setDue_chords (d : Dev) (m : Nat) (v : Due) : (d.setDue m v).chords = d.chords := rfl
@[simp] theorem Dev.setDue_acq (d : Dev) (m : Nat) (v : Due) : (d.setDue m v).acq = d.acq := rfl
@[simp] theorem Dev.setDue_cal (d : Dev) (m : Nat) (v : Due) : (d.setDue m v).cal = d.cal := rfl
@[simp] theorem Dev.setDue_tim (d : Dev) (m : Nat) (v : Due) : (d.setDue m v).tim = d.tim := rfl
@[simp] theorem Dev.setDue_marker (d : Dev) (m : Nat) (v : Due) : (d.setDue m v).marker = d.marker := rfl
@[simp] theorem Dev.setDue_bench (d : Dev) (m : Nat) (v : Due) : (d.setDue m v).bench = d.bench := rfl
@[simp] theorem Dev.setDue_links (d : Dev) (m : Nat) (v : Due) : (d.setDue m v).links = d.links := rfl
@[simp] theorem Dev.setDue_domain (d : Dev) (m : Nat) (v : Due) : (d.setDue m v).domain = d.domain := rfl
@[simp] theorem Dev.setDue_mirror (d : Dev) (m : Nat) (v : Due) : (d.setDue m v).mirror = d.mirror := rfl
@[simp] theorem Dev.setDue_thermal (d : Dev) (m : Nat) (v : Due) : (d.setDue m v).thermal = d.thermal := rfl
@[simp] theorem Dev.setDue_house (d : Dev) (m : Nat) (v : Due) : (d.setDue m v).house = d.house := rfl
@[simp] theorem Dev.setDue_images (d : Dev) (m : Nat) (v : Due) : (d.setDue m v).images = d.images := rfl
@[simp] theorem Dev.setDue_ledger (d : Dev) (m : Nat) (v : Due) : (d.setDue m v).ledger = d.ledger := rfl
@[simp] theorem Dev.setDue_last (d : Dev) (m : Nat) (v : Due) : (d.setDue m v).last = d.last := rfl
@[simp] theorem Dev.setDue_hostBad (d : Dev) (m : Nat) (v : Due) : (d.setDue m v).hostBad = d.hostBad := rfl
@[simp] theorem Dev.setDue_eccLines (d : Dev) (m : Nat) (v : Due) : (d.setDue m v).eccLines = d.eccLines := rfl
@[simp] theorem Dev.setDue_fwBroken (d : Dev) (m : Nat) (v : Due) : (d.setDue m v).fwBroken = d.fwBroken := rfl
@[simp] theorem Dev.setDue_pcie (d : Dev) (m : Nat) (v : Due) : (d.setDue m v).pcie = d.pcie := rfl
@[simp] theorem Dev.setDue_readData (d : Dev) (m : Nat) (v : Due) : (d.setDue m v).readData = d.readData := rfl
@[simp] theorem Dev.setDue_freeCtr (d : Dev) (m : Nat) (v : Due) : (d.setDue m v).freeCtr = d.freeCtr := rfl
@[simp] theorem Dev.setDue_wr (d : Dev) (m : Nat) (v : Due) : (d.setDue m v).wr = d.wr := rfl
@[simp] theorem Dev.setDue_core_progMem (d : Dev) (m : Nat) (v : Due) : (d.setDue m v).core.progMem = d.core.progMem := rfl
@[simp] theorem Dev.setDue_core_progs (d : Dev) (m : Nat) (v : Due) : (d.setDue m v).core.progs = d.core.progs := rfl
@[simp] theorem Dev.setDue_core_loci (d : Dev) (m : Nat) (v : Due) : (d.setDue m v).core.loci = d.core.loci := rfl
@[simp] theorem Dev.setDue_core_rays (d : Dev) (m : Nat) (v : Due) : (d.setDue m v).core.rays = d.core.rays := rfl
@[simp] theorem Dev.setDue_core_frames (d : Dev) (m : Nat) (v : Due) : (d.setDue m v).core.frames = d.core.frames := rfl
@[simp] theorem Dev.setDue_core_fabric (d : Dev) (m : Nat) (v : Due) : (d.setDue m v).core.fabric = d.core.fabric := rfl
@[simp] theorem Dev.setDue_core_frameDefer (d : Dev) (m : Nat) (v : Due) : (d.setDue m v).core.frameDefer = d.core.frameDefer := rfl
@[simp] theorem Dev.setDue_core_run (d : Dev) (m : Nat) (v : Due) : (d.setDue m v).core.run = d.core.run := rfl
@[simp] theorem Dev.setDue_core_shots (d : Dev) (m : Nat) (v : Due) : (d.setDue m v).core.shots = d.core.shots := rfl
@[simp] theorem Dev.setDue_core_statuses (d : Dev) (m : Nat) (v : Due) : (d.setDue m v).core.statuses = d.core.statuses := rfl
@[simp] theorem Dev.setDue_core_tables (d : Dev) (m : Nat) (v : Due) : (d.setDue m v).core.tables = d.core.tables := rfl
@[simp] theorem Dev.setDue_core_tablesPrev (d : Dev) (m : Nat) (v : Due) : (d.setDue m v).core.tablesPrev = d.core.tablesPrev := rfl
@[simp] theorem Dev.setDue_core_exports (d : Dev) (m : Nat) (v : Due) : (d.setDue m v).core.exports = d.core.exports := rfl
@[simp] theorem Dev.setDue_core_rps (d : Dev) (m : Nat) (v : Due) : (d.setDue m v).core.rps = d.core.rps := rfl
@[simp] theorem Dev.setDue_core_cmds (d : Dev) (m : Nat) (v : Due) : (d.setDue m v).core.cmds = d.core.cmds := rfl
@[simp] theorem Dev.setDue_core_nextSeq (d : Dev) (m : Nat) (v : Due) : (d.setDue m v).core.nextSeq = d.core.nextSeq := rfl
@[simp] theorem Dev.setDue_core_pins (d : Dev) (m : Nat) (v : Due) : (d.setDue m v).core.pins = d.core.pins := rfl
@[simp] theorem Dev.setDue_core_facets (d : Dev) (m : Nat) (v : Due) : (d.setDue m v).core.facets = d.core.facets := rfl
@[simp] theorem Dev.setDue_core_resid (d : Dev) (m : Nat) (v : Due) : (d.setDue m v).core.resid = d.core.resid := rfl

/-! `Dev.setFacet`. -/
@[simp] theorem Dev.setFacet_hif (d : Dev) (m n : Nat) (v : Entry) : (d.setFacet m n v).hif = d.hif := rfl
@[simp] theorem Dev.setFacet_time (d : Dev) (m n : Nat) (v : Entry) : (d.setFacet m n v).time = d.time := rfl
@[simp] theorem Dev.setFacet_mbs (d : Dev) (m n : Nat) (v : Entry) : (d.setFacet m n v).mbs = d.mbs := rfl
@[simp] theorem Dev.setFacet_slots (d : Dev) (m n : Nat) (v : Entry) : (d.setFacet m n v).slots = d.slots := rfl
@[simp] theorem Dev.setFacet_bells (d : Dev) (m n : Nat) (v : Entry) : (d.setFacet m n v).bells = d.bells := rfl
@[simp] theorem Dev.setFacet_dma (d : Dev) (m n : Nat) (v : Entry) : (d.setFacet m n v).dma = d.dma := rfl
@[simp] theorem Dev.setFacet_evt (d : Dev) (m n : Nat) (v : Entry) : (d.setFacet m n v).evt = d.evt := rfl
@[simp] theorem Dev.setFacet_lattice (d : Dev) (m n : Nat) (v : Entry) : (d.setFacet m n v).lattice = d.lattice := rfl
@[simp] theorem Dev.setFacet_slack (d : Dev) (m n : Nat) (v : Entry) : (d.setFacet m n v).slack = d.slack := rfl
@[simp] theorem Dev.setFacet_discards (d : Dev) (m n : Nat) (v : Entry) : (d.setFacet m n v).discards = d.discards := rfl
@[simp] theorem Dev.setFacet_discardTotal (d : Dev) (m n : Nat) (v : Entry) : (d.setFacet m n v).discardTotal = d.discardTotal := rfl
@[simp] theorem Dev.setFacet_ports (d : Dev) (m n : Nat) (v : Entry) : (d.setFacet m n v).ports = d.ports := rfl
@[simp] theorem Dev.setFacet_pages (d : Dev) (m n : Nat) (v : Entry) : (d.setFacet m n v).pages = d.pages := rfl
@[simp] theorem Dev.setFacet_env (d : Dev) (m n : Nat) (v : Entry) : (d.setFacet m n v).env = d.env := rfl
@[simp] theorem Dev.setFacet_envPrev (d : Dev) (m n : Nat) (v : Entry) : (d.setFacet m n v).envPrev = d.envPrev := rfl
@[simp] theorem Dev.setFacet_envCopies (d : Dev) (m n : Nat) (v : Entry) : (d.setFacet m n v).envCopies = d.envCopies := rfl
@[simp] theorem Dev.setFacet_stages (d : Dev) (m n : Nat) (v : Entry) : (d.setFacet m n v).stages = d.stages := rfl
@[simp] theorem Dev.setFacet_chans (d : Dev) (m n : Nat) (v : Entry) : (d.setFacet m n v).chans = d.chans := rfl
@[simp] theorem Dev.setFacet_chords (d : Dev) (m n : Nat) (v : Entry) : (d.setFacet m n v).chords = d.chords := rfl
@[simp] theorem Dev.setFacet_acq (d : Dev) (m n : Nat) (v : Entry) : (d.setFacet m n v).acq = d.acq := rfl
@[simp] theorem Dev.setFacet_cal (d : Dev) (m n : Nat) (v : Entry) : (d.setFacet m n v).cal = d.cal := rfl
@[simp] theorem Dev.setFacet_tim (d : Dev) (m n : Nat) (v : Entry) : (d.setFacet m n v).tim = d.tim := rfl
@[simp] theorem Dev.setFacet_marker (d : Dev) (m n : Nat) (v : Entry) : (d.setFacet m n v).marker = d.marker := rfl
@[simp] theorem Dev.setFacet_bench (d : Dev) (m n : Nat) (v : Entry) : (d.setFacet m n v).bench = d.bench := rfl
@[simp] theorem Dev.setFacet_links (d : Dev) (m n : Nat) (v : Entry) : (d.setFacet m n v).links = d.links := rfl
@[simp] theorem Dev.setFacet_domain (d : Dev) (m n : Nat) (v : Entry) : (d.setFacet m n v).domain = d.domain := rfl
@[simp] theorem Dev.setFacet_mirror (d : Dev) (m n : Nat) (v : Entry) : (d.setFacet m n v).mirror = d.mirror := rfl
@[simp] theorem Dev.setFacet_thermal (d : Dev) (m n : Nat) (v : Entry) : (d.setFacet m n v).thermal = d.thermal := rfl
@[simp] theorem Dev.setFacet_house (d : Dev) (m n : Nat) (v : Entry) : (d.setFacet m n v).house = d.house := rfl
@[simp] theorem Dev.setFacet_images (d : Dev) (m n : Nat) (v : Entry) : (d.setFacet m n v).images = d.images := rfl
@[simp] theorem Dev.setFacet_ledger (d : Dev) (m n : Nat) (v : Entry) : (d.setFacet m n v).ledger = d.ledger := rfl
@[simp] theorem Dev.setFacet_last (d : Dev) (m n : Nat) (v : Entry) : (d.setFacet m n v).last = d.last := rfl
@[simp] theorem Dev.setFacet_hostBad (d : Dev) (m n : Nat) (v : Entry) : (d.setFacet m n v).hostBad = d.hostBad := rfl
@[simp] theorem Dev.setFacet_eccLines (d : Dev) (m n : Nat) (v : Entry) : (d.setFacet m n v).eccLines = d.eccLines := rfl
@[simp] theorem Dev.setFacet_fwBroken (d : Dev) (m n : Nat) (v : Entry) : (d.setFacet m n v).fwBroken = d.fwBroken := rfl
@[simp] theorem Dev.setFacet_pcie (d : Dev) (m n : Nat) (v : Entry) : (d.setFacet m n v).pcie = d.pcie := rfl
@[simp] theorem Dev.setFacet_readData (d : Dev) (m n : Nat) (v : Entry) : (d.setFacet m n v).readData = d.readData := rfl
@[simp] theorem Dev.setFacet_freeCtr (d : Dev) (m n : Nat) (v : Entry) : (d.setFacet m n v).freeCtr = d.freeCtr := rfl
@[simp] theorem Dev.setFacet_wr (d : Dev) (m n : Nat) (v : Entry) : (d.setFacet m n v).wr = d.wr := rfl
@[simp] theorem Dev.setFacet_core_progMem (d : Dev) (m n : Nat) (v : Entry) : (d.setFacet m n v).core.progMem = d.core.progMem := rfl
@[simp] theorem Dev.setFacet_core_progs (d : Dev) (m n : Nat) (v : Entry) : (d.setFacet m n v).core.progs = d.core.progs := rfl
@[simp] theorem Dev.setFacet_core_loci (d : Dev) (m n : Nat) (v : Entry) : (d.setFacet m n v).core.loci = d.core.loci := rfl
@[simp] theorem Dev.setFacet_core_rays (d : Dev) (m n : Nat) (v : Entry) : (d.setFacet m n v).core.rays = d.core.rays := rfl
@[simp] theorem Dev.setFacet_core_frames (d : Dev) (m n : Nat) (v : Entry) : (d.setFacet m n v).core.frames = d.core.frames := rfl
@[simp] theorem Dev.setFacet_core_fabric (d : Dev) (m n : Nat) (v : Entry) : (d.setFacet m n v).core.fabric = d.core.fabric := rfl
@[simp] theorem Dev.setFacet_core_frameDefer (d : Dev) (m n : Nat) (v : Entry) : (d.setFacet m n v).core.frameDefer = d.core.frameDefer := rfl
@[simp] theorem Dev.setFacet_core_run (d : Dev) (m n : Nat) (v : Entry) : (d.setFacet m n v).core.run = d.core.run := rfl
@[simp] theorem Dev.setFacet_core_shots (d : Dev) (m n : Nat) (v : Entry) : (d.setFacet m n v).core.shots = d.core.shots := rfl
@[simp] theorem Dev.setFacet_core_statuses (d : Dev) (m n : Nat) (v : Entry) : (d.setFacet m n v).core.statuses = d.core.statuses := rfl
@[simp] theorem Dev.setFacet_core_tables (d : Dev) (m n : Nat) (v : Entry) : (d.setFacet m n v).core.tables = d.core.tables := rfl
@[simp] theorem Dev.setFacet_core_tablesPrev (d : Dev) (m n : Nat) (v : Entry) : (d.setFacet m n v).core.tablesPrev = d.core.tablesPrev := rfl
@[simp] theorem Dev.setFacet_core_exports (d : Dev) (m n : Nat) (v : Entry) : (d.setFacet m n v).core.exports = d.core.exports := rfl
@[simp] theorem Dev.setFacet_core_rps (d : Dev) (m n : Nat) (v : Entry) : (d.setFacet m n v).core.rps = d.core.rps := rfl
@[simp] theorem Dev.setFacet_core_cmds (d : Dev) (m n : Nat) (v : Entry) : (d.setFacet m n v).core.cmds = d.core.cmds := rfl
@[simp] theorem Dev.setFacet_core_nextSeq (d : Dev) (m n : Nat) (v : Entry) : (d.setFacet m n v).core.nextSeq = d.core.nextSeq := rfl
@[simp] theorem Dev.setFacet_core_pins (d : Dev) (m n : Nat) (v : Entry) : (d.setFacet m n v).core.pins = d.core.pins := rfl
@[simp] theorem Dev.setFacet_core_resid (d : Dev) (m n : Nat) (v : Entry) : (d.setFacet m n v).core.resid = d.core.resid := rfl
@[simp] theorem Dev.setFacet_core_due (d : Dev) (m n : Nat) (v : Entry) : (d.setFacet m n v).core.due = d.core.due := rfl

/-! `Dev.setAcqRing`. -/
@[simp] theorem Dev.setAcqRing_hif (d : Dev) (m : Nat) (v : AcqRing) : (d.setAcqRing m v).hif = d.hif := rfl
@[simp] theorem Dev.setAcqRing_time (d : Dev) (m : Nat) (v : AcqRing) : (d.setAcqRing m v).time = d.time := rfl
@[simp] theorem Dev.setAcqRing_mbs (d : Dev) (m : Nat) (v : AcqRing) : (d.setAcqRing m v).mbs = d.mbs := rfl
@[simp] theorem Dev.setAcqRing_slots (d : Dev) (m : Nat) (v : AcqRing) : (d.setAcqRing m v).slots = d.slots := rfl
@[simp] theorem Dev.setAcqRing_bells (d : Dev) (m : Nat) (v : AcqRing) : (d.setAcqRing m v).bells = d.bells := rfl
@[simp] theorem Dev.setAcqRing_dma (d : Dev) (m : Nat) (v : AcqRing) : (d.setAcqRing m v).dma = d.dma := rfl
@[simp] theorem Dev.setAcqRing_evt (d : Dev) (m : Nat) (v : AcqRing) : (d.setAcqRing m v).evt = d.evt := rfl
@[simp] theorem Dev.setAcqRing_lattice (d : Dev) (m : Nat) (v : AcqRing) : (d.setAcqRing m v).lattice = d.lattice := rfl
@[simp] theorem Dev.setAcqRing_slack (d : Dev) (m : Nat) (v : AcqRing) : (d.setAcqRing m v).slack = d.slack := rfl
@[simp] theorem Dev.setAcqRing_discards (d : Dev) (m : Nat) (v : AcqRing) : (d.setAcqRing m v).discards = d.discards := rfl
@[simp] theorem Dev.setAcqRing_discardTotal (d : Dev) (m : Nat) (v : AcqRing) : (d.setAcqRing m v).discardTotal = d.discardTotal := rfl
@[simp] theorem Dev.setAcqRing_ports (d : Dev) (m : Nat) (v : AcqRing) : (d.setAcqRing m v).ports = d.ports := rfl
@[simp] theorem Dev.setAcqRing_pages (d : Dev) (m : Nat) (v : AcqRing) : (d.setAcqRing m v).pages = d.pages := rfl
@[simp] theorem Dev.setAcqRing_env (d : Dev) (m : Nat) (v : AcqRing) : (d.setAcqRing m v).env = d.env := rfl
@[simp] theorem Dev.setAcqRing_envPrev (d : Dev) (m : Nat) (v : AcqRing) : (d.setAcqRing m v).envPrev = d.envPrev := rfl
@[simp] theorem Dev.setAcqRing_envCopies (d : Dev) (m : Nat) (v : AcqRing) : (d.setAcqRing m v).envCopies = d.envCopies := rfl
@[simp] theorem Dev.setAcqRing_stages (d : Dev) (m : Nat) (v : AcqRing) : (d.setAcqRing m v).stages = d.stages := rfl
@[simp] theorem Dev.setAcqRing_chans (d : Dev) (m : Nat) (v : AcqRing) : (d.setAcqRing m v).chans = d.chans := rfl
@[simp] theorem Dev.setAcqRing_chords (d : Dev) (m : Nat) (v : AcqRing) : (d.setAcqRing m v).chords = d.chords := rfl
@[simp] theorem Dev.setAcqRing_core (d : Dev) (m : Nat) (v : AcqRing) : (d.setAcqRing m v).core = d.core := rfl
@[simp] theorem Dev.setAcqRing_cal (d : Dev) (m : Nat) (v : AcqRing) : (d.setAcqRing m v).cal = d.cal := rfl
@[simp] theorem Dev.setAcqRing_tim (d : Dev) (m : Nat) (v : AcqRing) : (d.setAcqRing m v).tim = d.tim := rfl
@[simp] theorem Dev.setAcqRing_marker (d : Dev) (m : Nat) (v : AcqRing) : (d.setAcqRing m v).marker = d.marker := rfl
@[simp] theorem Dev.setAcqRing_bench (d : Dev) (m : Nat) (v : AcqRing) : (d.setAcqRing m v).bench = d.bench := rfl
@[simp] theorem Dev.setAcqRing_links (d : Dev) (m : Nat) (v : AcqRing) : (d.setAcqRing m v).links = d.links := rfl
@[simp] theorem Dev.setAcqRing_domain (d : Dev) (m : Nat) (v : AcqRing) : (d.setAcqRing m v).domain = d.domain := rfl
@[simp] theorem Dev.setAcqRing_mirror (d : Dev) (m : Nat) (v : AcqRing) : (d.setAcqRing m v).mirror = d.mirror := rfl
@[simp] theorem Dev.setAcqRing_thermal (d : Dev) (m : Nat) (v : AcqRing) : (d.setAcqRing m v).thermal = d.thermal := rfl
@[simp] theorem Dev.setAcqRing_house (d : Dev) (m : Nat) (v : AcqRing) : (d.setAcqRing m v).house = d.house := rfl
@[simp] theorem Dev.setAcqRing_images (d : Dev) (m : Nat) (v : AcqRing) : (d.setAcqRing m v).images = d.images := rfl
@[simp] theorem Dev.setAcqRing_ledger (d : Dev) (m : Nat) (v : AcqRing) : (d.setAcqRing m v).ledger = d.ledger := rfl
@[simp] theorem Dev.setAcqRing_last (d : Dev) (m : Nat) (v : AcqRing) : (d.setAcqRing m v).last = d.last := rfl
@[simp] theorem Dev.setAcqRing_hostBad (d : Dev) (m : Nat) (v : AcqRing) : (d.setAcqRing m v).hostBad = d.hostBad := rfl
@[simp] theorem Dev.setAcqRing_eccLines (d : Dev) (m : Nat) (v : AcqRing) : (d.setAcqRing m v).eccLines = d.eccLines := rfl
@[simp] theorem Dev.setAcqRing_fwBroken (d : Dev) (m : Nat) (v : AcqRing) : (d.setAcqRing m v).fwBroken = d.fwBroken := rfl
@[simp] theorem Dev.setAcqRing_pcie (d : Dev) (m : Nat) (v : AcqRing) : (d.setAcqRing m v).pcie = d.pcie := rfl
@[simp] theorem Dev.setAcqRing_readData (d : Dev) (m : Nat) (v : AcqRing) : (d.setAcqRing m v).readData = d.readData := rfl
@[simp] theorem Dev.setAcqRing_freeCtr (d : Dev) (m : Nat) (v : AcqRing) : (d.setAcqRing m v).freeCtr = d.freeCtr := rfl
@[simp] theorem Dev.setAcqRing_wr (d : Dev) (m : Nat) (v : AcqRing) : (d.setAcqRing m v).wr = d.wr := rfl

/-! `Dev.setUnit`. -/
@[simp] theorem Dev.setUnit_hif (d : Dev) (m : Nat) (v : CapUnit) : (d.setUnit m v).hif = d.hif := rfl
@[simp] theorem Dev.setUnit_time (d : Dev) (m : Nat) (v : CapUnit) : (d.setUnit m v).time = d.time := rfl
@[simp] theorem Dev.setUnit_mbs (d : Dev) (m : Nat) (v : CapUnit) : (d.setUnit m v).mbs = d.mbs := rfl
@[simp] theorem Dev.setUnit_slots (d : Dev) (m : Nat) (v : CapUnit) : (d.setUnit m v).slots = d.slots := rfl
@[simp] theorem Dev.setUnit_bells (d : Dev) (m : Nat) (v : CapUnit) : (d.setUnit m v).bells = d.bells := rfl
@[simp] theorem Dev.setUnit_dma (d : Dev) (m : Nat) (v : CapUnit) : (d.setUnit m v).dma = d.dma := rfl
@[simp] theorem Dev.setUnit_evt (d : Dev) (m : Nat) (v : CapUnit) : (d.setUnit m v).evt = d.evt := rfl
@[simp] theorem Dev.setUnit_lattice (d : Dev) (m : Nat) (v : CapUnit) : (d.setUnit m v).lattice = d.lattice := rfl
@[simp] theorem Dev.setUnit_slack (d : Dev) (m : Nat) (v : CapUnit) : (d.setUnit m v).slack = d.slack := rfl
@[simp] theorem Dev.setUnit_discards (d : Dev) (m : Nat) (v : CapUnit) : (d.setUnit m v).discards = d.discards := rfl
@[simp] theorem Dev.setUnit_discardTotal (d : Dev) (m : Nat) (v : CapUnit) : (d.setUnit m v).discardTotal = d.discardTotal := rfl
@[simp] theorem Dev.setUnit_ports (d : Dev) (m : Nat) (v : CapUnit) : (d.setUnit m v).ports = d.ports := rfl
@[simp] theorem Dev.setUnit_pages (d : Dev) (m : Nat) (v : CapUnit) : (d.setUnit m v).pages = d.pages := rfl
@[simp] theorem Dev.setUnit_env (d : Dev) (m : Nat) (v : CapUnit) : (d.setUnit m v).env = d.env := rfl
@[simp] theorem Dev.setUnit_envPrev (d : Dev) (m : Nat) (v : CapUnit) : (d.setUnit m v).envPrev = d.envPrev := rfl
@[simp] theorem Dev.setUnit_envCopies (d : Dev) (m : Nat) (v : CapUnit) : (d.setUnit m v).envCopies = d.envCopies := rfl
@[simp] theorem Dev.setUnit_stages (d : Dev) (m : Nat) (v : CapUnit) : (d.setUnit m v).stages = d.stages := rfl
@[simp] theorem Dev.setUnit_chans (d : Dev) (m : Nat) (v : CapUnit) : (d.setUnit m v).chans = d.chans := rfl
@[simp] theorem Dev.setUnit_chords (d : Dev) (m : Nat) (v : CapUnit) : (d.setUnit m v).chords = d.chords := rfl
@[simp] theorem Dev.setUnit_core (d : Dev) (m : Nat) (v : CapUnit) : (d.setUnit m v).core = d.core := rfl
@[simp] theorem Dev.setUnit_cal (d : Dev) (m : Nat) (v : CapUnit) : (d.setUnit m v).cal = d.cal := rfl
@[simp] theorem Dev.setUnit_tim (d : Dev) (m : Nat) (v : CapUnit) : (d.setUnit m v).tim = d.tim := rfl
@[simp] theorem Dev.setUnit_marker (d : Dev) (m : Nat) (v : CapUnit) : (d.setUnit m v).marker = d.marker := rfl
@[simp] theorem Dev.setUnit_bench (d : Dev) (m : Nat) (v : CapUnit) : (d.setUnit m v).bench = d.bench := rfl
@[simp] theorem Dev.setUnit_links (d : Dev) (m : Nat) (v : CapUnit) : (d.setUnit m v).links = d.links := rfl
@[simp] theorem Dev.setUnit_domain (d : Dev) (m : Nat) (v : CapUnit) : (d.setUnit m v).domain = d.domain := rfl
@[simp] theorem Dev.setUnit_mirror (d : Dev) (m : Nat) (v : CapUnit) : (d.setUnit m v).mirror = d.mirror := rfl
@[simp] theorem Dev.setUnit_thermal (d : Dev) (m : Nat) (v : CapUnit) : (d.setUnit m v).thermal = d.thermal := rfl
@[simp] theorem Dev.setUnit_house (d : Dev) (m : Nat) (v : CapUnit) : (d.setUnit m v).house = d.house := rfl
@[simp] theorem Dev.setUnit_images (d : Dev) (m : Nat) (v : CapUnit) : (d.setUnit m v).images = d.images := rfl
@[simp] theorem Dev.setUnit_ledger (d : Dev) (m : Nat) (v : CapUnit) : (d.setUnit m v).ledger = d.ledger := rfl
@[simp] theorem Dev.setUnit_last (d : Dev) (m : Nat) (v : CapUnit) : (d.setUnit m v).last = d.last := rfl
@[simp] theorem Dev.setUnit_hostBad (d : Dev) (m : Nat) (v : CapUnit) : (d.setUnit m v).hostBad = d.hostBad := rfl
@[simp] theorem Dev.setUnit_eccLines (d : Dev) (m : Nat) (v : CapUnit) : (d.setUnit m v).eccLines = d.eccLines := rfl
@[simp] theorem Dev.setUnit_fwBroken (d : Dev) (m : Nat) (v : CapUnit) : (d.setUnit m v).fwBroken = d.fwBroken := rfl
@[simp] theorem Dev.setUnit_pcie (d : Dev) (m : Nat) (v : CapUnit) : (d.setUnit m v).pcie = d.pcie := rfl
@[simp] theorem Dev.setUnit_readData (d : Dev) (m : Nat) (v : CapUnit) : (d.setUnit m v).readData = d.readData := rfl
@[simp] theorem Dev.setUnit_freeCtr (d : Dev) (m : Nat) (v : CapUnit) : (d.setUnit m v).freeCtr = d.freeCtr := rfl
@[simp] theorem Dev.setUnit_wr (d : Dev) (m : Nat) (v : CapUnit) : (d.setUnit m v).wr = d.wr := rfl

/-! `Dev.setLink`. -/
@[simp] theorem Dev.setLink_hif (d : Dev) (m : Nat) (v : Link) : (d.setLink m v).hif = d.hif := rfl
@[simp] theorem Dev.setLink_time (d : Dev) (m : Nat) (v : Link) : (d.setLink m v).time = d.time := rfl
@[simp] theorem Dev.setLink_mbs (d : Dev) (m : Nat) (v : Link) : (d.setLink m v).mbs = d.mbs := rfl
@[simp] theorem Dev.setLink_slots (d : Dev) (m : Nat) (v : Link) : (d.setLink m v).slots = d.slots := rfl
@[simp] theorem Dev.setLink_bells (d : Dev) (m : Nat) (v : Link) : (d.setLink m v).bells = d.bells := rfl
@[simp] theorem Dev.setLink_dma (d : Dev) (m : Nat) (v : Link) : (d.setLink m v).dma = d.dma := rfl
@[simp] theorem Dev.setLink_evt (d : Dev) (m : Nat) (v : Link) : (d.setLink m v).evt = d.evt := rfl
@[simp] theorem Dev.setLink_lattice (d : Dev) (m : Nat) (v : Link) : (d.setLink m v).lattice = d.lattice := rfl
@[simp] theorem Dev.setLink_slack (d : Dev) (m : Nat) (v : Link) : (d.setLink m v).slack = d.slack := rfl
@[simp] theorem Dev.setLink_discards (d : Dev) (m : Nat) (v : Link) : (d.setLink m v).discards = d.discards := rfl
@[simp] theorem Dev.setLink_discardTotal (d : Dev) (m : Nat) (v : Link) : (d.setLink m v).discardTotal = d.discardTotal := rfl
@[simp] theorem Dev.setLink_ports (d : Dev) (m : Nat) (v : Link) : (d.setLink m v).ports = d.ports := rfl
@[simp] theorem Dev.setLink_pages (d : Dev) (m : Nat) (v : Link) : (d.setLink m v).pages = d.pages := rfl
@[simp] theorem Dev.setLink_env (d : Dev) (m : Nat) (v : Link) : (d.setLink m v).env = d.env := rfl
@[simp] theorem Dev.setLink_envPrev (d : Dev) (m : Nat) (v : Link) : (d.setLink m v).envPrev = d.envPrev := rfl
@[simp] theorem Dev.setLink_envCopies (d : Dev) (m : Nat) (v : Link) : (d.setLink m v).envCopies = d.envCopies := rfl
@[simp] theorem Dev.setLink_stages (d : Dev) (m : Nat) (v : Link) : (d.setLink m v).stages = d.stages := rfl
@[simp] theorem Dev.setLink_chans (d : Dev) (m : Nat) (v : Link) : (d.setLink m v).chans = d.chans := rfl
@[simp] theorem Dev.setLink_chords (d : Dev) (m : Nat) (v : Link) : (d.setLink m v).chords = d.chords := rfl
@[simp] theorem Dev.setLink_core (d : Dev) (m : Nat) (v : Link) : (d.setLink m v).core = d.core := rfl
@[simp] theorem Dev.setLink_acq (d : Dev) (m : Nat) (v : Link) : (d.setLink m v).acq = d.acq := rfl
@[simp] theorem Dev.setLink_cal (d : Dev) (m : Nat) (v : Link) : (d.setLink m v).cal = d.cal := rfl
@[simp] theorem Dev.setLink_tim (d : Dev) (m : Nat) (v : Link) : (d.setLink m v).tim = d.tim := rfl
@[simp] theorem Dev.setLink_marker (d : Dev) (m : Nat) (v : Link) : (d.setLink m v).marker = d.marker := rfl
@[simp] theorem Dev.setLink_bench (d : Dev) (m : Nat) (v : Link) : (d.setLink m v).bench = d.bench := rfl
@[simp] theorem Dev.setLink_domain (d : Dev) (m : Nat) (v : Link) : (d.setLink m v).domain = d.domain := rfl
@[simp] theorem Dev.setLink_mirror (d : Dev) (m : Nat) (v : Link) : (d.setLink m v).mirror = d.mirror := rfl
@[simp] theorem Dev.setLink_thermal (d : Dev) (m : Nat) (v : Link) : (d.setLink m v).thermal = d.thermal := rfl
@[simp] theorem Dev.setLink_house (d : Dev) (m : Nat) (v : Link) : (d.setLink m v).house = d.house := rfl
@[simp] theorem Dev.setLink_images (d : Dev) (m : Nat) (v : Link) : (d.setLink m v).images = d.images := rfl
@[simp] theorem Dev.setLink_ledger (d : Dev) (m : Nat) (v : Link) : (d.setLink m v).ledger = d.ledger := rfl
@[simp] theorem Dev.setLink_last (d : Dev) (m : Nat) (v : Link) : (d.setLink m v).last = d.last := rfl
@[simp] theorem Dev.setLink_hostBad (d : Dev) (m : Nat) (v : Link) : (d.setLink m v).hostBad = d.hostBad := rfl
@[simp] theorem Dev.setLink_eccLines (d : Dev) (m : Nat) (v : Link) : (d.setLink m v).eccLines = d.eccLines := rfl
@[simp] theorem Dev.setLink_fwBroken (d : Dev) (m : Nat) (v : Link) : (d.setLink m v).fwBroken = d.fwBroken := rfl
@[simp] theorem Dev.setLink_pcie (d : Dev) (m : Nat) (v : Link) : (d.setLink m v).pcie = d.pcie := rfl
@[simp] theorem Dev.setLink_readData (d : Dev) (m : Nat) (v : Link) : (d.setLink m v).readData = d.readData := rfl
@[simp] theorem Dev.setLink_freeCtr (d : Dev) (m : Nat) (v : Link) : (d.setLink m v).freeCtr = d.freeCtr := rfl
@[simp] theorem Dev.setLink_wr (d : Dev) (m : Nat) (v : Link) : (d.setLink m v).wr = d.wr := rfl

/-! `Dev.setSlack`. -/
@[simp] theorem Dev.setSlack_hif (d : Dev) (m : Bool) (v : Slack) : (d.setSlack m v).hif = d.hif := rfl
@[simp] theorem Dev.setSlack_time (d : Dev) (m : Bool) (v : Slack) : (d.setSlack m v).time = d.time := rfl
@[simp] theorem Dev.setSlack_mbs (d : Dev) (m : Bool) (v : Slack) : (d.setSlack m v).mbs = d.mbs := rfl
@[simp] theorem Dev.setSlack_slots (d : Dev) (m : Bool) (v : Slack) : (d.setSlack m v).slots = d.slots := rfl
@[simp] theorem Dev.setSlack_bells (d : Dev) (m : Bool) (v : Slack) : (d.setSlack m v).bells = d.bells := rfl
@[simp] theorem Dev.setSlack_dma (d : Dev) (m : Bool) (v : Slack) : (d.setSlack m v).dma = d.dma := rfl
@[simp] theorem Dev.setSlack_evt (d : Dev) (m : Bool) (v : Slack) : (d.setSlack m v).evt = d.evt := rfl
@[simp] theorem Dev.setSlack_lattice (d : Dev) (m : Bool) (v : Slack) : (d.setSlack m v).lattice = d.lattice := rfl
@[simp] theorem Dev.setSlack_discards (d : Dev) (m : Bool) (v : Slack) : (d.setSlack m v).discards = d.discards := rfl
@[simp] theorem Dev.setSlack_discardTotal (d : Dev) (m : Bool) (v : Slack) : (d.setSlack m v).discardTotal = d.discardTotal := rfl
@[simp] theorem Dev.setSlack_ports (d : Dev) (m : Bool) (v : Slack) : (d.setSlack m v).ports = d.ports := rfl
@[simp] theorem Dev.setSlack_pages (d : Dev) (m : Bool) (v : Slack) : (d.setSlack m v).pages = d.pages := rfl
@[simp] theorem Dev.setSlack_env (d : Dev) (m : Bool) (v : Slack) : (d.setSlack m v).env = d.env := rfl
@[simp] theorem Dev.setSlack_envPrev (d : Dev) (m : Bool) (v : Slack) : (d.setSlack m v).envPrev = d.envPrev := rfl
@[simp] theorem Dev.setSlack_envCopies (d : Dev) (m : Bool) (v : Slack) : (d.setSlack m v).envCopies = d.envCopies := rfl
@[simp] theorem Dev.setSlack_stages (d : Dev) (m : Bool) (v : Slack) : (d.setSlack m v).stages = d.stages := rfl
@[simp] theorem Dev.setSlack_chans (d : Dev) (m : Bool) (v : Slack) : (d.setSlack m v).chans = d.chans := rfl
@[simp] theorem Dev.setSlack_chords (d : Dev) (m : Bool) (v : Slack) : (d.setSlack m v).chords = d.chords := rfl
@[simp] theorem Dev.setSlack_core (d : Dev) (m : Bool) (v : Slack) : (d.setSlack m v).core = d.core := rfl
@[simp] theorem Dev.setSlack_acq (d : Dev) (m : Bool) (v : Slack) : (d.setSlack m v).acq = d.acq := rfl
@[simp] theorem Dev.setSlack_cal (d : Dev) (m : Bool) (v : Slack) : (d.setSlack m v).cal = d.cal := rfl
@[simp] theorem Dev.setSlack_tim (d : Dev) (m : Bool) (v : Slack) : (d.setSlack m v).tim = d.tim := rfl
@[simp] theorem Dev.setSlack_marker (d : Dev) (m : Bool) (v : Slack) : (d.setSlack m v).marker = d.marker := rfl
@[simp] theorem Dev.setSlack_bench (d : Dev) (m : Bool) (v : Slack) : (d.setSlack m v).bench = d.bench := rfl
@[simp] theorem Dev.setSlack_links (d : Dev) (m : Bool) (v : Slack) : (d.setSlack m v).links = d.links := rfl
@[simp] theorem Dev.setSlack_domain (d : Dev) (m : Bool) (v : Slack) : (d.setSlack m v).domain = d.domain := rfl
@[simp] theorem Dev.setSlack_mirror (d : Dev) (m : Bool) (v : Slack) : (d.setSlack m v).mirror = d.mirror := rfl
@[simp] theorem Dev.setSlack_thermal (d : Dev) (m : Bool) (v : Slack) : (d.setSlack m v).thermal = d.thermal := rfl
@[simp] theorem Dev.setSlack_house (d : Dev) (m : Bool) (v : Slack) : (d.setSlack m v).house = d.house := rfl
@[simp] theorem Dev.setSlack_images (d : Dev) (m : Bool) (v : Slack) : (d.setSlack m v).images = d.images := rfl
@[simp] theorem Dev.setSlack_ledger (d : Dev) (m : Bool) (v : Slack) : (d.setSlack m v).ledger = d.ledger := rfl
@[simp] theorem Dev.setSlack_last (d : Dev) (m : Bool) (v : Slack) : (d.setSlack m v).last = d.last := rfl
@[simp] theorem Dev.setSlack_hostBad (d : Dev) (m : Bool) (v : Slack) : (d.setSlack m v).hostBad = d.hostBad := rfl
@[simp] theorem Dev.setSlack_eccLines (d : Dev) (m : Bool) (v : Slack) : (d.setSlack m v).eccLines = d.eccLines := rfl
@[simp] theorem Dev.setSlack_fwBroken (d : Dev) (m : Bool) (v : Slack) : (d.setSlack m v).fwBroken = d.fwBroken := rfl
@[simp] theorem Dev.setSlack_pcie (d : Dev) (m : Bool) (v : Slack) : (d.setSlack m v).pcie = d.pcie := rfl
@[simp] theorem Dev.setSlack_readData (d : Dev) (m : Bool) (v : Slack) : (d.setSlack m v).readData = d.readData := rfl
@[simp] theorem Dev.setSlack_freeCtr (d : Dev) (m : Bool) (v : Slack) : (d.setSlack m v).freeCtr = d.freeCtr := rfl
@[simp] theorem Dev.setSlack_wr (d : Dev) (m : Bool) (v : Slack) : (d.setSlack m v).wr = d.wr := rfl

/-! `putCmd`. -/
@[simp] theorem putCmd_hif (d : Dev) (c : Cmd) : (putCmd c d).hif = d.hif := rfl
@[simp] theorem putCmd_time (d : Dev) (c : Cmd) : (putCmd c d).time = d.time := rfl
@[simp] theorem putCmd_mbs (d : Dev) (c : Cmd) : (putCmd c d).mbs = d.mbs := rfl
@[simp] theorem putCmd_slots (d : Dev) (c : Cmd) : (putCmd c d).slots = d.slots := rfl
@[simp] theorem putCmd_bells (d : Dev) (c : Cmd) : (putCmd c d).bells = d.bells := rfl
@[simp] theorem putCmd_dma (d : Dev) (c : Cmd) : (putCmd c d).dma = d.dma := rfl
@[simp] theorem putCmd_evt (d : Dev) (c : Cmd) : (putCmd c d).evt = d.evt := rfl
@[simp] theorem putCmd_lattice (d : Dev) (c : Cmd) : (putCmd c d).lattice = d.lattice := rfl
@[simp] theorem putCmd_slack (d : Dev) (c : Cmd) : (putCmd c d).slack = d.slack := rfl
@[simp] theorem putCmd_discards (d : Dev) (c : Cmd) : (putCmd c d).discards = d.discards := rfl
@[simp] theorem putCmd_discardTotal (d : Dev) (c : Cmd) : (putCmd c d).discardTotal = d.discardTotal := rfl
@[simp] theorem putCmd_ports (d : Dev) (c : Cmd) : (putCmd c d).ports = d.ports := rfl
@[simp] theorem putCmd_pages (d : Dev) (c : Cmd) : (putCmd c d).pages = d.pages := rfl
@[simp] theorem putCmd_env (d : Dev) (c : Cmd) : (putCmd c d).env = d.env := rfl
@[simp] theorem putCmd_envPrev (d : Dev) (c : Cmd) : (putCmd c d).envPrev = d.envPrev := rfl
@[simp] theorem putCmd_envCopies (d : Dev) (c : Cmd) : (putCmd c d).envCopies = d.envCopies := rfl
@[simp] theorem putCmd_stages (d : Dev) (c : Cmd) : (putCmd c d).stages = d.stages := rfl
@[simp] theorem putCmd_chans (d : Dev) (c : Cmd) : (putCmd c d).chans = d.chans := rfl
@[simp] theorem putCmd_chords (d : Dev) (c : Cmd) : (putCmd c d).chords = d.chords := rfl
@[simp] theorem putCmd_acq (d : Dev) (c : Cmd) : (putCmd c d).acq = d.acq := rfl
@[simp] theorem putCmd_cal (d : Dev) (c : Cmd) : (putCmd c d).cal = d.cal := rfl
@[simp] theorem putCmd_tim (d : Dev) (c : Cmd) : (putCmd c d).tim = d.tim := rfl
@[simp] theorem putCmd_marker (d : Dev) (c : Cmd) : (putCmd c d).marker = d.marker := rfl
@[simp] theorem putCmd_bench (d : Dev) (c : Cmd) : (putCmd c d).bench = d.bench := rfl
@[simp] theorem putCmd_links (d : Dev) (c : Cmd) : (putCmd c d).links = d.links := rfl
@[simp] theorem putCmd_domain (d : Dev) (c : Cmd) : (putCmd c d).domain = d.domain := rfl
@[simp] theorem putCmd_mirror (d : Dev) (c : Cmd) : (putCmd c d).mirror = d.mirror := rfl
@[simp] theorem putCmd_thermal (d : Dev) (c : Cmd) : (putCmd c d).thermal = d.thermal := rfl
@[simp] theorem putCmd_house (d : Dev) (c : Cmd) : (putCmd c d).house = d.house := rfl
@[simp] theorem putCmd_images (d : Dev) (c : Cmd) : (putCmd c d).images = d.images := rfl
@[simp] theorem putCmd_ledger (d : Dev) (c : Cmd) : (putCmd c d).ledger = d.ledger := rfl
@[simp] theorem putCmd_last (d : Dev) (c : Cmd) : (putCmd c d).last = d.last := rfl
@[simp] theorem putCmd_hostBad (d : Dev) (c : Cmd) : (putCmd c d).hostBad = d.hostBad := rfl
@[simp] theorem putCmd_eccLines (d : Dev) (c : Cmd) : (putCmd c d).eccLines = d.eccLines := rfl
@[simp] theorem putCmd_fwBroken (d : Dev) (c : Cmd) : (putCmd c d).fwBroken = d.fwBroken := rfl
@[simp] theorem putCmd_pcie (d : Dev) (c : Cmd) : (putCmd c d).pcie = d.pcie := rfl
@[simp] theorem putCmd_readData (d : Dev) (c : Cmd) : (putCmd c d).readData = d.readData := rfl
@[simp] theorem putCmd_freeCtr (d : Dev) (c : Cmd) : (putCmd c d).freeCtr = d.freeCtr := rfl
@[simp] theorem putCmd_wr (d : Dev) (c : Cmd) : (putCmd c d).wr = d.wr := rfl
@[simp] theorem putCmd_core_progMem (d : Dev) (c : Cmd) : (putCmd c d).core.progMem = d.core.progMem := rfl
@[simp] theorem putCmd_core_progs (d : Dev) (c : Cmd) : (putCmd c d).core.progs = d.core.progs := rfl
@[simp] theorem putCmd_core_loci (d : Dev) (c : Cmd) : (putCmd c d).core.loci = d.core.loci := rfl
@[simp] theorem putCmd_core_rays (d : Dev) (c : Cmd) : (putCmd c d).core.rays = d.core.rays := rfl
@[simp] theorem putCmd_core_frames (d : Dev) (c : Cmd) : (putCmd c d).core.frames = d.core.frames := rfl
@[simp] theorem putCmd_core_fabric (d : Dev) (c : Cmd) : (putCmd c d).core.fabric = d.core.fabric := rfl
@[simp] theorem putCmd_core_frameDefer (d : Dev) (c : Cmd) : (putCmd c d).core.frameDefer = d.core.frameDefer := rfl
@[simp] theorem putCmd_core_run (d : Dev) (c : Cmd) : (putCmd c d).core.run = d.core.run := rfl
@[simp] theorem putCmd_core_shots (d : Dev) (c : Cmd) : (putCmd c d).core.shots = d.core.shots := rfl
@[simp] theorem putCmd_core_statuses (d : Dev) (c : Cmd) : (putCmd c d).core.statuses = d.core.statuses := rfl
@[simp] theorem putCmd_core_tables (d : Dev) (c : Cmd) : (putCmd c d).core.tables = d.core.tables := rfl
@[simp] theorem putCmd_core_tablesPrev (d : Dev) (c : Cmd) : (putCmd c d).core.tablesPrev = d.core.tablesPrev := rfl
@[simp] theorem putCmd_core_exports (d : Dev) (c : Cmd) : (putCmd c d).core.exports = d.core.exports := rfl
@[simp] theorem putCmd_core_rps (d : Dev) (c : Cmd) : (putCmd c d).core.rps = d.core.rps := rfl
@[simp] theorem putCmd_core_nextSeq (d : Dev) (c : Cmd) : (putCmd c d).core.nextSeq = d.core.nextSeq := rfl
@[simp] theorem putCmd_core_pins (d : Dev) (c : Cmd) : (putCmd c d).core.pins = d.core.pins := rfl
@[simp] theorem putCmd_core_facets (d : Dev) (c : Cmd) : (putCmd c d).core.facets = d.core.facets := rfl
@[simp] theorem putCmd_core_resid (d : Dev) (c : Cmd) : (putCmd c d).core.resid = d.core.resid := rfl
@[simp] theorem putCmd_core_due (d : Dev) (c : Cmd) : (putCmd c d).core.due = d.core.due := rfl

/-! `hostWrite`. -/
@[simp] theorem hostWrite_hif (d : Dev) (a : Nat) (bs : List Byte) : (hostWrite a bs d).hif = d.hif := rfl
@[simp] theorem hostWrite_time (d : Dev) (a : Nat) (bs : List Byte) : (hostWrite a bs d).time = d.time := rfl
@[simp] theorem hostWrite_mbs (d : Dev) (a : Nat) (bs : List Byte) : (hostWrite a bs d).mbs = d.mbs := rfl
@[simp] theorem hostWrite_slots (d : Dev) (a : Nat) (bs : List Byte) : (hostWrite a bs d).slots = d.slots := rfl
@[simp] theorem hostWrite_bells (d : Dev) (a : Nat) (bs : List Byte) : (hostWrite a bs d).bells = d.bells := rfl
@[simp] theorem hostWrite_dma (d : Dev) (a : Nat) (bs : List Byte) : (hostWrite a bs d).dma = d.dma := rfl
@[simp] theorem hostWrite_evt (d : Dev) (a : Nat) (bs : List Byte) : (hostWrite a bs d).evt = d.evt := rfl
@[simp] theorem hostWrite_lattice (d : Dev) (a : Nat) (bs : List Byte) : (hostWrite a bs d).lattice = d.lattice := rfl
@[simp] theorem hostWrite_slack (d : Dev) (a : Nat) (bs : List Byte) : (hostWrite a bs d).slack = d.slack := rfl
@[simp] theorem hostWrite_discards (d : Dev) (a : Nat) (bs : List Byte) : (hostWrite a bs d).discards = d.discards := rfl
@[simp] theorem hostWrite_discardTotal (d : Dev) (a : Nat) (bs : List Byte) : (hostWrite a bs d).discardTotal = d.discardTotal := rfl
@[simp] theorem hostWrite_ports (d : Dev) (a : Nat) (bs : List Byte) : (hostWrite a bs d).ports = d.ports := rfl
@[simp] theorem hostWrite_pages (d : Dev) (a : Nat) (bs : List Byte) : (hostWrite a bs d).pages = d.pages := rfl
@[simp] theorem hostWrite_env (d : Dev) (a : Nat) (bs : List Byte) : (hostWrite a bs d).env = d.env := rfl
@[simp] theorem hostWrite_envPrev (d : Dev) (a : Nat) (bs : List Byte) : (hostWrite a bs d).envPrev = d.envPrev := rfl
@[simp] theorem hostWrite_envCopies (d : Dev) (a : Nat) (bs : List Byte) : (hostWrite a bs d).envCopies = d.envCopies := rfl
@[simp] theorem hostWrite_stages (d : Dev) (a : Nat) (bs : List Byte) : (hostWrite a bs d).stages = d.stages := rfl
@[simp] theorem hostWrite_chans (d : Dev) (a : Nat) (bs : List Byte) : (hostWrite a bs d).chans = d.chans := rfl
@[simp] theorem hostWrite_chords (d : Dev) (a : Nat) (bs : List Byte) : (hostWrite a bs d).chords = d.chords := rfl
@[simp] theorem hostWrite_core (d : Dev) (a : Nat) (bs : List Byte) : (hostWrite a bs d).core = d.core := rfl
@[simp] theorem hostWrite_acq (d : Dev) (a : Nat) (bs : List Byte) : (hostWrite a bs d).acq = d.acq := rfl
@[simp] theorem hostWrite_cal (d : Dev) (a : Nat) (bs : List Byte) : (hostWrite a bs d).cal = d.cal := rfl
@[simp] theorem hostWrite_tim (d : Dev) (a : Nat) (bs : List Byte) : (hostWrite a bs d).tim = d.tim := rfl
@[simp] theorem hostWrite_marker (d : Dev) (a : Nat) (bs : List Byte) : (hostWrite a bs d).marker = d.marker := rfl
@[simp] theorem hostWrite_bench (d : Dev) (a : Nat) (bs : List Byte) : (hostWrite a bs d).bench = d.bench := rfl
@[simp] theorem hostWrite_links (d : Dev) (a : Nat) (bs : List Byte) : (hostWrite a bs d).links = d.links := rfl
@[simp] theorem hostWrite_domain (d : Dev) (a : Nat) (bs : List Byte) : (hostWrite a bs d).domain = d.domain := rfl
@[simp] theorem hostWrite_mirror (d : Dev) (a : Nat) (bs : List Byte) : (hostWrite a bs d).mirror = d.mirror := rfl
@[simp] theorem hostWrite_thermal (d : Dev) (a : Nat) (bs : List Byte) : (hostWrite a bs d).thermal = d.thermal := rfl
@[simp] theorem hostWrite_house (d : Dev) (a : Nat) (bs : List Byte) : (hostWrite a bs d).house = d.house := rfl
@[simp] theorem hostWrite_images (d : Dev) (a : Nat) (bs : List Byte) : (hostWrite a bs d).images = d.images := rfl
@[simp] theorem hostWrite_ledger (d : Dev) (a : Nat) (bs : List Byte) : (hostWrite a bs d).ledger = d.ledger := rfl
@[simp] theorem hostWrite_last (d : Dev) (a : Nat) (bs : List Byte) : (hostWrite a bs d).last = d.last := rfl
@[simp] theorem hostWrite_hostBad (d : Dev) (a : Nat) (bs : List Byte) : (hostWrite a bs d).hostBad = d.hostBad := rfl
@[simp] theorem hostWrite_eccLines (d : Dev) (a : Nat) (bs : List Byte) : (hostWrite a bs d).eccLines = d.eccLines := rfl
@[simp] theorem hostWrite_fwBroken (d : Dev) (a : Nat) (bs : List Byte) : (hostWrite a bs d).fwBroken = d.fwBroken := rfl
@[simp] theorem hostWrite_pcie (d : Dev) (a : Nat) (bs : List Byte) : (hostWrite a bs d).pcie = d.pcie := rfl
@[simp] theorem hostWrite_readData (d : Dev) (a : Nat) (bs : List Byte) : (hostWrite a bs d).readData = d.readData := rfl
@[simp] theorem hostWrite_freeCtr (d : Dev) (a : Nat) (bs : List Byte) : (hostWrite a bs d).freeCtr = d.freeCtr := rfl

/-! `ddrWrite`. -/
@[simp] theorem ddrWrite_hif (d : Dev) (a : Nat) (bs : List Byte) : (ddrWrite a bs d).hif = d.hif := rfl
@[simp] theorem ddrWrite_time (d : Dev) (a : Nat) (bs : List Byte) : (ddrWrite a bs d).time = d.time := rfl
@[simp] theorem ddrWrite_mbs (d : Dev) (a : Nat) (bs : List Byte) : (ddrWrite a bs d).mbs = d.mbs := rfl
@[simp] theorem ddrWrite_slots (d : Dev) (a : Nat) (bs : List Byte) : (ddrWrite a bs d).slots = d.slots := rfl
@[simp] theorem ddrWrite_bells (d : Dev) (a : Nat) (bs : List Byte) : (ddrWrite a bs d).bells = d.bells := rfl
@[simp] theorem ddrWrite_dma (d : Dev) (a : Nat) (bs : List Byte) : (ddrWrite a bs d).dma = d.dma := rfl
@[simp] theorem ddrWrite_evt (d : Dev) (a : Nat) (bs : List Byte) : (ddrWrite a bs d).evt = d.evt := rfl
@[simp] theorem ddrWrite_lattice (d : Dev) (a : Nat) (bs : List Byte) : (ddrWrite a bs d).lattice = d.lattice := rfl
@[simp] theorem ddrWrite_slack (d : Dev) (a : Nat) (bs : List Byte) : (ddrWrite a bs d).slack = d.slack := rfl
@[simp] theorem ddrWrite_discards (d : Dev) (a : Nat) (bs : List Byte) : (ddrWrite a bs d).discards = d.discards := rfl
@[simp] theorem ddrWrite_discardTotal (d : Dev) (a : Nat) (bs : List Byte) : (ddrWrite a bs d).discardTotal = d.discardTotal := rfl
@[simp] theorem ddrWrite_ports (d : Dev) (a : Nat) (bs : List Byte) : (ddrWrite a bs d).ports = d.ports := rfl
@[simp] theorem ddrWrite_pages (d : Dev) (a : Nat) (bs : List Byte) : (ddrWrite a bs d).pages = d.pages := rfl
@[simp] theorem ddrWrite_env (d : Dev) (a : Nat) (bs : List Byte) : (ddrWrite a bs d).env = d.env := rfl
@[simp] theorem ddrWrite_envPrev (d : Dev) (a : Nat) (bs : List Byte) : (ddrWrite a bs d).envPrev = d.envPrev := rfl
@[simp] theorem ddrWrite_envCopies (d : Dev) (a : Nat) (bs : List Byte) : (ddrWrite a bs d).envCopies = d.envCopies := rfl
@[simp] theorem ddrWrite_stages (d : Dev) (a : Nat) (bs : List Byte) : (ddrWrite a bs d).stages = d.stages := rfl
@[simp] theorem ddrWrite_chans (d : Dev) (a : Nat) (bs : List Byte) : (ddrWrite a bs d).chans = d.chans := rfl
@[simp] theorem ddrWrite_chords (d : Dev) (a : Nat) (bs : List Byte) : (ddrWrite a bs d).chords = d.chords := rfl
@[simp] theorem ddrWrite_core (d : Dev) (a : Nat) (bs : List Byte) : (ddrWrite a bs d).core = d.core := rfl
@[simp] theorem ddrWrite_acq (d : Dev) (a : Nat) (bs : List Byte) : (ddrWrite a bs d).acq = d.acq := rfl
@[simp] theorem ddrWrite_cal (d : Dev) (a : Nat) (bs : List Byte) : (ddrWrite a bs d).cal = d.cal := rfl
@[simp] theorem ddrWrite_tim (d : Dev) (a : Nat) (bs : List Byte) : (ddrWrite a bs d).tim = d.tim := rfl
@[simp] theorem ddrWrite_marker (d : Dev) (a : Nat) (bs : List Byte) : (ddrWrite a bs d).marker = d.marker := rfl
@[simp] theorem ddrWrite_bench (d : Dev) (a : Nat) (bs : List Byte) : (ddrWrite a bs d).bench = d.bench := rfl
@[simp] theorem ddrWrite_links (d : Dev) (a : Nat) (bs : List Byte) : (ddrWrite a bs d).links = d.links := rfl
@[simp] theorem ddrWrite_domain (d : Dev) (a : Nat) (bs : List Byte) : (ddrWrite a bs d).domain = d.domain := rfl
@[simp] theorem ddrWrite_mirror (d : Dev) (a : Nat) (bs : List Byte) : (ddrWrite a bs d).mirror = d.mirror := rfl
@[simp] theorem ddrWrite_thermal (d : Dev) (a : Nat) (bs : List Byte) : (ddrWrite a bs d).thermal = d.thermal := rfl
@[simp] theorem ddrWrite_house (d : Dev) (a : Nat) (bs : List Byte) : (ddrWrite a bs d).house = d.house := rfl
@[simp] theorem ddrWrite_images (d : Dev) (a : Nat) (bs : List Byte) : (ddrWrite a bs d).images = d.images := rfl
@[simp] theorem ddrWrite_ledger (d : Dev) (a : Nat) (bs : List Byte) : (ddrWrite a bs d).ledger = d.ledger := rfl
@[simp] theorem ddrWrite_last (d : Dev) (a : Nat) (bs : List Byte) : (ddrWrite a bs d).last = d.last := rfl
@[simp] theorem ddrWrite_hostBad (d : Dev) (a : Nat) (bs : List Byte) : (ddrWrite a bs d).hostBad = d.hostBad := rfl
@[simp] theorem ddrWrite_eccLines (d : Dev) (a : Nat) (bs : List Byte) : (ddrWrite a bs d).eccLines = d.eccLines := rfl
@[simp] theorem ddrWrite_fwBroken (d : Dev) (a : Nat) (bs : List Byte) : (ddrWrite a bs d).fwBroken = d.fwBroken := rfl
@[simp] theorem ddrWrite_pcie (d : Dev) (a : Nat) (bs : List Byte) : (ddrWrite a bs d).pcie = d.pcie := rfl
@[simp] theorem ddrWrite_readData (d : Dev) (a : Nat) (bs : List Byte) : (ddrWrite a bs d).readData = d.readData := rfl
@[simp] theorem ddrWrite_freeCtr (d : Dev) (a : Nat) (bs : List Byte) : (ddrWrite a bs d).freeCtr = d.freeCtr := rfl

/-! `advance`. -/
@[simp] theorem advance_hif (d : Dev) (n : Nat) : (advance n d).hif = d.hif := rfl
@[simp] theorem advance_mbs (d : Dev) (n : Nat) : (advance n d).mbs = d.mbs := rfl
@[simp] theorem advance_slots (d : Dev) (n : Nat) : (advance n d).slots = d.slots := rfl
@[simp] theorem advance_bells (d : Dev) (n : Nat) : (advance n d).bells = d.bells := rfl
@[simp] theorem advance_dma (d : Dev) (n : Nat) : (advance n d).dma = d.dma := rfl
@[simp] theorem advance_evt (d : Dev) (n : Nat) : (advance n d).evt = d.evt := rfl
@[simp] theorem advance_lattice (d : Dev) (n : Nat) : (advance n d).lattice = d.lattice := rfl
@[simp] theorem advance_slack (d : Dev) (n : Nat) : (advance n d).slack = d.slack := rfl
@[simp] theorem advance_discards (d : Dev) (n : Nat) : (advance n d).discards = d.discards := rfl
@[simp] theorem advance_discardTotal (d : Dev) (n : Nat) : (advance n d).discardTotal = d.discardTotal := rfl
@[simp] theorem advance_ports (d : Dev) (n : Nat) : (advance n d).ports = d.ports := rfl
@[simp] theorem advance_pages (d : Dev) (n : Nat) : (advance n d).pages = d.pages := rfl
@[simp] theorem advance_env (d : Dev) (n : Nat) : (advance n d).env = d.env := rfl
@[simp] theorem advance_envPrev (d : Dev) (n : Nat) : (advance n d).envPrev = d.envPrev := rfl
@[simp] theorem advance_envCopies (d : Dev) (n : Nat) : (advance n d).envCopies = d.envCopies := rfl
@[simp] theorem advance_stages (d : Dev) (n : Nat) : (advance n d).stages = d.stages := rfl
@[simp] theorem advance_chans (d : Dev) (n : Nat) : (advance n d).chans = d.chans := rfl
@[simp] theorem advance_chords (d : Dev) (n : Nat) : (advance n d).chords = d.chords := rfl
@[simp] theorem advance_core (d : Dev) (n : Nat) : (advance n d).core = d.core := rfl
@[simp] theorem advance_acq (d : Dev) (n : Nat) : (advance n d).acq = d.acq := rfl
@[simp] theorem advance_cal (d : Dev) (n : Nat) : (advance n d).cal = d.cal := rfl
@[simp] theorem advance_tim (d : Dev) (n : Nat) : (advance n d).tim = d.tim := rfl
@[simp] theorem advance_marker (d : Dev) (n : Nat) : (advance n d).marker = d.marker := rfl
@[simp] theorem advance_bench (d : Dev) (n : Nat) : (advance n d).bench = d.bench := rfl
@[simp] theorem advance_links (d : Dev) (n : Nat) : (advance n d).links = d.links := rfl
@[simp] theorem advance_domain (d : Dev) (n : Nat) : (advance n d).domain = d.domain := rfl
@[simp] theorem advance_mirror (d : Dev) (n : Nat) : (advance n d).mirror = d.mirror := rfl
@[simp] theorem advance_thermal (d : Dev) (n : Nat) : (advance n d).thermal = d.thermal := rfl
@[simp] theorem advance_house (d : Dev) (n : Nat) : (advance n d).house = d.house := rfl
@[simp] theorem advance_images (d : Dev) (n : Nat) : (advance n d).images = d.images := rfl
@[simp] theorem advance_ledger (d : Dev) (n : Nat) : (advance n d).ledger = d.ledger := rfl
@[simp] theorem advance_last (d : Dev) (n : Nat) : (advance n d).last = d.last := rfl
@[simp] theorem advance_hostBad (d : Dev) (n : Nat) : (advance n d).hostBad = d.hostBad := rfl
@[simp] theorem advance_eccLines (d : Dev) (n : Nat) : (advance n d).eccLines = d.eccLines := rfl
@[simp] theorem advance_fwBroken (d : Dev) (n : Nat) : (advance n d).fwBroken = d.fwBroken := rfl
@[simp] theorem advance_pcie (d : Dev) (n : Nat) : (advance n d).pcie = d.pcie := rfl
@[simp] theorem advance_readData (d : Dev) (n : Nat) : (advance n d).readData = d.readData := rfl
@[simp] theorem advance_freeCtr (d : Dev) (n : Nat) : (advance n d).freeCtr = d.freeCtr := rfl
@[simp] theorem advance_wr (d : Dev) (n : Nat) : (advance n d).wr = d.wr := rfl

/-! `paced`. -/
@[simp] theorem paced_hif (p : Pace) (d : Dev) : (paced p d).hif = d.hif := rfl
@[simp] theorem paced_mbs (p : Pace) (d : Dev) : (paced p d).mbs = d.mbs := rfl
@[simp] theorem paced_slots (p : Pace) (d : Dev) : (paced p d).slots = d.slots := rfl
@[simp] theorem paced_bells (p : Pace) (d : Dev) : (paced p d).bells = d.bells := rfl
@[simp] theorem paced_dma (p : Pace) (d : Dev) : (paced p d).dma = d.dma := rfl
@[simp] theorem paced_evt (p : Pace) (d : Dev) : (paced p d).evt = d.evt := rfl
@[simp] theorem paced_lattice (p : Pace) (d : Dev) : (paced p d).lattice = d.lattice := rfl
@[simp] theorem paced_slack (p : Pace) (d : Dev) : (paced p d).slack = d.slack := rfl
@[simp] theorem paced_discards (p : Pace) (d : Dev) : (paced p d).discards = d.discards := rfl
@[simp] theorem paced_discardTotal (p : Pace) (d : Dev) : (paced p d).discardTotal = d.discardTotal := rfl
@[simp] theorem paced_ports (p : Pace) (d : Dev) : (paced p d).ports = d.ports := rfl
@[simp] theorem paced_pages (p : Pace) (d : Dev) : (paced p d).pages = d.pages := rfl
@[simp] theorem paced_env (p : Pace) (d : Dev) : (paced p d).env = d.env := rfl
@[simp] theorem paced_envPrev (p : Pace) (d : Dev) : (paced p d).envPrev = d.envPrev := rfl
@[simp] theorem paced_envCopies (p : Pace) (d : Dev) : (paced p d).envCopies = d.envCopies := rfl
@[simp] theorem paced_stages (p : Pace) (d : Dev) : (paced p d).stages = d.stages := rfl
@[simp] theorem paced_chans (p : Pace) (d : Dev) : (paced p d).chans = d.chans := rfl
@[simp] theorem paced_chords (p : Pace) (d : Dev) : (paced p d).chords = d.chords := rfl
@[simp] theorem paced_core (p : Pace) (d : Dev) : (paced p d).core = d.core := rfl
@[simp] theorem paced_acq (p : Pace) (d : Dev) : (paced p d).acq = d.acq := rfl
@[simp] theorem paced_cal (p : Pace) (d : Dev) : (paced p d).cal = d.cal := rfl
@[simp] theorem paced_tim (p : Pace) (d : Dev) : (paced p d).tim = d.tim := rfl
@[simp] theorem paced_marker (p : Pace) (d : Dev) : (paced p d).marker = d.marker := rfl
@[simp] theorem paced_bench (p : Pace) (d : Dev) : (paced p d).bench = d.bench := rfl
@[simp] theorem paced_links (p : Pace) (d : Dev) : (paced p d).links = d.links := rfl
@[simp] theorem paced_domain (p : Pace) (d : Dev) : (paced p d).domain = d.domain := rfl
@[simp] theorem paced_mirror (p : Pace) (d : Dev) : (paced p d).mirror = d.mirror := rfl
@[simp] theorem paced_thermal (p : Pace) (d : Dev) : (paced p d).thermal = d.thermal := rfl
@[simp] theorem paced_house (p : Pace) (d : Dev) : (paced p d).house = d.house := rfl
@[simp] theorem paced_images (p : Pace) (d : Dev) : (paced p d).images = d.images := rfl
@[simp] theorem paced_ledger (p : Pace) (d : Dev) : (paced p d).ledger = d.ledger := rfl
@[simp] theorem paced_hostBad (p : Pace) (d : Dev) : (paced p d).hostBad = d.hostBad := rfl
@[simp] theorem paced_eccLines (p : Pace) (d : Dev) : (paced p d).eccLines = d.eccLines := rfl
@[simp] theorem paced_fwBroken (p : Pace) (d : Dev) : (paced p d).fwBroken = d.fwBroken := rfl
@[simp] theorem paced_pcie (p : Pace) (d : Dev) : (paced p d).pcie = d.pcie := rfl
@[simp] theorem paced_readData (p : Pace) (d : Dev) : (paced p d).readData = d.readData := rfl
@[simp] theorem paced_freeCtr (p : Pace) (d : Dev) : (paced p d).freeCtr = d.freeCtr := rfl
@[simp] theorem paced_wr (p : Pace) (d : Dev) : (paced p d).wr = d.wr := rfl

end Sys2Proof.Machine
end

