-- ==== Sys2Proof/Laws/Commands.lean ====
section
/-! SUPPORT. What a mailbox row can do, and what the end of a command may change. -/

namespace Sys2Proof.Machine

/-- Two operations that agree on a state's device give one next state. -/
theorem State.on_congr {s : State} {f g : Ctx → Dev → Dev} (h : f s.ctx s.dev = g s.ctx s.dev) : s.on f = s.on g := by
  unfold State.on
  rw [show f ⟨s.fuse, s.ddr, s.host⟩ s.dev = g ⟨s.fuse, s.ddr, s.host⟩ s.dev from h]

theorem firstFault_none {sp : CmdSpec} {c0 : Cmd} {x : Ctx} {d : Dev} (h : firstFault sp c0 x d = none) :
    headerFail d c0 = none ∧ sp.len (c0.begin x) = true ∧ sp.check x (c0.begin x) d = none := by
  unfold firstFault at h
  split at h
  · cases h
  · split at h
    · exact ⟨‹_›, ‹_›, h⟩
    · cases h

theorem checked_some {sp : CmdSpec} {c0 c : Cmd} {x : Ctx} {d : Dev} (h : checked sp c0 x d = some c) :
    c = c0.begin x ∧ firstFault sp c0 x d = none ∧ d.fwBroken = false := by
  unfold checked at h
  split at h
  · rename_i hg
    simp only [Bool.and_eq_true, Option.isNone_iff_eq_none, Bool.not_eq_true'] at hg
    exact ⟨(Option.some.inj h).symm, hg⟩
  · cases h

/-- A command that passes its checks has its effect, standing in the list of unfinished commands. -/
theorem beginCmd_checked {sp : CmdSpec} {c0 c : Cmd} {x : Ctx} {d : Dev} (h : checked sp c0 x d = some c) :
    beginCmd sp c0 x d = journal c.seq (sp.act x c) (putCmd c d) := by
  obtain ⟨rfl, hf, hb⟩ := checked_some h
  obtain ⟨hh, hl, hc⟩ := firstFault_none hf
  simp only [Cmd.begin] at hl hc ⊢
  simp [beginCmd, hh, hl, hc, hb]

/-- A command that fails a check ends with that failure. -/
theorem beginCmd_firstFault {sp : CmdSpec} {c0 : Cmd} {f : Fail} {x : Ctx} {d : Dev} (h : firstFault sp c0 x d = some f) :
    ∃ c, c.seq = c0.seq ∧ c.mb = c0.mb ∧ beginCmd sp c0 x d = failCmd c f d := by
  unfold firstFault at h
  split at h
  · obtain rfl := Option.some.inj h
    exact ⟨c0, rfl, rfl, by simp [beginCmd, *]⟩
  · refine ⟨c0.begin x, rfl, rfl, ?_⟩
    split at h
    all_goals simp only [Cmd.begin, Option.some.injEq] at *
    · simp [beginCmd, *]
    · simp [beginCmd, *]

theorem runCmd_passing {sp : CmdSpec} {mb : Nat} {c : Cmd} {x : Ctx} {d : Dev} (h : passing sp mb x d = some c) :
    runCmd sp mb x d = journal c.seq (sp.act x c) (putCmd c d) := by
  unfold passing at h
  unfold runCmd
  generalize nextCmd d mb = q at h ⊢
  cases q with
  | none => cases h
  | some c0 =>
    change (if c0.op = sp.op then checked sp c0 x d else none) = some c at h
    change (if c0.op = sp.op then beginCmd sp c0 x d else d) = journal c.seq (sp.act x c) (putCmd c d)
    by_cases ho : c0.op = sp.op
    · rw [if_pos ho] at h ⊢
      exact beginCmd_checked h
    · rw [if_neg ho] at h
      cases h

/-- A mailbox row whose command passes its checks has that command's effect. -/
theorem cmdRow_begins {sp : CmdSpec} {mb : Nat} {h : HostSide} {s : State} {c : Cmd} (hb : s.begins sp mb h = some c) :
    cmdRow sp mb h s = .next (s.during h c (fun x d => sp.act x c d)) := by
  unfold cmdRow State.during
  congr 1
  exact State.on_congr (runCmd_passing hb)

/-! The journal of effects on shared blocks. -/

/-- Keeping what a command has changed adds at most to the journal. -/
theorem noteUndo_frame (seq : Nat) (b : Shared) (d : Dev) :
    ∃ us, noteUndo seq b d = { d with mirror := { d.mirror with undo := us } } := by
  unfold noteUndo
  simp only
  split
  · exact ⟨d.mirror.undo, rfl⟩
  · exact ⟨_, rfl⟩

/-- An effect kept in the journal is that effect, but for the journal itself. -/
theorem journal_frame (seq : Nat) (f : Dev → Dev) (d : Dev) :
    ∃ us, journal seq f d = { f d with mirror := { (f d).mirror with undo := us } } := noteUndo_frame seq (sharedOf d) (f d)

/-- An effect that changes no shared block is not kept. -/
theorem journal_same {seq : Nat} {f : Dev → Dev} {d : Dev} (h : sharedOf (f d) = sharedOf d) : journal seq f d = f d := by
  simp [journal, noteUndo, h]

@[simp] theorem journal_wr (seq : Nat) (f : Dev → Dev) (d : Dev) : (journal seq f d).wr = (f d).wr := by
  obtain ⟨us, h⟩ := journal_frame seq f d; rw [h]
@[simp] theorem journal_core (seq : Nat) (f : Dev → Dev) (d : Dev) : (journal seq f d).core = (f d).core := by
  obtain ⟨us, h⟩ := journal_frame seq f d; rw [h]
@[simp] theorem journal_mbs (seq : Nat) (f : Dev → Dev) (d : Dev) : (journal seq f d).mbs = (f d).mbs := by
  obtain ⟨us, h⟩ := journal_frame seq f d; rw [h]
@[simp] theorem journal_evt (seq : Nat) (f : Dev → Dev) (d : Dev) : (journal seq f d).evt = (f d).evt := by
  obtain ⟨us, h⟩ := journal_frame seq f d; rw [h]
@[simp] theorem journal_hif (seq : Nat) (f : Dev → Dev) (d : Dev) : (journal seq f d).hif = (f d).hif := by
  obtain ⟨us, h⟩ := journal_frame seq f d; rw [h]
@[simp] theorem journal_time (seq : Nat) (f : Dev → Dev) (d : Dev) : (journal seq f d).time = (f d).time := by
  obtain ⟨us, h⟩ := journal_frame seq f d; rw [h]
@[simp] theorem journal_ports (seq : Nat) (f : Dev → Dev) (d : Dev) : (journal seq f d).ports = (f d).ports := by
  obtain ⟨us, h⟩ := journal_frame seq f d; rw [h]
@[simp] theorem journal_chans (seq : Nat) (f : Dev → Dev) (d : Dev) : (journal seq f d).chans = (f d).chans := by
  obtain ⟨us, h⟩ := journal_frame seq f d; rw [h]
@[simp] theorem journal_lattice (seq : Nat) (f : Dev → Dev) (d : Dev) : (journal seq f d).lattice = (f d).lattice := by
  obtain ⟨us, h⟩ := journal_frame seq f d; rw [h]
@[simp] theorem journal_acq (seq : Nat) (f : Dev → Dev) (d : Dev) : (journal seq f d).acq = (f d).acq := by
  obtain ⟨us, h⟩ := journal_frame seq f d; rw [h]
@[simp] theorem journal_links (seq : Nat) (f : Dev → Dev) (d : Dev) : (journal seq f d).links = (f d).links := by
  obtain ⟨us, h⟩ := journal_frame seq f d; rw [h]

/-! What reports may change. -/

/-- `d'` differs from `d` in reports only, and queues only host writes more. -/
def Reports (d d' : Dev) : Prop := OnlyReports d d' ∧ ∃ ws, d'.wr = d.wr ++ ws ∧ HostOnly ws

theorem Reports.refl (d : Dev) : Reports d d := ⟨rfl, [], by simp, by simp [HostOnly]⟩

theorem Reports.trans {d e f : Dev} (h1 : Reports d e) (h2 : Reports e f) : Reports d f := by
  obtain ⟨h1, ws, hw, ho⟩ := h1
  obtain ⟨h2, vs, hv, hp⟩ := h2
  refine ⟨?_, ws ++ vs, by rw [hv, hw, List.append_assoc], ?_⟩
  · unfold OnlyReports at *
    rw [h2, h1]
  · intro w hm
    rcases List.mem_append.mp hm with h | h
    · exact ho w h
    · exact hp w h

theorem HostOnly.single (a : Nat) (bs : List Byte) : HostOnly [.host a bs] := by
  intro w h
  simp only [List.mem_singleton] at h
  exact ⟨a, bs, h⟩

/-- An update of reports that queues nothing. -/
theorem Reports.quiet {d d' : Dev} (h : OnlyReports d d') (hw : d'.wr = d.wr) : Reports d d' :=
  ⟨h, [], by simp [hw], by simp [HostOnly]⟩

/-- Reports made after such an update. -/
theorem Reports.after {d e f : Dev} (hr : Reports e f) (h : OnlyReports d e) (hw : e.wr = d.wr) : Reports d f :=
  Reports.trans (Reports.quiet h hw) hr

theorem reports_hostWrite (a : Nat) (bs : List Byte) (d : Dev) : Reports d (hostWrite a bs d) := ⟨rfl, _, rfl, HostOnly.single a bs⟩

theorem reports_setMb (d : Dev) (m : Nat) (b : Mailbox) : Reports d (d.setMb m b) := Reports.quiet rfl rfl

theorem reports_sendMessage (v : Nat) (d : Dev) : Reports d (sendMessage v d) := by
  refine ⟨rfl, ?_⟩
  change ∃ ws, (if (Store.get {} d.evt.msix v).mask || !d.hif.linkUp then d.wr else _) = _ ∧ _
  split
  · exact ⟨[], by simp, by simp [HostOnly]⟩
  · exact ⟨_, rfl, HostOnly.single _ _⟩

theorem reports_raiseQuiet (src : Nat) (d : Dev) : Reports d (raiseQuiet src d) := by
  unfold raiseQuiet
  simp only
  split
  · exact Reports.after (reports_sendMessage _ _) rfl rfl
  · exact Reports.quiet rfl rfl

theorem reports_raise (r : Raise) (d : Dev) : Reports d (raise r d) := by
  unfold raise loseRecord
  split
  · exact reports_raiseQuiet _ _
  · split
    · exact Reports.quiet rfl rfl
    · exact Reports.after (Reports.trans (reports_raiseQuiet 41 _) (reports_raiseQuiet _ _)) rfl rfl

theorem reports_event (src inst arg : Nat) (d : Dev) : Reports d (event src inst arg d) := reports_raise _ _

theorem reports_publish (r : Report) (d : Dev) : Reports d (publish r d) :=
  Reports.after (reports_event _ _ _ _) rfl rfl

theorem reports_postNow (m : Nat) (k : Completion) (d : Dev) : Reports d (postNow m k d) := by
  unfold postNow
  refine Reports.trans (Reports.trans (Reports.trans ?_ (reports_hostWrite _ _ _)) (reports_setMb _ _ _)) (reports_raiseQuiet _ _)
  split
  · exact Reports.refl d
  · exact reports_hostWrite _ _ _

theorem reports_deliver (m : Nat) (k : Completion) (d : Dev) : Reports d (deliver m k d) := by
  unfold deliver
  split
  · exact reports_postNow _ _ _
  · exact reports_setMb _ _ _

theorem reports_foldl {α : Type} (f : Dev → α → Dev) (hf : ∀ d a, Reports d (f d a)) (xs : List α) (d : Dev) :
    Reports d (xs.foldl f d) := by
  induction xs generalizing d with
  | nil => exact Reports.refl d
  | cons a xs ih => exact Reports.trans (hf d a) (ih _)

theorem reports_settleFlrs (d : Dev) : Reports d (settleFlrs d) :=
  Reports.after (reports_foldl _ (fun d _ => reports_publish _ d) _ _) rfl rfl

theorem reports_finishWith (c : Cmd) (k : Completion) (d : Dev) : Reports d (finishWith c k d) := by
  unfold finishWith
  simp only
  split
  · exact Reports.after (reports_settleFlrs _) rfl rfl
  · exact Reports.after (reports_deliver _ _ _) rfl rfl

theorem reports_failCmd (c : Cmd) (f : Fail) (d : Dev) : Reports d (failCmd c f d) := reports_finishWith _ _ _

theorem reports_okCmd (c : Cmd) (status imm : Nat) (result : List Byte) (reads : Bool) (d : Dev) :
    Reports d (okCmd c status imm result reads d) := reports_finishWith _ _ _

theorem reports_doneCmd (c : Cmd) (status : Nat) (d : Dev) : Reports d (doneCmd c status d) := reports_finishWith _ _ _

theorem reports_replyCmd (c : Cmd) (status : Nat) (result : List Byte) (d : Dev) : Reports d (replyCmd c status result d) :=
  reports_finishWith _ _ _

/-- Host writes leave DDR5 alone. -/
theorem foldl_ddrAfter_hostOnly {ws : List MemWrite} (h : HostOnly ws) (m : Mem) : ws.foldl ddrAfter m = m := by
  induction ws with
  | nil => rfl
  | cons w ws ih =>
    obtain ⟨a, bs, rfl⟩ := h w (by simp)
    exact ih (fun v hv => h v (by simp [hv]))

/-- Where the journal is empty a failure undoes nothing: shared blocks only stop waiting for the commands that are gone. -/
theorem undoCommands_nil {gone : Nat → Bool} {d : Dev} (h : d.mirror.undo = []) : undoCommands gone d = forget gone d := by
  unfold undoCommands
  rw [h]
  change forget gone { d with mirror := { d.mirror with undo := [] } } = forget gone d
  rw [← h]

/-- Ending the waits for them changes nothing of the mirror core. -/
theorem forget_mirror (gone : Nat → Bool) (d : Dev) : (forget gone d).mirror = d.mirror := rfl

end Sys2Proof.Machine
end

