-- ==== Sys2Proof/Laws/Completions.lean ====
section
/-! SUPPORT. What posting, delivering and ending do to the list of unfinished commands and to a mailbox's ring. -/

namespace Sys2Proof.Machine

@[simp] theorem sendMessage_core (v : Nat) (d : Dev) : (sendMessage v d).core = d.core := rfl

@[simp] theorem raiseQuiet_core (src : Nat) (d : Dev) : (raiseQuiet src d).core = d.core := by
  unfold raiseQuiet; simp only; split <;> simp

@[simp] theorem raise_core (r : Raise) (d : Dev) : (raise r d).core = d.core := by
  unfold raise loseRecord
  split
  · simp
  · split <;> simp

@[simp] theorem event_core (src inst arg : Nat) (d : Dev) : (event src inst arg d).core = d.core := by simp [event]

@[simp] theorem publish_core (r : Report) (d : Dev) : (publish r d).core = d.core := by simp [publish]

@[simp] theorem postNow_core (m : Nat) (k : Completion) (d : Dev) : (postNow m k d).core = d.core := by
  unfold postNow; simp only; split <;> simp

@[simp] theorem deliver_core (m : Nat) (k : Completion) (d : Dev) : (deliver m k d).core = d.core := by
  unfold deliver; split <;> simp

theorem foldl_core {α : Type} (f : Dev → α → Dev) (hf : ∀ d a, (f d a).core = d.core) (xs : List α) (d : Dev) :
    (xs.foldl f d).core = d.core := by
  induction xs generalizing d with
  | nil => rfl
  | cons a xs ih => exact (ih _).trans (hf d a)

@[simp] theorem settleFlrs_core (d : Dev) : (settleFlrs d).core = d.core := by
  unfold settleFlrs
  exact foldl_core _ (fun d f => by simp [publishFlr]) _ _

/-- A command that ends leaves the list of unfinished commands. -/
@[simp] theorem finishWith_cmds (c : Cmd) (k : Completion) (d : Dev) :
    (finishWith c k d).core.cmds = d.core.cmds.filter (fun q => q.seq ≠ c.seq) := by
  unfold finishWith
  simp only
  split <;> simp [flrEnded]

@[simp] theorem failCmd_cmds (c : Cmd) (f : Fail) (d : Dev) :
    (failCmd c f d).core.cmds = d.core.cmds.filter (fun q => q.seq ≠ c.seq) := finishWith_cmds _ _ _

/-- A raise of a disabled source only sets its pending bit. -/
theorem raiseQuiet_disabled {src : Nat} {d : Dev} (h : d.evt.en.getLsbD src = false) :
    raiseQuiet src d = { d with evt := { d.evt with pend := d.evt.pend ||| srcBit src } } := by
  simp [raiseQuiet, h]

/-- An entry is 32 bytes. -/
@[simp] theorem entryBytes_length (core : Bool) (k : Completion) (status len : Nat) : (entryBytes core k status len).length = 32 := by
  simp [entryBytes]

/-- Posting with no result buffer and the mailbox's source disabled. -/
theorem postNow_plain {m : Nat} {k : Completion} {d : Dev} (hr : k.raddr = 0) (he : d.evt.en.getLsbD m = false) :
    postNow m k d =
      let b := d.mb m
      { (hostWrite (b.base.toNat + 32 * (b.head.toNat % 2 ^ b.log2.toNat)) (entryBytes d.hif.core k k.status 0) d).setMb m
          { b with head := b.head + 1, done := b.done + 1, busy := b.busy.erase k.slot } with
        evt := { d.evt with pend := d.evt.pend ||| srcBit m } } := by
  have hw : k.want = 0 := by simp [Completion.want, hr]
  have hw2 : k.wrote d = 0 := by simp [Completion.wrote, hw]
  have hp : k.posted d = k.status := by simp [Completion.posted, hw, hr]
  unfold postNow
  simp only [hw2, if_true, hp]
  rw [raiseQuiet_disabled (by simpa [hostWrite, Dev.setMb] using he)]
  rfl

/-- A completion that must come after no other one is ready unless its epoch holds it back. -/
theorem readyToPost_plain {k : Completion} {d : Dev} (hk : k.waitsEpoch = false) (ha : k.after = []) : readyToPost d k = true := by
  simp [readyToPost, hk, ha]

/-- With room, the link up and nothing held, a completion that is ready is posted at once. -/
theorem deliver_posts {m : Nat} {k : Completion} {d : Dev} (hk : readyToPost d k = true) (hp : canPost d m = true)
    (hh : (d.mb m).held = []) : deliver m k d = postNow m k d := by
  simp [deliver, hk, hp, hh]

end Sys2Proof.Machine
end

