-- ==== Sys2Proof/Laws/Exec.lean ====
section
/-! SUPPORT. What executing one command can do to a state: a device operation on it, after the host's side of memory where the
row has one. -/

namespace Sys2Proof.Machine

/-- The two shapes an executed command has. -/
inductive ExecForm (s : State) : Host.Outcome State Fault Refusal → Prop
  | plain (f : Ctx → Dev → Dev) : ExecForm s (.next (s.on f))
  | synced (h : HostSide) (f : Ctx → Dev → Dev) : ExecForm s (.next ((s.sync h).on f))

set_option maxRecDepth 4000 in
/-- Every command has one of them. -/
theorem exec_form (c : Instr) (s : State) : ExecForm s (exec c s) := by
  cases c <;> (conv => arg 2; whnf) <;> with_reducible first | exact .plain _ | exact .synced _ _

end Sys2Proof.Machine
end

