-- ==== Sys2Proof/Tests/Slice0.lean ====
section
/-! SUPPORT. Tests of the model's author: each check of WellFormed refuses an ill-formed term, and for every statement with
hypotheses concrete states and operands meet them, clause by clause. -/

set_option maxRecDepth 10000

namespace Sys2Proof.Tests

open Sys2Proof Sys2Proof.Machine

/-! States the witnesses stand on. -/

/-- A device that firmware has declared ready, its link up and its PLL locked; mailbox 0 has slot 0 in use. -/
def dev0 : Dev := {
  hif := { state := .ready, lock := true, linkUp := true, orfWarm := true, ilLow := 7, ilHigh := 9, ddrGib := 32, ddrResv := 4 }
  time := { lat := 1000000, counting := true, raw := 1000000 }
  mbs := [(0, { enable := true, log2 := 4, busy := [0] })]
  images := { inReset := false } }

/-- That device as `f` changes it, with empty memories. -/
def on (f : Dev → Dev) : State := { ({} : State) with dev := f dev0 }

/-- Payload fields: size and value. -/
def fields (fs : List (Nat × Nat)) : List Byte := fs.flatMap fun f => le f.1 f.2

/-- The 128 bytes of a slot (R65); `bulk` payloads stand at host address 4096 (R68). -/
def slotOf (op : Nat) (bulk : Bool) (payload : List Byte) : List Byte :=
  let n := payload.length
  let head := le 2 op ++ le 1 7 ++ le 1 (if bulk then 1 else 0) ++ le 4 1 ++ le 4 n
  if bulk then head ++ le 1 1 ++ zeros 19 ++ le 8 4096 ++ zeros 8 ++ le 4 n ++ zeros 76 else head ++ zeros 20 ++ payload ++ zeros (96 - n)

/-- An accepted command of mailbox 0 that has not begun. -/
def waits (op : Nat) (bulk : Bool) (payload : List Byte) : Cmd := { seq := 9, bytes := slotOf op bulk payload }

/-- A state in which mailbox 0 has that command to begin, on a device as `f` leaves it. -/
def asks (op : Nat) (payload : List Byte) (f : Dev → Dev := id) : State :=
  let d := f dev0
  { ({} : State) with dev := { d with core := { d.core with cmds := [waits op false payload], nextSeq := 10 } } }

/-- The same with a bulk payload. -/
def asksBulk (op : Nat) (payload : List Byte) (f : Dev → Dev := id) : State :=
  let d := f dev0
  { ({} : State) with
    host := Mem.write [] 4096 payload
    dev := { d with core := { d.core with cmds := [waits op true payload], nextSeq := 10 } } }

/-- Mailbox 0 begins the command on `s`, every check of R83 passed, and the command is as `p` says. -/
def starts (sp : CmdSpec) (s : State) (p : Cmd → Bool := fun _ => true) : Bool := (s.begins sp 0 {}).any p

/-- A device that runs a program. -/
def runs (d : Dev) : Dev := { d with core := { d.core with
  progs := [(0, some { base := 0, words := 2, margin := 0, rays := [(0, 0)], barriers := [] })]
  run := { active := true, everRun := true, shots := 4, next := 1020000, period := 20000, m0 := 1020000 } } }

/-- A command that has begun and not ended. -/
def begun (op seq : Nat) (payload : List Byte := []) : Cmd := { seq := seq, bytes := slotOf op false payload, payload := payload, begun := true }

/-- The device with that command unfinished. -/
def holds (op seq : Nat) (payload : List Byte := []) (d : Dev) : Dev := { d with core := { d.core with cmds := [begun op seq payload] } }

/-! WellFormed: one ill-formed term for each check. -/

theorem test_wf_slotWrite : Instr.wellFormed (.commandSlotWrite 0 0 126 (zeros 4)) = false := by decide
theorem test_wf_slotWrite_ok : Instr.wellFormed (.commandSlotWrite 0 0 124 (zeros 4)) = true := by decide
theorem test_wf_dmaStop : Instr.wellFormed (.dmaStop 0 {} 2) = false := by decide
theorem test_wf_rlRead : Instr.wellFormed (.rlLowHalfRead 0x204) = false ∧ Instr.wellFormed (.rl8byteRead 0x24) = false := by decide
theorem test_wf_bar0Error : Instr.wellFormed (.bar0AccessError true 0x100 4) = false := by decide
theorem test_wf_registerWrite : Instr.wellFormed (.registerWrite 0x102 false 0) = false ∧
    Instr.wellFormed (.registerWrite 0x104 true 0) = false ∧ Instr.wellFormed (.registerWrite 0x104 false 0x100000000) = false := by decide
theorem test_wf_bar2 : Instr.wellFormed (.bar2Read 0 0 {}) = false ∧ Instr.wellFormed (.bar2Read 0 4097 {}) = false ∧
    Instr.wellFormed (.bar2Write 0x1FFFFFFFF (zeros 2)) = false ∧ Instr.wellFormed (.bar2Write 0 []) = false := by decide
theorem test_wf_pcieLink : Instr.wellFormed (.pcieLinkTrained 7 8 false) = false ∧ Instr.wellFormed (.pcieLinkTrained 6 3 true) = false ∧
    Instr.wellFormed (.pcieLinkTrained 6 8 false) = false := by decide
theorem test_wf_edges : Instr.wellFormed (.syncEdge false 1000) = false ∧ Instr.wellFormed (.eventInputEdge 9 false 0) = false ∧
    Instr.wellFormed (.eventInputEdge 8 false 1000) = false := by decide
theorem test_wf_slack : Instr.wellFormed (.slackReading false []) = false := by decide
theorem test_wf_samples : Instr.wellFormed (.meridian { ends := [(83, 1)] }) = false ∧
    Instr.wellFormed (.prtAcqStatus 0 {} { sats := [(192, 1)] }) = false := by decide
theorem test_wf_slices : Instr.wellFormed (.timSelfCalibrate [2 ^ 32]) = false ∧ Instr.wellFormed (.linkFrameReceive 0 (zeros 239) 0) = false := by
  decide
theorem test_wf_slice_and_run (m : SliceMeas) (r : RunMeas) : Instr.wellFormed (.sliceEnd (List.replicate 98 m)) = false ∧
    Instr.wellFormed (.calGroupEnd (List.replicate 98 r)) = false := by simp [Instr.wellFormed]
theorem test_wf_sensors : Instr.wellFormed (.sensorSample [] []) = false ∧ Instr.wellFormed (.railScan [] []) = false := by decide

/-! The machine, and the way of a command into the device. -/

theorem test_witness_EmptyQueue : (on id).pending = [] ∧ (on id).dev.time.counting = true ∧
    ({} : State).pending = [] ∧ ({} : State).dev.time.counting = false ∧
    ({} : State).dev.thermal.isShut = false ∧ (on fun d => { d with thermal := { isShut := true } }).dev.thermal.isShut = true := by decide

theorem test_witness_EveryStep : (on id).settled ∧ step (on id) = .next { on id with dev := { dev0 with time := {
    dev0.time with lat := 1000001, raw := 1000001 } } } := ⟨⟨rfl, rfl, rfl⟩, rfl⟩

/-- SYS_SHOTS for 257 shots fails at its COUNT. -/
theorem test_witness_FailedCheck :
    let s := asks 0x0181 (fields [(6, 0), (2, 257)])
    commandOf (.sysShots 0 {}) = some (sysShotsSpec, 0, {}) ∧ s.dev.wr = [] ∧
    (nextCmd (s.sync {}).dev 0).any (fun c => c.op = sysShotsSpec.op && (firstFault sysShotsSpec c (s.sync {}).ctx (s.sync {}).dev).isSome) = true :=
  ⟨rfl, rfl, by decide⟩

/-- A SYS_NOP with a payload, opcode 0x0010, and SYS_ABORT of mailbox 32, accepted before and in a doorbell, each fail a check. -/
theorem test_witness_FailedCheck_other :
    let fails (sp : CmdSpec) (s : State) (c : Option Cmd) : Bool := c.any fun c => (firstFault sp c (s.sync {}).ctx (s.sync {}).dev).isSome
    let nop := asks 0x0100 (zeros 4)
    let other := asks 0x0010 []
    let abort := fields [(1, 32), (1, 1), (2, 0), (4, 0)]
    let waiting := asks opAbort abort
    let rung := on fun d => { d with
      bells := [(0, 0)], slots := Store.get [] ((slotOf opAbort false abort).zipIdx.foldl (fun l b => [(0, Store.set 0 (Store.get [] l 0) b.2 b.1)]) []) 0 }
    fails sysNopSpec nop (nextCmd (nop.sync {}).dev 0) = true ∧ (nextCmd (nop.sync {}).dev 0).any (fun c => c.op = 0x0100) = true ∧
    fails sysNopSpec other (nextCmd (other.sync {}).dev 0) = true ∧
    (nextCmd (other.sync {}).dev 0).any (fun c => !definedOp c.op && decide (other.dev.hif.ilLow ≤ c.il ∧ c.il ≤ other.dev.hif.ilHigh)) = true ∧
    (other.dev.pin 0).level = 0 ∧ firmwareRuns waiting.dev = true ∧
    fails sysAbortSpec waiting (waiting.dev.core.cmds.find? (fun q => q.mb = 0 && q.op = opAbort && !q.begun)) = true ∧
    rung.dev.bells = [(0, 0)] ∧ fld (slotBytes rung.dev 0 0) 0 2 = opAbort ∧
    (rung.dev.core.cmds.find? (fun q => q.mb = 0 && q.op = opAbort && !q.begun)).isNone = true ∧
    (lastAccepted (acceptBell (0, 0) (rung.sync {}).dev)).any (fun c => !c.bulk &&
      (firstFault sysAbortSpec c (rung.sync {}).ctx (acceptBell (0, 0) (rung.sync {}).dev)).isSome) = true := by decide

theorem test_witness_Completion :
    let s := asks 0x0100 []
    s.settled ∧ starts sysNopSpec s (fun c => !c.noSlot && c.raddr = 0) = true ∧ Store.wf {} s.dev.mbs = true ∧
    canPost s.dev 0 = true ∧ (s.dev.mb 0).held = [] ∧ s.dev.evt.en.getLsbD 0 = false := by
  refine ⟨⟨rfl, rfl, rfl⟩, ?_⟩; decide

theorem test_witness_SystemCommands :
    starts sysNopSpec (asks 0x0100 []) = true ∧
    starts sysHelloSpec (asks 0x0101 (fields [(1, 7), (1, 9), (2, 0), (8, 5), (4, 0)])) (fun c => (commonLevel dev0 (c.arg 0 1) (c.arg 1 1)).isSome) = true ∧
    starts sysIdentSpec (asks 0x0102 []) = true ∧ starts sysLedgerSpec (asks 0x0180 []) = true ∧
    starts sysShotsSpec (asks 0x0181 (fields [(6, 0), (2, 256)])) = true ∧
    starts sysReconcileSpec (asks 0x0182 (fields [(1, 0), (1, 0), (2, 16)])) = true := by decide

/-- One doorbell of mailbox 0 that holds an abort of mailbox 1, and one abort that was accepted earlier. -/
theorem test_witness_Abort :
    let abort := slotOf 0x0103 false (fields [(1, 1), (1, 1), (2, 0), (4, 0)])
    let s := on fun d => { d with bells := [(0, 0)], slots := Store.get [] (abort.zipIdx.foldl (fun l b => [(0, Store.set 0 (Store.get [] l 0) b.2 b.1)]) []) 0 }
    let u := asks 0x0103 (fields [(1, 1), (1, 1), (2, 0), (4, 0)])
    firmwareRuns s.dev = true ∧ s.dev.bells = [(0, 0)] ∧ fld (slotBytes s.dev 0 0) 0 2 = opAbort ∧
    (s.dev.core.cmds.find? (fun q => q.mb = 0 && q.op = opAbort && !q.begun)).isNone = true ∧
    (lastAccepted (acceptBell (0, 0) (s.sync {}).dev)).any (fun c => !c.bulk &&
      (checked sysAbortSpec c (s.sync {}).ctx (acceptBell (0, 0) (s.sync {}).dev)).isSome) = true ∧
    (u.dev.core.cmds.find? (fun q => q.mb = 0 && q.op = opAbort && !q.begun)).any (fun c => !c.bulk &&
      (checked sysAbortSpec c (u.sync {}).ctx (u.sync {}).dev).isSome) = true := by decide

theorem test_witness_Slots :
    let s := on id
    let u := on fun d => { d with bells := [(0, 0)] }
    s.dev.wr = [] ∧ (s.dev.mb 0).enable = true ∧ s.dev.hif.state = .ready ∧ 15 ∉ (s.dev.mb 0).busy ∧ 0 ∈ (s.dev.mb 0).busy ∧
    (s.dev.mb 31).enable = false ∧ u.dev.bells = [(0, 0)] ∧ firmwareRuns u.dev = true ∧ fld (slotBytes u.dev 0 0) 0 2 ≠ opAbort ∧
    Store.wf 0 s.dev.slots = true ∧ slotWriteOk 124 4 = true := by decide

theorem test_witness_MailboxRegisters :
    let s := on id
    let ring (b : Mailbox) := on fun d => { d with mbs := [(0, b)] }
    let a := ring { log2 := 12 }
    let z := ring { log2 := 13 }
    let u := ring { enable := true, log2 := 4, head := 1, held := [{}] }
    (a.dev.mb 0).busy = [] ∧ (a.dev.mb 0).log2.toNat = 12 ∧ (a.dev.mb 0).enable = false ∧ a.dev.wr = [] ∧ 12 < (z.dev.mb 0).log2.toNat ∧ (s.dev.mb 0).busy ≠ [] ∧
    (s.dev.mb 0).enable = true ∧ ((1 : BitVec 32).setWidth 16 - (u.dev.mb 0).tail).toNat ≤ ((u.dev.mb 0).head - (u.dev.mb 0).tail).toNat ∧
    ((u.dev.mb 0).head - (u.dev.mb 0).tail).toNat < ((2 : BitVec 32).setWidth 16 - (u.dev.mb 0).tail).toNat ∧
    ((u.dev.mb 0).held.find? (fun q => !q.waitsEpoch)).any (fun k => readyToPost u.dev k) = true ∧ canPost u.dev 0 = true := by decide

/-! DMA, events, registers, BAR2, resets, start-up and images. -/

/-- A ring whose HEAD descriptor, at host address 8192, moves 4 bytes between host address 4096 and device address 64. -/
def ringState (n : Nat) : State :=
  let s := on fun d => { d with dma := [(n, { base := 8192, log2 := 4, tail := 1, owns := 1, stat := .running })] }
  { s with host := Mem.write (Mem.write [] 4096 (le 4 0x12345678)) 8192 (le 8 4096 ++ le 8 64 ++ le 4 4 ++ le 2 7 ++ le 1 1) }

theorem test_witness_DmaRegisters :
    let ring (r : DmaRing) : DmaRing := (on fun d => { d with dma := [(7, r)] }).dev.ring 7
    let stopped := ring { log2 := 16 }
    let wrong := ring { log2 := 17, stat := .configError }
    let runs := ring { log2 := 4, stat := .running }
    let ends := ring { log2 := 4, stat := .stopping }
    stopped.stat = .stopped ∧ 4 ≤ stopped.log2.toNat ∧ stopped.log2.toNat ≤ 16 ∧ wrong.stat = .configError ∧ 16 < wrong.log2.toNat ∧
    runs.stat = .running ∧ runs.tail = runs.head ∧ ends.stat = .stopping ∧ ((16 : BitVec 32) - runs.head).toNat ≤ 2 ^ runs.log2.toNat ∧
    2 ^ runs.log2.toNat < ((17 : BitVec 32) - runs.head).toNat := by decide

theorem test_witness_Descriptor :
    let good (n : Nat) (toHost : Bool) : Prop :=
      let s := ringState n
      let r := s.dev.ring n
      let b := headDesc n (s.sync {}).ctx (s.sync {}).dev
      Store.wf {} s.dev.dma = true ∧ r.stat = .running ∧ r.tail ≠ r.head ∧ s.dev.hif.linkUp = true ∧ bitOf (fld b 22 1) 0 = true ∧
      descOutcome toHost (s.sync {}).dev b = (0x00, fld b 16 4) ∧ s.dev.evt.en.getLsbD (32 + n) = false
    (ringState 3).settled ∧ (ringState 4).settled ∧ good 3 false ∧ good 4 true := by
  refine ⟨⟨rfl, by decide, rfl⟩, ⟨rfl, by decide, rfl⟩, ?_⟩; decide

/-- A LENGTH of 0, and the statuses 0x11 to 0x15 of a transfer that fails (R50). -/
theorem test_witness_FailedDescriptor :
    let desc (n dev len : Nat) : State :=
      { ringState n with host := Mem.write [] 8192 (le 8 4096 ++ le 8 dev ++ le 4 len ++ le 2 7 ++ le 1 3 ++ zeros 9) }
    let status (h : HostSide) (n : Nat) (s : State) : Nat := (descOutcome (decide (4 ≤ n)) (s.sync h).dev (headDesc n (s.sync h).ctx (s.sync h).dev)).1
    (desc 3 64 0).settled ∧ status {} 3 (desc 3 64 0) = 0x01 ∧ status { bad := [(4096, 1)] } 3 (desc 3 64 4) = 0x11 ∧
    status {} 4 (desc 4 (2 ^ 35) 4) = 0x12 ∧ status { ecc := [2] } 4 (desc 4 64 128) = 0x13 ∧
    status {} 3 (desc 3 (2 ^ 35 - 2 ^ 22) 4) = 0x14 ∧ status {} 3 (desc 3 66 4) = 0x15 ∧
    (ringState 3).dev.evt.en = 0 ∧ bitOf 3 0 = true ∧ bitOf 3 1 = true := by
  refine ⟨⟨rfl, by decide, rfl⟩, ?_⟩; decide

/-- The end of that descriptor leaves the machine in some next state, and the ledgers hold before it. -/
theorem test_witness_DmaLedger : Store.wf {} (ringState 3).dev.dma = true ∧ (∀ n : Fin 8, rowHolds (ringState 3).dev 2 n = true) ∧
    ∃ t, exec (.dmaDescriptorDone 3 {}) (ringState 3) = .next t := by
  refine ⟨?_, ?_, _, rfl⟩ <;> decide

theorem test_witness_EventLog :
    let log (e : Evt) : State := on fun d => { d with evt := e }
    let off := log { log2 := 6 }
    let bad := log { log2 := 5 }
    let full := log { log2 := 6, head := 65, enable := true }
    let masked := log { pba := 1, msix := [(0, { addr := 4096, data := 7 })] }
    off.dev.evt.enable = false ∧ 6 ≤ off.dev.evt.log2.toNat ∧ bad.dev.evt.log2.toNat < 6 ∧ full.dev.evt.enable = true ∧
    (full.dev.evt.head - 1).toNat ≤ 2 ^ full.dev.evt.log2.toNat ∧ 2 ^ full.dev.evt.log2.toNat < (full.dev.evt.head - 0).toNat ∧
    off.dev.evt.pba.getLsbD 255 = false ∧ Store.wf {} masked.dev.evt.msix = true ∧ masked.dev.evt.pba.getLsbD 0 = true ∧
    masked.dev.hif.linkUp = true ∧ off.dev.wr = [] := by decide

theorem test_witness_LogRecord :
    let s := on fun d => { d with evt := { log2 := 6, enable := true, raised := [{ src := 44 }] } }
    s.settled ∧ s.dev.evt.raised = [{ src := 44 }] ∧ inGap s.dev = false ∧ s.dev.mirror.failed = false ∧ s.dev.hif.linkUp = true ∧ logHasRoom s.dev.evt = true ∧
    s.dev.evt.en.getLsbD 40 = false ∧
    (let two := on fun d => { d with evt := { log2 := 6, enable := true, raised := [{ src := 44 }, { src := 44, lat := 5 }] } }
     two.dev.evt.raised = [{ src := 44 }, { src := 44, lat := 5 }] ∧ (0 : Nat) ≤ 5) := ⟨⟨rfl, rfl, rfl⟩, rfl, rfl, rfl, rfl, rfl, rfl, rfl, by decide⟩

theorem test_witness_RegisterAccess :
    (rlValue dev0 0x200).isSome = true ∧ (rlValue dev0 0x828).isSome = true ∧ accessOk 0x24 2 = false ∧ accessOk 0x204 8 = false ∧
    0x102 % 4 ≠ 0 ∧ 0x20 % 4 = 0 ∧ 0x28 % 4 = 0 ∧ dev0.wr = [] := by decide

theorem test_witness_BaseTakesEffect : dev0.wr = [] ∧ Store.wf {} dev0.mbs = true ∧ Store.wf {} dev0.dma = true ∧
    Store.wf 0 dev0.hif.lowHalf = true ∧ Store.wf 0 dev0.hif.rlShadow = true ∧ (dev0.mb 31).enable = false ∧ (dev0.mb 31).busy = [] ∧ (dev0.ring 7).stat = .stopped ∧
    ((dev0.setRing 7 { stat := .configError }).ring 7).stat = .configError ∧ dev0.evt.enable = false := by decide

/-- The last byte below the reserved region, the first of it, and the first beyond fitted DDR5, each through its BAR2 window. -/
theorem test_witness_Bar2 :
    let a (o : Nat) : Nat := 3 * 2 ^ 33 + o
    (on fun d => { d with hif := { d.hif with bar2Win := 3 } }).settled ∧ a (2 ^ 33 - 2 ^ 22 - 1) + 1 ≤ ddrReserved dev0 ∧
    ddrReserved dev0 < a (2 ^ 33 - 2 ^ 22) + 1 ∧ a (2 ^ 33 - 2 ^ 22) < ddrFitted dev0 ∧ ddrFitted dev0 < a (2 ^ 33) + 4 := by
  refine ⟨⟨rfl, rfl, rfl⟩, ?_⟩; decide

theorem test_witness_LinkAndFlr :
    let waiting := on fun d => { d with hif := { d.hif with linkUp := false }, mbs := [(0, { enable := true, log2 := 4, held := [{}, {}] })],
                                        evt := { pba := 1, msix := [(0, { mask := false })] } }
    let b := waiting.dev.mb 0
    dev0.wr = [] ∧ dev0.images.inReset = false ∧ Store.wf {} dev0.dma = true ∧ Store.wf {} dev0.mbs = true ∧
    waiting.dev.wr = [] ∧ Store.wf {} waiting.dev.mbs = true ∧ (∀ k ∈ b.held, k.waitsEpoch = false ∧ k.after = []) ∧
    (b.head - b.tail).toNat + b.held.length ≤ 2 ^ b.log2.toNat ∧ (Store.get ({} : Msix) waiting.dev.evt.msix 0).mask = false := by decide

theorem test_witness_DieResets :
    let u := on fun d => { d with images := { d.images with rebootSrc := some 1 }, thermal := { isShut := true } }
    let r := on fun d => { d with images := { d.images with romWrote := some true } }
    dev0.wr = [] ∧ dev0.images.writeSeq = none ∧ dev0.cal.committing = none ∧ selecting (on id).ctx dev0 = none ∧ dev0.images.romWrote = none ∧
    selecting r.ctx r.dev = none ∧ r.dev.images.romWrote = some true ∧ (on id).fuse.hasPort 56 = true ∧ portKind 56 = .flux ∧ u.dev.images.rebootSrc = some 1 ∧
    2 ≤ ([0, 1, 2, 3].filter (fun i => (0b1010 : BitVec 4).getLsbD i)).length ∧ dev0.thermal.isShut = false ∧ u.dev.thermal.isShut = true := by decide

theorem test_witness_CoreLoss :
    let s := on fun d => { d with mirror := { standby := 4 } }
    firmwareRuns s.dev = true ∧ mayTakeOver s.dev = true ∧ mayTakeOver dev0 = false ∧ dev0.images.inReset = false ∧ s.fuse.duplex = true ∧
    (let failed := { dev0 with mirror := { dev0.mirror with failed := true } }
     failed.mirror.failed = true ∧ failed.hif.state = .ready ∧ mayTakeOver failed = false) := by decide

theorem test_witness_StartUp :
    let s : State := {}
    let u := on fun d => { d with hif := { d.hif with state := .imageLoading }, images := { d.images with bootSrc := some 0, slot1 := { valid := 3, stepOk := true } } }
    let v := on fun d => { d with hif := { d.hif with state := .imageLoading } }
    s.dev.images.inReset = true ∧ s.dev.thermal.isShut = false ∧ s.dev.images.bootStaged = false ∧ (dirNow s.dev.images).nextOnce = 0xFF ∧
    (dirNow s.dev.images).preferred = 0 ∧ fits s.dev.images.slot0 = true ∧ u.dev.images.bootSrc = some 0 ∧ u.dev.hif.state = .imageLoading ∧
    u.dev.images.reloading = false ∧ (dirNow u.dev.images).nextOnce = 0xFF ∧ (dirNow u.dev.images).preferred = 0 ∧
    fits u.dev.images.slot1 = true ∧ u.dev.images.flashOk = true ∧ u.dev.wr = [] ∧ v.dev.images.bootSrc = none ∧ v.dev.images.inReset = false ∧
    v.dev.images.reloading = false ∧ v.dev.mirror.imgActive.stepOk = true ∧ v.dev.hif.restrict = 0 ∧
    (∀ r ∈ [2, 4], let w := { v.dev with hif := { v.dev.hif with restrict := r } }
      w.hif.restrict = r ∧ w.hif.state = .imageLoading ∧ w.mirror.imgActive.stepOk = true) ∧
    (let w := { v.dev with mirror := { v.dev.mirror with imgActive := { v.dev.mirror.imgActive with stepOk := false } } }
     w.mirror.imgActive.stepOk = false ∧ w.hif.state = .imageLoading) ∧
    (let w := { u.dev with images := { u.dev.images with flashOk := false } }
     w.images.flashOk = false ∧ w.images.bootSrc = some 0 ∧ (1 : Fin 4) ≠ 0) := by decide

/-- The format of an image to stage (R100): 512 bytes of header and 4 of body. -/
def image : List Byte := le 4 0x4D495956 ++ le 2 1 ++ zeros 2 ++ le 4 4 ++ zeros 9 ++ le 1 1 ++ zeros 494

/-- The hash and the signature of R101 are uninterpreted (log entry 10): the witness for IMG_STAGE is an image of the right format, which
passes where they accept it. -/
theorem test_witness_ImgStage : starts imgStageSpec (asksBulk 0x0E01 image) (fun c => c.payload = image) = true ∧
    (hashOk image = true → authOk image = true → stageFail image = none) := by
  refine ⟨by decide, fun h a => ?_⟩
  have f : formatFail image = none := by decide
  simp [stageFail, f, h, a, stageFail.fNoneAt, firstFail]

theorem test_witness_Images :
    let staged (d : Dev) : Dev := { d with images := { d.images with staged := some { valid := 3, stepOk := true } }, mirror := { standby := 4 } }
    let writing := on fun d => holds 0x0E02 7 (fields [(1, 1), (3, 0)]) { d with images := { d.images with writeSeq := some 7 } }
    let lost := on fun d => { d with images := { d.images with writeSeq := some 7 } }
    starts imgStatusSpec (asks 0x0E00 []) = true ∧ starts imgSelectSpec (asks 0x0E03 (fields [(1, 0), (1, 0), (2, 0)])) = true ∧
    starts imgWriteSpec (asks 0x0E02 (fields [(1, 1), (3, 0)]) staged) = true ∧
    lost.dev.images.writeSeq = some 7 ∧ (cmdOf lost.dev 7).isNone = true ∧ lost.dev.wr = [] ∧ writing.dev.images.writeSeq = some 7 ∧ (cmdOf writing.dev 7).any (fun c => !c.dead) = true ∧
    (let s := asks 0x0E04 (fields [(1, 1), (1, 0), (2, 0)]) staged
     starts imgRebootSpec s = true ∧ running s.dev = false ∧ Store.wf {} s.dev.mbs = true) ∧
    (∀ e ∈ [false, true], let held (d : Dev) : Dev := { staged d with mirror := { standby := 4, errLatched := e } }
      starts imgLoadStandbySpec (asks 0x0E05 (fields [(1, 2), (3, 0)]) held) = true ∧ heldStandby (held dev0) = e) ∧
    starts imgHandoverSpec (asks 0x0E06 [] staged) = true := by decide

/-! Lattice time, references, SYNC, staged commands and ports. -/

theorem test_witness_LatticeCommands :
    let load (w : Nat) := fields [(8, 5), (1, w), (1, 0), (2, 0), (4, if w = 1 then 60000 else 0)]
    starts latStatusSpec (asks 0x0200 []) = true ∧ starts latRefSelectSpec (asks 0x0201 (fields [(1, 0), (1, 1), (2, 0)])) = true ∧
    (∀ f ∈ [id, runs], starts latSetPeriodSpec (asks 0x0202 (le 8 500) f) = true) ∧
    (∀ f ∈ [id, runs], starts latSyncSpec (asks 0x0203 (fields [(1, 1), (1, 0), (2, 0), (4, 2096)]) f) = true) ∧
    running dev0 = false ∧ running (runs dev0) = true ∧
    (∀ w ∈ [0, 1, 2], starts latLoadSpec (asks 0x0204 (load w)) (fun c => c.arg 8 1 = w) = true) ∧ dev0.lattice.armed = none ∧
    starts latSlackSpec (asks 0x0205 (fields [(1, 1), (3, 0)])) = true ∧ starts latDiscardsSpec (asks 0x0206 (fields [(1, 1), (3, 0)])) = true := by
  decide

theorem test_witness_ReferenceAndPll :
    let s (l : Lattice) := on fun d => { d with lattice := l }
    let pn := s { refPN := true }
    let fb := s { refPN := true, fallback := true }
    let lost := s { refPN := true, presentPN := false }
    let back := s { refPN := true, holdover := true }
    let pulls := on fun d => holds 0x0201 7 [] { d with lattice := { pullIn := true, pullSeqs := [7] } }
    let cold := on fun d => { d with hif := { d.hif with lock := false, orfWarm := false }, time := {} }
    pn.dev.lattice.presentPN = true ∧ pn.dev.lattice.refPN = true ∧ pn.dev.lattice.fallback = false ∧ fb.fuse.oven = true ∧
    fb.dev.lattice.fallback = true ∧ lost.dev.lattice.presentPN = false ∧ back.dev.lattice.holdover = true ∧ back.dev.wr = [] ∧
    pn.dev.lattice.presentOsc = true ∧ (∀ q ∈ [[], [7]], let osc := (s { presentOsc := false, holdover := true, pullSeqs := q }).dev.lattice
      osc.presentOsc = false ∧ osc.refPN = false ∧ osc.pullSeqs = q) ∧
    pulls.dev.lattice.pullIn = true ∧ pulls.dev.lattice.pullSeqs = [7] ∧ (cmdOf pulls.dev 7).any (fun c => !c.dead) = true ∧
    cold.dev.hif.lock = false ∧ cold.dev.images.inReset = false ∧ refPresent cold.dev.lattice = true ∧ cold.dev.time.counting = false ∧
    dev0.hif.lock = true ∧ Store.wf {} dev0.ports = true ∧ 83 ∈ outputs (on id).fuse ∧ cold.dev.hif.orfWarm = false ∧ dev0.hif.orfWarm = true := by decide

/-- The first and the last instant of the edge window, and an armed load. -/
theorem test_witness_Sync :
    let follow (lat : Nat) := on fun d =>
      let d1 := runs d
      { d1 with
        time := { d.time with lat := lat }
        lattice := { follow := true, lead := 4096 }
        core := { d1.core with run := { d1.core.run with k := 1, next := 1020000 } } }
    let armed := on fun d => holds 0x0204 7 [] { d with lattice := { armed := some ⟨5, false, 2000000, 7⟩ } }
    let early := 1020000 - 4096 - edgeEarly (follow 0).dev
    (∀ lat ∈ [early, 1020000 - 4096 + 2048], let d := (follow lat).dev
      d.hif.state = .ready ∧ d.lattice.armed = none ∧ d.lattice.follow = true ∧ windowPending d = true ∧
      d.core.run.next - d.lattice.lead ≤ d.time.lat + edgeEarly d ∧ d.time.lat ≤ d.core.run.next - d.lattice.lead + 2048 ∧ d.tim.meas = none ∧
      (conditionEdge 8 d.lattice.falling 999 d).1 = true) ∧
    armed.dev.lattice.armed = some ⟨5, false, 2000000, 7⟩ ∧ running armed.dev = false ∧ (cmdOf armed.dev 7).any (fun c => !c.dead) = true ∧
    (conditionEdge 8 false 999 armed.dev).1 = true ∧
    (cmdOf (eventTriggers 8 false (conditionEdge 8 false 999 armed.dev).2) 7).any (fun c => !c.dead) = true := by decide

theorem test_witness_Frames : dev0.time.counting = true ∧ dev0.time.raw < 2 ^ 64 ∧ (2 ^ 64 - 1 : Nat) < 2 ^ 64 := by decide

theorem test_witness_Slack :
    let s := on fun d => { d with slack := [(1, { rings := [(23, { failed := true, good := 999 })] })] }
    (List.replicate 24 (300 : BitVec 16)).length = 24 ∧ s.fuse.duplex = true ∧ Store.wf {} s.dev.slack = true ∧
    Store.wf {} (s.dev.slackOf true).rings = true ∧ ((s.dev.slackOf true).ring 23).failed = true ∧ 999 ≤ ((s.dev.slackOf true).ring 23).good ∧
    ((s.dev.slackOf true).ring 0).failed = false := by decide

/-- A locus on drive port 0, of constant amplitude. -/
def locus0 : List Byte := fields [(1, 0), (1, 0), (2, 1), (4, 0), (4, 16), (4, 8), (44, 0), (4, 0)]

/-- Each staged command begins, with no program running and while one runs. -/
theorem test_witness_Staged_1 : ∀ f ∈ [id, runs],
    starts latSetPeriodSpec (asks 0x0202 (le 8 20000) f) = true ∧ starts latSyncSpec (asks 0x0203 (fields [(1, 0), (1, 1), (2, 0), (4, 4096)]) f) = true ∧
    starts prtDriveConfigSpec (asks 0x0301 (fields [(1, 55), (1, 1), (2, 192), (4, 0)]) f) = true ∧
    starts prtFrameSetSpec (asks 0x0302 (fields [(1, 0), (1, 3), (1, 3), (1, 0), (4, 7), (8, 2 ^ 47 - 1)]) f) (fun c => c.arg 2 1 ≠ 0) = true ∧
    starts prtEnvWriteSpec (asks 0x0303 (fields [(1, 0), (3, 0), (4, 0), (4, 1), (4, 0), (4, 5)]) f) = true ∧
    starts prtFluxConfigSpec (asks 0x0306 (fields [(1, 56), (1, 3), (2, 0), (4, 100)]) f) = true ∧
    starts prtFluxDcSpec (asks 0x0307 (fields [(1, 56), (3, 0), (4, 100), (4, 1000)]) f) = true ∧
    starts prtProbeConfigSpec (asks 0x0380 (fields [(1, 72), (1, 1), (2, 96), (4, 0)]) f) = true ∧
    starts prtProbeToneSpec (asks 0x0381 (fields [(1, 83), (1, 15), (1, 1), (1, 0), (4, 0), (8, 1)]) f) (fun c => c.arg 2 1 ≠ 0) = true ∧
    starts prtAcqConfigSpec (asks 0x0382 (fields [(1, 95), (1, 3), (2, 0)]) f) = true := by decide

theorem test_witness_Staged_2 : ∀ f ∈ [id, runs],
    starts locWriteSpec (asks 0x0404 (fields [(4, 40959), (4, 1)] ++ locus0) f) = true ∧
    starts roChConfigSpec (asks 0x0500 (fields [(1, 11), (1, 15), (1, 1), (1, 3), (1, 7), (1, 15), (2, 0), (8, 0), (8, 5)]) f) = true ∧
    starts roWeightsSpec (asks 0x0501 (fields [(1, 0), (1, 0), (1, 8), (1, 0), (2, 255), (2, 1), (8, 0), (4, 9)]) f) = true ∧
    starts roDiscSpec (asks 0x0502 (fields [(1, 0), (1, 0), (1, 1), (1, 0), (2, 4), (2, 0), (2, 1), (2, 0), (44, 0)]) f) = true ∧
    starts chExportSpec (asks 0x05C2 (fields [(1, 3), (7, 0), (24, 1), (24, 2)]) f) = true ∧
    starts calWriteSpec (asks 0x0805 (fields [(1, 7), (1, 0), (2, 96), (2, 1), (2, 0), (32, 0)]) f) = true ∧
    starts mkvPinConfigSpec (asks 0x0A01 (fields [(16, 0), (1, 1), (3, 0)]) f) = true := by decide

/-- A post-processing kernel of one word on read-out processor 0. -/
def withPost (d : Dev) : Dev := { d with core := { d.core with rps := [(0, {
  mode := .idle, kernel := some { post := true, tag := 1, base := 0, words := 1, entry := 0 } })] } }

theorem test_witness_Staged_3 : ∀ f ∈ [id, runs],
    starts chTableWriteSpec (asksBulk 0x05C0 (fields [(1, 63), (7, 0), (8, 1), (4, 2), (12, 0), (32, 0)] ++ zeros 1024) f) = true ∧
    starts rpAttachSpec (asks 0x0605 (fields [(1, 0), (1, 15), (2, 0)]) (withPost ∘ f)) = true := by decide

theorem test_staged_opcodes : [latSetPeriodSpec, latSyncSpec, prtDriveConfigSpec, prtFrameSetSpec, prtEnvWriteSpec, prtFluxConfigSpec,
    prtFluxDcSpec, prtProbeConfigSpec, prtProbeToneSpec, prtAcqConfigSpec, locWriteSpec, roChConfigSpec, roWeightsSpec, roDiscSpec,
    chTableWriteSpec, chExportSpec, rpAttachSpec, calWriteSpec, mkvPinConfigSpec].all (fun sp => stagedOps.contains sp.op) = true := by decide

theorem test_witness_Applied : running dev0 = false ∧ Store.wf {} dev0.core.loci = true ∧ Store.wf {} dev0.core.tables = true ∧
    Store.wf exportReset dev0.core.exports = true ∧ Store.wf {} dev0.chans = true ∧ Store.wf {} dev0.ports = true ∧
    (waits 0x0404 false []).op = 0x0404 ∧ (waits 0x05C0 true []).op = 0x05C0 ∧ (waits 0x05C2 false []).op = 0x05C2 ∧
    (waits 0x0501 false []).op = 0x0501 ∧ Store.wf weightReset (dev0.chan 0).cfg.weights = true ∧ (waits 0x0301 false []).op = 0x0301 ∧
    (waits 0x0306 false []).op = 0x0306 ∧ (waits 0x0382 false []).op = 0x0382 := by decide

theorem test_witness_Ports :
    let ramping := on fun d => holds 0x0307 7 [] { d with ports := [(56, { target := 5, ramp := some ⟨0, 1000000, 1000, 7⟩ })] }
    let copying := on fun d => holds 0x0303 7 [] { d with envCopies := [⟨0, 0, [1], 7, some 8000000, none⟩] }
    let governs := on fun d => holds 0x0303 7 [] { d with envCopies := [⟨0, 0, [1], 7, some 8000000, some 3⟩] }
    starts prtStatusSpec (asks 0x0300 (fields [(1, 83), (1, 1), (2, 0)])) = true ∧
    starts (prtAcqStatusSpec {}) (asks 0x0383 (fields [(1, 84), (1, 1), (2, 0)])) = true ∧
    starts prtEnvReadSpec (asks 0x0304 (fields [(1, 0), (3, 0), (4, 0), (4, 1), (4, 0)])) = true ∧
    starts prtStoreAssignSpec (asks 0x0305 (zeros 84)) = true ∧
    starts prtFrameSetSpec (asks 0x0302 (zeros 16)) (fun c => c.arg 2 1 = 0) = true ∧
    starts prtProbeToneSpec (asks 0x0381 (le 1 72 ++ zeros 15)) (fun c => c.arg 2 1 = 0) = true ∧
    (∀ ns ∈ [0, 1], let s := asks 0x0307 (fields [(1, 56), (3, 0), (4, 100), (4, ns)])
      starts prtFluxDcSpec s = true ∧ running s.dev = false ∧ (s.dev.port 56).ramp = none ∧ Store.wf {} s.dev.ports = true) ∧
    (ramping.dev.port 56).ramp = some ⟨0, 1000000, 1000, 7⟩ ∧ (cmdOf ramping.dev 7).any (fun c => !c.dead) = true ∧
    copying.dev.envCopies = [⟨0, 0, [1], 7, some 8000000, none⟩] ∧ governs.dev.envCopies = [⟨0, 0, [1], 7, some 8000000, some 3⟩] ∧ (cmdOf copying.dev 7).any (fun c => !c.dead) = true := by decide

theorem test_witness_Ramp :
    let r : Ramp := ⟨0, 1000000, 1000, 7⟩
    r.raw < 2 ^ 64 ∧ dev0.time.raw = r.raw ∧ 0 < r.ns ∧ dev0.time.raw < 2 ^ 64 ∧ r.ns ≤ (1001000 + 2 ^ 64 - r.raw) % 2 ^ 64 := by decide

/-! Programs, shots, rays and items. -/

/-- The image of a one-word program: ray 0 halts (R196). -/
def progImage : List Byte :=
  fields [(1, 3), (3, 0), (2, 0), (10, 0), (4, 0x56504752), (2, 1), (2, 1), (4, 1), (4, 0), (48, 0), (1, 0), (3, 0), (4, 0), (8, 0x01 * 2 ^ 56)]

/-- A device that holds a one-word program and runs none. -/
def holdsProg (d : Dev) : Dev := { d with core := { d.core with
  progMem := [(0, 0x0100000000000000)], progs := [(0, some { base := 0, words := 1, margin := 0, rays := [(0, 0)], barriers := [] })] } }

theorem test_witness_Programs :
    let start (fl n : Nat) := asks 0x0402 (fields [(1, 0), (1, fl), (6, 0), (8, 0), (8, n)]) (fun d => { holdsProg d with lattice := { period := 500 } })
    starts rayStatusSpec (asks 0x0400 []) = true ∧ starts locReadSpec (asks 0x0405 (fields [(4, 40959), (4, 1)])) = true ∧
    starts progLoadSpec (asksBulk 0x0401 progImage) = true ∧
    starts progStartSpec (start 0 0) (fun c => c.arg 16 8 = 0 && !bitOf (c.arg 1 1) 1 && ((start 0 0).dev.prog (c.arg 0 1)).isSome) = true ∧
    starts progStartSpec (start 0 1) (fun c => c.arg 16 8 ≠ 0 && ((start 0 1).dev.prog (c.arg 0 1)).isSome) = true ∧
    starts progStartSpec (start 2 0) (fun c => bitOf (c.arg 1 1) 1 && ((start 2 0).dev.prog (c.arg 0 1)).isSome) = true ∧
    starts progStopSpec (asks 0x0403 (fields [(1, 0), (3, 0)])) = true ∧
    starts progStopSpec (asks 0x0403 (fields [(1, 1), (3, 0)]) runs) (fun c => c.arg 0 1 = 1) = true ∧
    starts progStopSpec (asks 0x0403 (fields [(1, 0), (3, 0)]) runs) (fun c => c.arg 0 1 = 0) = true ∧ (runs dev0).core.run.stopping = none ∧
    (let stops := asks 0x0403 (fields [(1, 1), (3, 0)]) fun d =>
       { runs d with core := { (runs d).core with run := { (runs d).core.run with stopping := some 1 } } }
     starts progStopSpec stops (fun c => c.arg 0 1 = 1) = true ∧ running stops.dev = true ∧ stops.dev.core.run.stopping = some 1) := by decide

/-- The running program's word 0 is `w`; ray 0 is `y`, about to execute it, and shot 0 is open. -/
def rayDev (w : Nat) (y : Ray) (d : Dev) : Dev :=
  let e := runs d
  { e with core := { e.core with
    progMem := [(0, BitVec.ofNat 64 w)], rays := [(0, y)], shots := [{ num := 0 }], run := { e.core.run with issued := 1 } } }

theorem test_rayAt (w : Nat) (y : Ray) (h : w < 2 ^ 64) (hp : y.pc = 0) (hs : y.st = .running ∨ y.st = .merid) :
    rayAt (rayDev w y dev0) 0 w := by
  refine ⟨_, rfl, ?_, rfl, rfl, ?_⟩
  · show (if 2 ≤ y.pc then 0x01 * 2 ^ 56 else (Store.get 0 [(0, BitVec.ofNat 64 w)] (0 + y.pc)).toNat) = w
    rw [hp]; simp [Store.get]; exact h
  · show (match y.st with | .halted => false | .barrier _ _ => false | .chord _ _ => false | .idle => false | _ => true) = true
    rcases hs with h | h <;> rw [h]

theorem test_witness_Shots :
    let opens := on fun d => let e := runs d
      { e with core := { e.core with rays := [(0, { st := .running, shot := 1 })], run := { e.core.run with issued := 1, k := 1 } } }
    let stuck := on fun d => let e := runs d
      { e with core := { e.core with rays := [(0, { st := .barrier 0 false })] } }
    let mer := on fun d => let e := runs d
      { e with core := { e.core with run := { e.core.run with fixed := true } } }
    let gap := { mer with dev := { mer.dev with mirror := { sw := some { t := 1000000, reason := 3 } } } }
    opens.dev.wr = [] ∧ mayOpen opens.dev (opens.dev.core.run.shotNext + 1) = true ∧
    pastDecision opens.dev (opens.dev.core.run.shotNext + 1) = false ∧ isDeadlock stuck.dev = true ∧ running mer.dev = true ∧
    mer.dev.core.run.fixed = true ∧ inGap mer.dev = false ∧
    switchesHere (outcomeStep mer.dev.core.run.k (takeMeridian (countAdc {} mer.dev))) = false ∧ inGap gap.dev = true ∧ running gap.dev = true ∧
    gap.dev.core.run.fixed = true ∧ mer.dev.mirror.failed = false ∧
    (let failed := { mer.dev with mirror := { mer.dev.mirror with failed := true } }
     failed.mirror.failed = true ∧ running failed = true ∧ failed.core.run.fixed = true) ∧
    (let planned := { mer.dev with mirror := { mer.dev.mirror with planned := some 3, standby := 3 } }
     let ended := outcomeStep planned.core.run.k (takeMeridian (countAdc {} planned))
     running planned = true ∧ inGap planned = false ∧ planned.mirror.failed = false ∧ switchesHere ended = true ∧ plannedFits ended = false) := by decide

/-- With `test_rayAt`: a word of each opcode on a ray in the state its clause asks for. -/
theorem test_witness_RayControl :
    let d (w : Nat) := rayDev w { st := .running } dev0
    let last := { d 0 with core := { (d 0).core with run := { (d 0).core.run with shots := 1 } } }
    let closed := { d 0 with core := { (d 0).core with run := { (d 0).core.run with issued := 0 } } }
    let passed := { d 0 with core := { (d 0).core with run := { (d 0).core.run with issued := 2, shotNext := 1, k := 2 } } }
    let word (op low : Nat) : Nat := op * 2 ^ 56 + low
    (∀ op ∈ [0x01, 0x02, 0x03, 0x08, 0x09, 0x20, 0x21, 0x24, 0x25, 0x30, 0x31], word op 5 < 2 ^ 64 ∧ word op 5 / 2 ^ 56 = op) ∧
    isOpened (d 0) 0 = true ∧ (d 0).core.run.stopping ≠ some 0 ∧ shotLimit (d 0) = some 4 ∧ 0 + 1 < 4 ∧ shotLimit last = some 1 ∧
    isOpened closed 0 = false ∧ meridianPassed (d 0) 1 = false ∧ meridianPassed passed 1 = true ∧ isOpened passed 1 = true ∧ bits (word 0x20 0) 23 0 = 0 ∧ bits (word 0x20 1) 23 0 ≠ 0 ∧
    ({ st := .running, loops := [(1, 0)] } : Ray).loops = [(1, 0)] ∧ (1 : Nat) < 2 := by decide

theorem test_witness_RayTokens :
    let item : Tok := { kind := .play, ray := 0 }
    let d (w : Nat) := rayDev w { st := .running } dev0
    let fullAt (n : Nat) := (d 0).setStage n { queue := List.replicate 64 item }
    let word (op low : Nat) : Nat := op * 2 ^ 56 + low
    let stream : Dev := { d 0 with core := { (d 0).core with loci := [(40959, { port := 0, flags := 16 })] } }
    let frames (k : TokKind) : Dev := { d 0 with core := { (d 0).core with fabric := [{ kind := k, ray := 0 }] } }
    (∀ op ∈ [0x10, 0x11, 0x14, 0x15, 0x18, 0x1C, 0x28], word op 40959 < 2 ^ 64 ∧ word op 40959 / 2 ^ 56 = op) ∧
    (shotOf (d 0) 0).isSome = true ∧ isOpened (d 0) 0 = true ∧ isOpened (d 0) 1 = false ∧ bits (word 0x10 40959) 15 0 = 40959 ∧
    40959 < bits (word 0x11 40960) 15 0 ∧ ((d 0).locus 40959).flags.getLsbD 4 = false ∧ (stream.locus 40959).flags.getLsbD 4 = true ∧
    (∀ n ∈ [0, 84, 96], 64 ≤ ((fullAt n).stage n).queue.length ∧ ¬ 64 ≤ ((d 0).stage n).queue.length) ∧
    (∀ k ∈ [TokKind.setf, TokKind.vz], (frames k).core.fabric.findIdx? (fun t => t.ray = 0 && !t.framed) = some 0 ∧
      ((frames k).core.fabric[0]?).any (fun t => t.kind = k) = true) := by decide

/-- Selector 0 of table 63 names channel 5 of this device. -/
theorem test_witness_Decide :
    let table : Table := { fallback := 9, sel := [(0, 0x80000005)], entries := [(0, 4)] }
    let d (y : Ray) (store : List Chord) : Dev :=
      let e := rayDev (0x28 * 2 ^ 56 + 63 * 2 ^ 46) y dev0
      { e with chords := { store := store }, core := { e.core with tables := [(63, table)] } }
    let all := d { st := .chord 0 63 } [{ chan := 5, state := some 1 }]
    let none_ := d { st := .chord 0 63 } []
    Store.wf {} all.core.rays = true ∧ (selectors (tableFor all 63 0)).filter selEn = [0x80000005] ∧
    (chordFor all 0x80000005 0).any (·.state.isSome) = true ∧ (all.ray 0).st = .chord 0 63 ∧ raysRun all = true ∧ isOpened all 0 = true ∧
    (0x28 * 2 ^ 56 + 63 * 2 ^ 46) / 2 ^ 56 = 0x28 ∧ bits (0x28 * 2 ^ 56 + 63 * 2 ^ 46) 51 46 = 63 ∧ bits (0x28 * 2 ^ 56 + 63 * 2 ^ 46) 55 52 = 0 ∧
    chordFor none_ 0x80000005 0 = none ∧ (fixedMer { none_ with core := { none_.core with run := { none_.core.run with fixed := true } } } 0).isSome = true := by
  decide

/-- SETG changes a register of its ray. -/
theorem test_witness_RegisterWrites :
    let s := on (rayDev (0x30 * 2 ^ 56 + 5) { st := .running })
    Store.wf {} s.dev.core.rays = true ∧ ∃ t, exec (.raySetg 0) s = .next t ∧ Store.get 0 (t.dev.ray 0).g 0 ≠ Store.get 0 (s.dev.ray 0).g 0 := by
  refine ⟨by decide, _, rfl, ?_⟩; decide

theorem test_witness_Items :
    let item : Tok := { kind := .play, ray := 0, stage := 0, framed := true, voff := 4096 * 100, len := 16 }
    let d (f : List Tok) : Dev := let e := runs dev0
      { e with core := { e.core with fabric := f, shots := [{ num := 0 }], run := { e.core.run with issued := 1 } } }
    let t1 : Tok := { item with arrival := some 1000000, held := false }
    let away (f : List Tok) : Dev := { d f with core := { (d f).core with fabric := [] } }
    let queued : Dev := (d []).setStage 0 { queue := [{ item with vertex := some (4096 * 1000100), locus := { flags := 8 } }] }
    let passed : Dev := { queued with core := { queued.core with run := { queued.core.run with k := 1 } } }
    let stream : Tok := { item with locus := { flags := 16 }, len := 2048 }
    let fills : Dev := (d []).setStage 0 { queue := [stream] }
    let windows : Dev := { d [{ item with kind := .window, stage := 84 }] with stages := [(84, { lastWindow := some 1000000 })] }
    let needy : Tok := { item with held := true }
    let window : Tok := { item with kind := .window, stage := 84, chan := 5, ordinal := unarrived 0 }
    let placed := placeWindow window { (d []).core.run with windows := [{ shot := 0, chan := 5, voff := window.voff, place := unarrived 0 }] }
    let arrives : Dev := { d [] with core := { (d []).core with run := placed.1 } }
    arrivalDiscard arrives { placed.2 with arrival := some 1000000, held := false } = none ∧ placed.2.ordinal = 0 ∧
    (windows.core.fabric[0]?).any (fun u => u.kind = .window && gateClosed windows u) = true ∧ needy.held = true ∧
    (d [item]).core.fabric[0]? = some item ∧ item.kind.isItem = true ∧ ((d [item]).stage 0).queue.length < 64 ∧
    gateClosed (d [item]) item = false ∧ readHeld (d [item]) item = false ∧ tokensRun (d [item]) = true ∧ arrivalDiscard (away [item]) t1 = none ∧
    arrivalDiscard (away []) { t1 with badLocus := true } = some Cause.badLocus ∧ ({ item with framed := false } : Tok).framed = false ∧
    (queued.stage 0).queue.length = 1 ∧ queued.hif.lock = true ∧ (jumpWaiting queued 0).isSome = true ∧ meridianPassed passed 0 = true ∧
    (((fills.stage 0).queue.head?).any fun t => jumpWaiting fills 0 ≠ some t) = true ∧
    (vertexOf queued { item with vertex := some (4096 * 1000100) }) = some (4096 * 1000100, false) ∧
    (fills.stage 0).playing = [] ∧ Store.wf {} fills.stages = true ∧ (∀ u ∈ fills.core.fabric, u.stage ≠ 0) ∧ needsFill stream = true ∧
    (((fills.stage 0).queue.filter (fun u => u.kind = .play)).map (buffered fills)).sum + min 1024 (stream.len - stream.got) ≤ 8192 := by decide

/-- Two items of equal vertex, released together; a third, later, stays queued (R133). -/
theorem test_witness_ReleasedTogether :
    let item (n : Nat) : Tok := { kind := .play, ray := n, stage := 0, framed := true, vertex := some (4096 * 1000100), len := 16 }
    let e := runs dev0
    let d : Dev := ({ e with core := { e.core with shots := [{ num := 0 }], run := { e.core.run with issued := 1, k := 1 } } }).setStage 0
      { queue := [item 0, item 1, { item 2 with vertex := some (4096 * 1000101) }] }
    d.hif.lock = true ∧ jumpWaiting d 0 ≠ some (item 0) ∧ vertexOf d (item 0) = some (4096 * 1000100, false) ∧ meridianPassed d 0 = true ∧
    ((itemReleaseRow 0 5 (on fun _ => d).ctx d).stage 0).queue.map Tok.ray = [2] := by decide

theorem test_witness_Queues :
    let a : Tok := { kind := .play, vertex := some 4096 }
    let b : Tok := { kind := .play, vertex := some 8192 }
    (∀ q ∈ [b, a, b], (vertexOf dev0 q).isSome = true) ∧ [a, b].Pairwise (fun p q => notAfter dev0 p q = true) := by decide

/-- A window of channel 191, its last acquire port, at its state instant. -/
theorem test_witness_Readout :
    let t : Tok := { kind := .window, chan := 191, stage := 95, len := 4 }
    let d := (runs { dev0 with stages := [(95, { playing := [t] })] })
    let e : Dev := { d with core := { d.core with shots := [{ num := 0 }] } }
    starts roChReadSpec (asks 0x0503 (fields [(1, 11), (1, 15), (1, 2), (1, 0)])) (fun c => bitOf (c.arg 2 1) 1) = true ∧
    starts chTableReadSpec (asks 0x05C1 (fields [(1, 63), (3, 0)])) = true ∧
    starts chStatusSpec (asks 0x05C3 (fields [(1, 1), (3, 0)])) = true ∧
    (e.stage 95).playing.find? (fun u => u.chan = 191) = some t ∧ t.stage = 95 ∧ t.chan = 191 ∧ Store.wf {} e.chans = true ∧
    Store.wf {} e.ports = true ∧ Store.wf {} e.stages = true ∧ (shotOf e t.shot).isSome = true ∧ (e.chan 191).saturated < 2 ^ 32 := by decide

/-! Read-out processors, acquisition and calibration. -/

/-- Read-out processor 0 holds a kernel whose word 0 is `w`, and is in mode `m`. -/
def rpDev (m : RpMode) (w : Nat) (d : Dev) : Dev := { d with core := { d.core with
  cmds := [begun 0x0604 7], rps := [(0, {
    mode := m, seq := 7, detachSeqs := [7], maxUs := 10, kernel := some { post := decide (m = .attached), tag := 1, base := 0, words := 2, entry := 0 }
    mem := if w = 0 then [] else [(0, BitVec.ofNat 32 w)] })] } }

/-- The same processor waiting at a detach with an empty queue. -/
def detaches (d : Dev) : Dev := let e := rpDev .attached 0 d
  e.setRp 0 { e.rp 0 with detaching := true, waiting := true }

theorem test_witness_RpCommands :
    let one := fields [(1, 0), (3, 0)]
    let run := fields [(1, 0), (3, 0), (4, 10000000)]
    starts rpStatusSpec (asks 0x0600 (fields [(1, 11), (1, 1), (2, 0)])) (fun c => bitOf (c.arg 1 1) 0) = true ∧
    starts rpMemWriteSpec (asks 0x0601 (fields [(1, 0), (1, 0), (2, 16383), (4, 1), (8, 0), (4, 5)])) = true ∧
    starts rpMemReadSpec (asks 0x0602 (fields [(1, 0), (1, 0), (2, 16383), (4, 1)])) = true ∧
    starts rpLoadSpec (asksBulk 0x0603 (fields [(1, 0), (1, 0), (2, 1), (2, 0), (2, 1), (2, 0), (6, 0), (4, 0x01000000)]))
      (fun c => (kernelFail (kernelCode c) (c.arg 1 1 = 1) (c.arg 8 2)).isOk) = true ∧
    starts rpRunSpec (asks 0x0604 run (rpDev .idle 0)) (fun c => ((rpDev .idle 0 dev0).rp (c.arg 0 1)).kernel.isSome) = true ∧
    (∀ m ∈ [RpMode.running, .paused, .attached, .idle, .none], starts rpStopSpec (asks 0x0606 one (rpDev m 0)) = true ∧
      ((rpDev m 0 dev0).rp 0).mode = m) ∧
    starts rpStopSpec (asks 0x0606 one (runs ∘ rpDev .attached 0)) = true ∧ running (rpDev .attached 0 dev0) = false ∧
    ((rpDev .attached 0 dev0).rp 0).drained = false ∧ ({ (rpDev .attached 0 dev0).rp 0 with waiting := true } : Rp).drained = true ∧
    ((rpDev .attached 0 dev0).rp 0).detaching = false ∧
    starts rpStopSpec (asks 0x0606 one detaches) = true ∧ ((detaches dev0).rp 0).drained = true ∧ running (detaches dev0) = false ∧
    Store.wf {} (detaches dev0).core.rps = true ∧ Store.wf {} (rpDev .attached 0 dev0).core.rps = true ∧
    stagedCmds (asks 0x0606 one (rpDev .idle 0)).dev = [] ∧
    (∀ f ∈ [id, runs], starts rpApplySpec (asks 0x0607 (fields [(1, 0), (1, 0), (1, 15), (1, 8), (2, 0), (2, 255), (2, 1), (2, 0)]) f) = true) ∧
    ((detaches dev0).rp 0).mode = .attached ∧ ((detaches dev0).rp 0).detaching = true ∧ ((detaches dev0).rp 0).queue = [] ∧
    ((detaches dev0).rp 0).waiting = true ∧ ((detaches dev0).rp 0).detachSeqs = [7] ∧ (cmdOf (detaches dev0) 7).any (fun c => !c.dead) = true := by decide

/-- A processor that runs its kernel executes the word at its PC, and each opcode has a word. -/
theorem test_witness_RpInstructions (w : Nat) (h : w < 2 ^ 32) (h0 : w ≠ 0) :
    rpAt (rpDev .running w dev0) 0 { post := false, tag := 1, base := 0, words := 2, entry := 0 } w := by
  refine ⟨rfl, ?_, rfl, .inl rfl⟩
  show (Store.get 0 (if w = 0 then [] else [(0, BitVec.ofNat 32 w)]) 0).toNat = w
  rw [if_neg h0]; simp [Store.get]; exact h

theorem test_witness_RpWords :
    (∀ op ∈ [0x01, 0x02, 0x04, 0x08, 0x09, 0x0A, 0x10, 0x11, 0x18, 0x19, 0x20, 0x21, 0x22, 0x23, 0x24, 0x25, 0x28, 0x29, 0x2A, 0x2C, 0x30, 0x31],
      bits (op * 2 ^ 24) 31 24 = op ∧ op * 2 ^ 24 < 2 ^ 32 ∧ op * 2 ^ 24 ≠ 0) ∧
    2 ≤ Store.get 0 ({ c := [(0, 2)] } : Rp).c 0 ∧ Store.get 0 ({ c := [(0, 1)] } : Rp).c 0 < 2 ∧
    ({ queue := [{}] } : Rp).queue = [{}] ∧ ((rpDev .running 1 dev0).rp 0).queue = [] ∧ Store.wf {} (rpDev .running 1 dev0).core.rps = true := by decide

theorem test_witness_RpArithmetic :
    let r := (rpDev .running 1 dev0).rp 0
    Store.wf 0 r.acc = true ∧ Store.wf 0 r.mem = true ∧ r.kernel.any (fun k => decide (k.base ≤ 1 ∧ 1 < k.base + k.words)) = true ∧
    r.kernel.any (fun k => decide (k.base ≤ 2 ∧ 2 < k.base + k.words)) = false ∧
    (∀ h ∈ [0, 1, 2, 3], bits (h * 2 ^ 15) 16 15 = h) ∧
    Store.wf 0 ({ acc := [(0, 2 ^ 47 - 1)] } : Rp).acc = true ∧ ({ acc := [(0, 2 ^ 47 - 1)] } : Rp).accOf 0 < 2 ^ 47 := by decide

/-- Ring 15 enabled for 16 entries of 32 bytes at 4096, its control block at 0; `u` entries are unread. -/
def ring15 (u : Nat) (o : List Offer) : AcqRing :=
  { enabled := true, everEnabled := true, geo := ⟨16, 32, 4096⟩, ctrl := 0, written := u, offers := o }

theorem test_witness_Acquisition :
    let config (fl : Nat) := fields [(1, 15), (1, fl), (2, 0), (4, 16), (8, 4096), (8, 0), (4, 32), (4, 0)]
    let ring (d : Dev) : Dev := d.setAcqRing 15 (ring15 0 [])
    let cfg := fields [(1, 0), (1, 1), (1, 0), (1, 15), (1, 0), (1, 0), (1, 3), (1, 0), (2, 0), (2, 0), (4, 0), (4, 64), (4, 1000), (1, 0), (7, 0)]
    let traces (d : Dev) : Dev := d.setAcqRing 15 { ring15 0 [] with kind := true, geo := ⟨16, 192, 4096⟩ }
    let unit (st : UnitState) (d : Dev) : Dev := (traces d).setUnit 0 { st := st, cfg := { edge := true, ring := 15, len := 64 } }
    let stop (m : Nat) := fields [(1, 0), (1, m), (2, 0)]
    starts acqStatusSpec (asks 0x0700 (fields [(1, 15), (1, 1), (2, 0)])) = true ∧
    (∀ f ∈ [id, ring], ∀ fl ∈ [0, 1], starts acqRingConfigSpec (asks 0x0701 (config fl) f) (fun c => bitOf (c.arg 1 1) 0 = decide (fl = 1)) = true) ∧
    ((ring dev0).acqRing 15).enabled = true ∧ (dev0.acqRing 15).enabled = false ∧ ((ring dev0).acqRing 15).staged = none ∧
    starts acqRingRebaseSpec (asks 0x0702 (fields [(1, 15), (3, 0)]) ring) = true ∧ starts acqUnitConfigSpec (asks 0x0703 cfg) = true ∧
    (starts acqUnitConfigSpec (asks 0x0703 cfg (fun d => d.setUnit 0 { cfg := { aport := 5 } })) (fun c =>
      !UnitCfg.sameSource { aport := 5 } (unitCfgOf c)) = true) ∧ starts acqUnitConfigSpec (asks 0x0703 cfg) (fun c =>
      UnitCfg.sameSource {} (unitCfgOf c)) = true ∧
    starts acqMaskSpec (asks 0x0704 (fields [(1, 0), (1, 0), (2, 255), (2, 1), (2, 0), (4, 7)])) = true ∧
    starts acqArmSpec (asks 0x0705 (fields [(1, 0), (1, 0), (6, 0), (8, 1)]) (unit .idle)) = true ∧
    (∀ st ∈ [UnitState.idle, .armed, .rearming, .waitingGroup, .capturing], ∀ m ∈ [0, 1],
      starts (acqStopSpec []) (asks 0x0706 (stop m) (unit st)) (fun c => c.arg 1 1 = m) = true ∧ ((unit st dev0).unit 0).st = st) ∧
    starts acqGroupArmSpec (asks 0x0707 (fields [(2, 1), (1, 0), (1, 0), (4, 1), (8, 1200000), (4, 1000), (4, 100000)])
      (fun d => { d with domain := { d.domain with aligned := true } })) = true := by decide

theorem test_witness_RingEntry :
    let o : Offer := { bytes := zeros 32, kind := false }
    let s (u : Nat) := on fun d => d.setAcqRing 15 (ring15 u [o])
    let r (u : Nat) := (s u).dev.acqRing 15
    (s 15).settled ∧ Store.wf {} (s 15).dev.acq.rings = true ∧ (r 15).enabled = true ∧ (r 15).kind = o.kind ∧ (r 15).staged = none ∧
    (r 15).offers = [o] ∧ o.unit = none ∧ o.shot = none ∧ fromLe (Mem.read (s 15).ddr ((r 15).ctrl + 64) 8) = 0 ∧
    (∀ u ∈ [15, 16], ((r u).written + 2 ^ 64 - 0) % 2 ^ 64 = u) ∧ 15 < (r 15).geo.length ∧ 16 = (r 16).geo.length ∧
    (r 15).ctrl + 64 ≤ (r 15).geo.base + (r 15).geo.slot * ((((r 15).written + 2 ^ 64 - (r 15).idx0) % 2 ^ 64) % (r 15).geo.length) := by
  refine ⟨⟨rfl, rfl, rfl⟩, ?_⟩; decide

theorem test_witness_Capture :
    let edge : UnitCfg := { edge := true, ring := 15, len := 64 }
    let unit (st : UnitState) : Dev := dev0.setUnit 15 { st := st, cfg := edge }
    let group (g : GroupCap) : Dev := { dev0 with acq := { group := g } }
    let master : Dev := { dev0 with acq := { masters := [{ seq := 7, armAt := 1000100, members := 2, acks := 2, replied := 2 }] } }
    let waitsHere := (group { waiting := true, armAt := 1000100 }).setUnit 15 { st := .waitingGroup, cfg := { edge with tflags := 4 } }
    let asked (m : Nat) (f : Dev → Dev) : Dev := f (dev0.setLink 3 { ctrlIn := [{
      type := 2, origin := 1, members := m, armAt := 1000100, fireDelay := 200, cycle := 100000 }] })
    let busy (d : Dev) : Dev := d.setUnit 15 { st := .armed, cfg := { edge with tflags := 4 } }
    let after (f : Dev → Dev) : Dev := (asked 1 f).setLink 3 {}
    let ready (f : Dev → Dev) : Bool := groupReady (on id).ctx (after f) && (groupFit (after f) 200 100000).1 && (groupFit (after f) 200 100000).2
    let fires := group { armed := true, fires := [(8000000, 3)] }
    let member := (fires.setUnit 15 { st := .armed, cfg := { edge with tflags := 4 } })
    (∀ u ∈ [16, 17], let r := ring15 u []
      r.enabled = true ∧ r.staged = none ∧ (r.written + 2 ^ 64 - 0) % 2 ^ 64 = u) ∧
    edge.edge = true ∧ ({} : UnitCfg).edge = false ∧ edge.group = false ∧ edge.firing = false ∧ bits edge.tflags.toNat 1 0 = 0 ∧
    ({} : CapUnit).primed = (false, false) ∧ ({ primed := (true, false) } : CapUnit).primed = (true, false) ∧ edge.level ≤ 100 ∧
    (∀ st ∈ [UnitState.armed, .capturing, .rearming], ((unit st).unit 15).st = st) ∧
    ((dev0.setLink 3 { ctrlIn := [{ type := 3, origin := 1, armAt := 1000100 }] }).link 3).ctrlIn = [{ type := 3, origin := 1, armAt := 1000100 }] ∧
    (asked 2 id).acq.group.waiting = false ∧ isMember (asked 2 id) 2 = false ∧ isMember (after id) 1 = true ∧ dev0.time.lat < 1000100 ∧
    ready busy = false ∧ ready id = true ∧
    master.acq.group.waiting = false ∧ master.acq.masters.length = 1 ∧ (cmdOf (holds 0x0707 7 [] master) 7).any (fun c => !c.dead) = true ∧
    waitsHere.acq.group.waiting = true ∧ waitsHere.acq.masters = [] ∧ groupUnits waitsHere = [15] ∧ (waitsHere.unit 15).st = .waitingGroup ∧
    Store.wf {} waitsHere.acq.units = true ∧
    ((dev0.setLink 0 { fireIn := [⟨2, 8000000, false⟩] }).link 0).fireIn = [⟨2, 8000000, false⟩] ∧ fires.acq.group.armed = true ∧
    winner fires.acq.group.fires = some (8000000, 3) ∧ fires.acq.group.fires.erase (8000000, 3) = [] ∧ groupUnits fires = [] ∧
    groupUnits member = [15] ∧ (member.unit 15).st = .armed ∧ Store.wf {} member.acq.units = true ∧
    winner [(8, 3), (8, 1), (9, 0)] = some (8, 1) := by decide

theorem test_witness_Calibration :
    let cal (g : Cal) : Dev := { dev0 with cal := g }
    let runOn := cal { runOn := true, runPorts := [0, 96], runNext := 501000000 }
    let runEnd := cal { runOn := true }
    let due (d : Dev) : Dev := { d with core := { d.core with due := [(95, { due := true })] } }
    starts calStatusSpec (asks 0x0800 []) = true ∧ starts calConfigSpec (asks 0x0801 (fields [(1, 1), (3, 0), (4, 86400)])) = true ∧
    starts calRunSpec (asks 0x0802 (zeros 16)) (fun c => (List.range 97).filter (fun i => bitOf (c.arg 0 13) i) = []) = true ∧
    starts calRunSpec (asks 0x0802 (fields [(13, 2 ^ 96), (1, 1), (2, 0)])) (fun c => (List.range 97).filter (fun i => bitOf (c.arg 0 13) i) = [96]) = true ∧
    (∀ on ∈ [false, true], starts calAbortSpec (asks 0x0803 [] (fun d => { d with cal := { runOn := on } })) = true ∧ (cal { runOn := on }).cal.runOn = on) ∧
    starts calReadSpec (asks 0x0804 (fields [(1, 9), (1, 0), (2, 96), (2, 1), (2, 0)])) (fun c => c.arg 0 1 ≠ 8) = true ∧
    (∀ g ∈ [({} : Cal), { changed := true }, { changed := true, committing := some [] }], starts calCommitSpec (asks 0x0806 [] (fun d => { d with cal := g })) = true) ∧
    (cal { committing := some [] }).cal.commitQueue = [] ∧ (cal { committing := some [] }).cal.commitSeq = none ∧
    (cal { changed := true }).cal.commitS ≠ 0 ∧ (cal {}).cal.commitS ≠ 0 ∧ firmwareRuns dev0 = true ∧ runOn.cal.runOn = true ∧ runOn.cal.runPorts ≠ [] ∧ runOn.wr = [] ∧
    runEnd.cal.runPorts = [] ∧ runEnd.cal.committing = none ∧ slicesPaused dev0 = false ∧ dev0.cal.slice = [] ∧ dev0.cal.slices = 0 ∧
    dev0.cal.sliceAt = none ∧ running dev0 = false ∧ running (runs dev0) = true ∧ slicesPaused (runs dev0) = false ∧
    (cal { slice := [0] }).cal.slice ≠ [] ∧ ((due dev0).due 95).due = true ∧ ((due dev0).due 95).starved = false ∧
    Store.wf {} (due dev0).core.due = true := by decide

/-- A measurement that has a facet, and one that has none. -/
theorem test_witness_RunMeasured :
    let r (f : Option Nat) : RunDone := { meas := { port := 96, delay := 5, phase := 0, gain := 0, dcofs := 0, dcgain := 0 }, temp := 400, facet := f, wt := 0, raw := 0 }
    Store.wf {} dev0.core.facets = true ∧ Store.wf {} dev0.core.resid = true ∧ (r (some 7)).facet = some 7 ∧ (r none).facet = none := by decide

theorem test_witness_Interpolation :
    let a : Entry := { temp := 400, delay := 1 }
    let b : Entry := { temp := 800, delay := 5 }
    [a, b].Pairwise (fun p q => p.temp < q.temp) ∧ a ∈ [a, b] ∧ [a, b] = [a] ++ [b] ∧ (400 : Int) ≤ a.temp ∧ b.temp ≤ 800 ∧ a.temp ≤ 800 := by decide

/-! Time-interval unit, wall time, markers and bench. -/

theorem test_witness_Tim :
    let tim (m : Meas) : Dev := { dev0 with tim := { meas := some m } }
    let m : Meas := { id := 1, startSrc := 64, window := 16, openAt := 1001000, startAt := 1001000, stopSrcs := [8] }
    let done (d : Dev) : Dev := { d with tim := { results := [m] } }
    starts timInputConfigSpec (asks 0x0901 (fields [(1, 7), (1, 0), (1, 2), (1, 0), (4, 1000000)])) = true ∧
    starts timMeasureSpec (asks 0x0902 (fields [(1, 64), (1, 3), (1, 15), (1, 0), (4, 16), (8, 1002000), (8, 1002016)] ++ List.replicate 15 8 ++ [0])) = true ∧
    starts timReadSpec (asks 0x0903 (le 4 1) done) (fun c => resultOf (done dev0) (c.arg 0 4) = some m) = true ∧
    (∀ u ∈ [none, some m], starts timAbortSpec (asks 0x0904 [] (fun d => { d with tim := { meas := u } })) = true) ∧
    (tim m).tim.meas = some m ∧ m.calibrated = false ∧ m.isOpen = false ∧ ({ m with calibrated := true } : Meas).calOk = true ∧
    ({ m with calibrated := true, calOk := false } : Meas).calOk = false ∧ ({ m with isOpen := true } : Meas).isOpen = true ∧ m.start = none ∧
    inputCode 0 = true ∧ inputCode 55 = true ∧ inputCode 8 = true ∧ dev0.hif.state = .ready ∧ dev0.wr = [] ∧
    (conditionEdge 0 false 999 dev0).1 = true ∧ (conditionEdge 0 false 999 { dev0 with tim := { inputs := [(0, { prescale := 1 })] } }).1 = false := by
  decide

/-- Stops at −12 ps, −11 ps, 12 ps and 13 ps from the start. -/
theorem test_witness_Stops :
    let start : TimEdge := { tick := 1000000 }
    let m : Meas := { stopSrcs := [0] }
    let e (tick before : Nat) : TimEdge := { tick := tick, before := before, src := 0 }
    Store.wf none m.stops = true ∧ (e 1000000 12).ps - start.ps = -12 ∧ (e 1000000 11).ps - start.ps = -11 ∧
    (e 1000001 988).ps - start.ps = 12 ∧ (e 1000001 987).ps - start.ps = 13 ∧ m.openStop 0 false = some 0 ∧ m.openStop 1 false = none := by decide

/-- An edge of a stop source before the start is captured, and one 12 ps before it, in a window that opens and closes then. -/
theorem test_witness_Orphans :
    let m : Meas := { id := 1, startSrc := 64, stopSrcs := [0], openAt := 999000, window := 2000, isOpen := true }
    let late : Meas := { m with start := some { tick := 1000000 } }
    let e : TimEdge := { tick := dev0.time.lat, before := 12, src := 0, status := 0 }
    m.isOpen = true ∧ 1000 * (m.openAt : Int) ≤ e.ps ∧ e.ps ≤ 1000 * ((m.openAt + m.window : Nat) : Int) ∧ m.start = none ∧
    (m.openStop 0 false).isSome = true ∧ ¬(m.startSrc = 0 ∧ m.startFalling = false) ∧ late.start = some { tick := 1000000 } ∧
    e.ps - ({ tick := 1000000 } : TimEdge).ps ≤ -12 ∧ late.stopSource 0 false = true ∧ late.complete = false := by decide

theorem test_witness_WallTime :
    let step (fl : Nat) (d : Dev) : Dev := { d with core := { d.core with
      cmds := [{ begun 0x0981 7 (fields [(1, 0), (1, fl), (6, 0), (8, 5), (8, 0)]) with aux := 1000001 }] } }
    let gen (g : WallGen) (d : Dev) : Dev := { d with time := { d.time with gens := [(3, g)] } }
    let pulse (fl : Nat) := fields [(1, 3), (1, 31), (1, fl), (1, 0), (4, 5), (8, 100), (8, 6), (8, if fl / 2 % 2 = 1 then 0 else 1), (8, 0)]
    let ready : WallGen := { on := true, pin := 31, continuous := true, width := 5, period := 6 }
    starts wtStatusSpec (asks 0x0980 []) = true ∧
    (∀ t ∈ [0, 1002000], starts wtStepSpec (asks 0x0981 (fields [(1, 1), (1, 1), (6, 0), (8, 5), (8, t)])) (fun c => c.arg 16 8 = t) = true) ∧
    (∀ fl ∈ [0, 1], (nextStep (step fl dev0)).any (fun c => bitOf (c.arg 1 1) 0 = decide (fl = 1)) = true) ∧ dev0.time.stepped = false ∧
    starts wtRateSpec (asks 0x0982 (fields [(4, 549755813), (4, 0)])) = true ∧
    starts wtPulseSpec (asks 0x0983 (pulse 7)) (fun c => bitOf (c.arg 2 1) 0) = true ∧ (dev0.gen 3).on = false ∧ (dev0.gen 3).pulseEnd = none ∧
    dev0.marker.safe = false ∧ starts wtPulseSpec (asks 0x0983 (pulse 0)) (fun c => !bitOf (c.arg 2 1) 0) = true ∧
    (∀ e ∈ [none, some 1000005], starts wtPulseSpec (asks 0x0983 (pulse 0) (gen { ready with pulseEnd := e })) = true ∧
      ((gen { ready with pulseEnd := e } dev0).gen 3).on = true ∧ ((gen { ready with pulseEnd := e } dev0).gen 3).pulseEnd = e) ∧
    (∀ i ∈ [30, 31], let g := { ready with pulseEnd := some 1000005, pulsePin := i }
      g.stopping = false ∧ Store.wf {} (gen g dev0).time.gens = true ∧ (g.pulsePin = g.pin ↔ i = 31)) ∧
    ready.stopping = false ∧ ready.pulseEnd = none ∧ ready.continuous = true ∧ Store.wf {} (gen ready dev0).time.gens = true := by decide

theorem test_witness_Markers :
    let vector : MkVector := { rep := 1 }
    let playing (p : MarkPlay) : Dev := { dev0 with marker := { vectors := [(65535, vector)], play := some p } }
    let p : MarkPlay := { item := { kind := .mark, stage := 96, addr := 65535, count := 1 }, start128 := 0, vec := 65535, rep := 0, at128 := 0 }
    let d := playing p
    (∀ b ∈ [0, 1], starts (mkvStatusSpec 5) (asks 0x0A00 (fields [(1, b), (3, 0)])) (fun c => bitOf (c.arg 0 1) 0 = decide (b = 1)) = true) ∧
    starts mkvTsetWriteSpec (asksBulk 0x0A02 (fields [(1, 7), (3, 0), (4, 65536)] ++ zeros 128)) = true ∧
    starts mkvWriteSpec (asks 0x0A03 (fields [(2, 65535), (2, 0), (4, 1), (16, 4), (1, 7), (3, 0), (4, 16777216)])) = true ∧
    starts mkvReadSpec (asks 0x0A04 (fields [(2, 65535), (2, 0), (4, 1)])) = true ∧
    d.marker.play = some p ∧ nextPeriod d.marker (p.item.addr + p.item.count) (p.item.count + 1) p.vec p.rep = some (65535, 0) ∧
    failingPins d.marker (d.marker.vector 65535) 0 0 = [] ∧ Store.wf 2 d.marker.pins = true ∧ p.item.count = 1 ∧ 0 < vector.rep ∧
    (let drive := p.start128 + Store.get 0 (d.marker.tset vector.tset).ofs 0
     p.drivenTo ≤ drive ∧ drive ≤ 1 ∧ (0 : Nat) < drive + 1) ∧
    nextPeriod d.marker (p.item.addr + p.item.count) (p.item.count + 1) p.vec 1 = none := by decide

/-- Port 83 unplugged and plugged in again, with no other cause; holds that wait, that are in force and that are latched. -/
theorem test_witness_BenchEnds :
    let plugged (d : Dev) : Dev := d.setPort 83 { off := false, causes := [.unplug], sense := 2 }
    let held (b : Bench) (d : Dev) : Dev := { d with bench := b }
    let name (o : Bool) : List Byte := zeros 10 ++ le 1 8 ++ zeros 1 ++ le 1 (flag o 0) ++ zeros 3
    let names (c : Cmd) : Bool := (BitVec.ofNat 96 (c.arg 0 12)).getLsbD 83
    (∀ f ∈ [id, runs], starts benchResumeSpec (asks 0x0A07 (name false) (plugged ∘ f)) (fun c => !bitOf (c.arg 12 1) 0 && names c) = true) ∧
    ((plugged dev0).port 83).causes = [.unplug] ∧ senseNow (plugged dev0) 83 = 2 ∧ Store.wf {} (plugged dev0).ports = true ∧ 83 ∈ outputs (on id).fuse ∧
    starts benchResumeSpec (asks 0x0A07 (zeros 12 ++ le 1 1 ++ zeros 3) (held { hold := .latched })) (fun c => c.arg 0 12 = 0 && bitOf (c.arg 12 1) 0) = true ∧
    running dev0 = false ∧ (held { hold := .latched } dev0).bench.resumeHold = false ∧ firmwareRuns dev0 = true ∧ dev0.bench.pressed = false ∧
    dev0.bench.hold = .released ∧ Store.wf {} dev0.ports = true ∧
    (∀ h ∈ [HoldState.waiting, .inForce], ∀ f ∈ [id, runs], let d := held { pressed := true, hold := h } (f dev0)
      d.hif.state = .ready ∧ d.bench.pressed = true ∧ d.bench.pressLatch = false ∧ d.bench.hold = h) ∧
    ((dev0.setPort 83 { causes := [.hold] }).port 83).causes = [.hold] := by decide

theorem test_witness_Bench :
    let bench (b : Bench) : Dev := { dev0 with bench := b }
    let active : Dev := (dev0.setPort 83 { off := false, safe := false, causes := [] }).setStage 83 { queue := [{ kind := .play, stage := 83 }] }
    starts benchStatusSpec (asks 0x0A05 []) = true ∧ starts benchConfigSpec (asks 0x0A06 (fields [(1, 3), (3, 0), (12, 1), (12, 2)])) = true ∧
    starts benchResumeSpec (asks 0x0A07 (fields [(12, 0), (1, 1), (3, 0)]) (fun d => { runs d with bench := { hold := .latched } }))
      (fun c => c.arg 0 12 = 0 && bitOf (c.arg 12 1) 0) = true ∧
    (bench { hold := .latched }).bench.pressed = false ∧ running (runs dev0) = true ∧
    starts benchResumeSpec (asks 0x0A07 (zeros 16)) (fun c => c.arg 0 12 = 0 && !bitOf (c.arg 12 1) 0) = true ∧
    starts indConfigSpec (asks 0x0A08 (List.replicate 8 11)) = true ∧ (on id).fuse.hasPort 83 = true ∧ dev0.bench.senseOff.getLsbD 83 = false ∧
    portKind 83 ≠ .flux ∧ (∀ q ∈ [{}, ({ lastSense := 2 } : Port)], let e := settlePort 83 (paced (.sense 83) (dev0.setPort 83 q))
      idleForTest e 83 = true ∧ (e.port 83).lastSense = q.lastSense ∧ (e.port 83).sense ≠ 2 ∧ (e.port 83).causes.contains .unplug = false ∧
      e.bench.senseOff.getLsbD 83 = false ∧ Store.wf {} e.ports = true) ∧ ({} : Port).lastSense ≠ 2 ∧ portActive (settlePort 83 active) 83 = true ∧ inGap active = false ∧
    (let gap : Dev := { active with mirror := { sw := some { t := 1000000, reason := 3 } } }
     inGap gap = true ∧ portActive (settlePort 83 gap) 83 = true) ∧
    (let flux : Dev := settlePort 56 (dev0.setPort 56 { off := false, safe := false, causes := [], sense := 2 })
     (on id).fuse.hasPort 56 = true ∧ portKind 56 = .flux ∧ flux.bench.senseOff.getLsbD 56 = false ∧ fluxBelow flux 56 = true ∧
     (flux.port 56).sense ≠ 0 ∧ Store.wf {} flux.ports = true) ∧ firmwareRuns active = true ∧
    dev0.hif.state = .ready ∧ dev0.bench.pressed = false ∧ dev0.bench.hold = .released ∧ dev0.bench.hard = false ∧ running dev0 = false ∧
    (bench { pressed := true, hold := .inForce, pressLatch := true }).bench.hold = .inForce ∧ firmwareRuns ({} : State).dev = false ∧
    ({} : State).dev.hif.state ≠ .ready ∧ ({} : State).dev.thermal.isShut = false ∧ ({} : State).dev.wr = [] ∧
    dev0.wr = [] ∧ (5 : BitVec 8).toNat ≤ 5 ∧ (0x58 : BitVec 7).toNat = dev0.bench.smbAddr ∧ (0x5B : BitVec 7).toNat ≠ dev0.bench.smbAddr ∧
    ({ dev0 with thermal := { isShut := true } } : Dev).thermal.isShut = true ∧ dev0.thermal.isShut = false := by decide

/-! Links, mirror, ledgers, temperature and rails. -/

/-- The widest values of a frame's fields. -/
theorem test_witness_LinkFrame :
    let f : LinkFrame := {
      seq := 65535, slot := 4294967295, shotBase := 281474976710655, timed := true, ack := 65535, creditRet := 255
      chords := [{ dev := 15, slow := true, chan := 255, ord := 3, shot := 281474976710656, state := some 3 }]
      fire := some ⟨255, 18446744073709551615, true⟩, ctrl := some { type := 4, origin := 255, members := 65535, cycle := 4294967295 }
      seg := some { seq := 65535, bytes := List.replicate 32 255 } }
    f.seq < 2 ^ 16 ∧ f.slot < 2 ^ 32 ∧ f.shotBase < 2 ^ 48 ∧ f.ack < 2 ^ 16 ∧ f.creditRet < 2 ^ 8 ∧ f.chords.length ≤ 48 ∧
    (∀ c ∈ f.chords, c.dev < 16 ∧ c.chan < 256 ∧ c.ord < 4 ∧ (c.shot = f.shotBase ∨ c.shot = f.shotBase + 1)) ∧
    f.fire.all (fun m => decide (m.origin < 2 ^ 8 ∧ m.t < 2 ^ 64)) = true ∧
    f.ctrl.all (fun m => decide (m.type = 4 ∧ m.origin < 2 ^ 8 ∧ m.members < 2 ^ 16 ∧ m.fireDelay < 2 ^ 16 ∧ m.armAt < 2 ^ 64 ∧ m.count < 2 ^ 32 ∧
      m.cycle < 2 ^ 32)) = true ∧
    f.seg.all (fun g => decide (g.seq < 2 ^ 16 ∧ g.bytes.length = 32 ∧ g.age = 0 ∧ g.again = false ∧ g.lost = false)) = true := by decide

theorem test_witness_LinkCommands :
    let link (k : Link) (d : Dev) : Dev := d.setLink 3 k
    let config (en : Nat) := fields [(1, 3), (1, en), (4, 0x0F0F0F0F), (2, 0)]
    let domain := fields [(2, 1), (1, 0), (1, 0xFF)] ++ [0xFE] ++ List.replicate 15 0xFF ++ zeros 12
    starts lnkStatusSpec (asks 0x0B00 (fields [(1, 3), (1, 1), (2, 0)])) = true ∧
    (∀ en ∈ [0, 1], starts lnkConfigSpec (asks 0x0B01 (config en)) (fun c => bitOf (c.arg 1 1) 0 = decide (en = 1)) = true) ∧
    (dev0.link 3).stage = 0 ∧ Store.wf {} dev0.links = true ∧ starts lnkConfigSpec (asks 0x0B01 (config 1) (link { stage := 4 })) = true ∧
    (∀ st ∈ [4, 5], starts lnkTrainSpec (asks 0x0B02 (fields [(1, 3), (3, 0)]) (link { stage := st })) = true ∧
      ((link { stage := st } dev0).link 3).stage = st) ∧ Store.wf {} (link { stage := 4 } dev0).links = true ∧
    (∀ en ∈ [1, 3], ∀ b ∈ [false, true], starts lnkConfigSpec (asks 0x0B01 (config en) (link { stage := 5, isIdle := b }))
      (fun c => bitOf (c.arg 1 1) 1 = decide (en = 3)) = true ∧ ((link { stage := 5, isIdle := b } dev0).link 3).isIdle = b) ∧
    Store.wf {} (link { stage := 5 } dev0).links = true ∧ starts lnkDomainSpec (asks 0x0B03 domain) = true ∧
    (∀ j : Fin 4, linkActive (dev0.link j) = false) ∧ starts lnkDomainSpec (asks 0x0B03 domain (link { stage := 5 })) = true ∧
    linkActive ((link { stage := 5 } dev0).link 3) = true ∧
    starts (lnkAlignSpec 40000000 0) (asks 0x0B04 (zeros 16) (fun d => { d.setLink 0 { stage := 5, peerMean := some 0 } with domain := { id := 1, parent := 0 } })) = true ∧
    starts (lnkAlignSpec 40000000 0) (asks 0x0B04 (zeros 16) (fun d => { d.setLink 0 { stage := 5, peerDepth := 0 } with domain := { id := 1, parent := 0 } })) = true := by
  decide

/-- A frame that was sent is intact, and 240 zero bytes are not. -/
theorem test_witness_LinkFrames : (frameOf (frameBytes { slot := 5 })).isSome = true ∧ (frameOf (zeros 240)).isNone = true := by decide +kernel

/-- `capabilityBytes` is what a peer of domain 0 sends. -/
theorem test_witness_Links :
    let link (k : Link) : Dev := dev0.setLink 3 k
    let g : Segment := { seq := 0, bytes := capabilityBytes (on id).ctx dev0 }
    let other : Segment := { seq := 0, bytes := le 1 2 ++ zeros 31, age := 64 }
    let aligned := { link { stage := 5, peerDomain := 1 } with domain := { id := 1, parent := 3, aligned := true } }
    let slews := holds 0x0B04 7 [] { dev0 with domain := { alignSeq := some 7 } }
    (∀ st ∈ [1, 2, 3, 4, 5], ((link { stage := st }).link 3).stage = st ∧ ((link { stage := st }).link 3).failAt = none ∧
      ((link { stage := st }).link 3).isIdle = false ∧ Store.wf {} (link { stage := st }).links = true) ∧ dev0.wr = [] ∧
    ((link { stage := 4, segIn := [g] }).link 3).segIn.find? isCapability = some g ∧ dev0.domain.id = 0 ∧ (20000000 : Int) ≤ 20000000 ∧
    (64 : Nat) ≤ 64 ∧ (64 : Nat) < 65 ∧ ((link { stage := 2, failAt := some 5 }).link 3).failAt = some 5 ∧
    aligned.domain.id ≠ 0 ∧ (aligned.link 3).peerDomain = aligned.domain.id ∧ (-4 : Int).natAbs ≤ 4 ∧
    (aligned.link 3).crcWindow = 0 ∧ (aligned.link 3).crcTimes = [] ∧ ((link { held := [{}] }).link 3).held = [{}] ∧
    ((link { held := [{}] }).link 3).timed = false ∧
    (∀ ty ∈ [0, 1, 2, 3], let q : Segment := { seq := 0, bytes := le 1 ty ++ zeros 31 }
      ((link { segIn := [q] }).link 3).segIn = [q] ∧ fld q.bytes 0 1 = ty) ∧
    ((link { unacked := [other] }).link 3).unacked.find? (fun q => decide (64 ≤ q.age) && !q.again) = some other ∧
    ((link { exitAt := some 5 }).link 3).exitAt = some 5 ∧ aligned.domain.aligned = true ∧ linkActive (aligned.link aligned.domain.parent) = true ∧
    (let parent : Dev := { link { stage := 5, credits := 0 } with domain := { id := 1, dev := 0, parent := 0xFF } }
     linkActive (parent.link 3) = true ∧ parent.domain.id ≠ 0 ∧ parent.domain.parent ≠ 3 ∧ (parent.link 3).credits = 0 ∧
     (parent.link 3).unacked = [] ∧ (parent.link 3).failAt = none) ∧
    (5000 : Int).natAbs ≤ 5000 ∧ 5000 < (-5001 : Int).natAbs ∧ running (runs aligned) = true ∧ slews.domain.alignSeq = some 7 ∧
    (cmdOf slews 7).isSome = true ∧ (-500 : Int).natAbs ≤ 500 ∧ 500 < (501 : Int).natAbs := by decide

/-- A timed link with a held frame: a chord of device 2, which INGRESS places on this link or elsewhere, and messages that have not come before. -/
theorem test_witness_TimedRelease :
    let f : LinkFrame := { slot := 62500, chords := [{ dev := 2, chan := 5 }], fire := some ⟨2, 5, false⟩, ctrl := some { type := 2, origin := 2 } }
    let d (ingress : Nat) : Dev := { dev0.setLink 3 { stage := 5, timed := true, held := [f] } with domain := { id := 1, ingress := [(2, ingress)] } }
    ((d 3).link 3).held = [f] ∧ linkTimed ((d 3).link 3) = true ∧ Store.get 0 (d 3).domain.ingress 2 = 3 ∧ Store.get 0 (d 1).domain.ingress 2 ≠ 3 ∧
    ((d 3).link 3).seenFires.contains (2, 5) = false ∧ ((d 3).link 3).seenCtrls.contains (2, 2, 0) = false ∧ Store.wf {} (d 3).links = true := by decide

/-- A running program whose ray issues one MARK item in its shot 0, which the standby shadows, on its copy of the core. -/
def shadowed : Dev :=
  let d := runs dev0
  let core : Core := { d.core with
    progMem := [(0, BitVec.ofNat 64 (0x1C * 2 ^ 56 + 2 ^ 32)), (1, BitVec.ofNat 64 (2 ^ 56))], rays := [(0, { st := .running })], shots := [{ num := 0 }]
    run := { d.core.run with k := 1, issued := 1 } }
  { d with core := core, mirror := { standby := 4, copyResume := { rays := core.rays }, shadowFrom := core } }

/-- The standby computes that token, and a fault that changes it shows; without one the shot passes. -/
theorem test_witness_Shadow :
    let other : ShadowTok := { stage := 5, voff := 0, locus := [], ftw := 0, z := 0, operands := [] }
    ((shadowRun 0 (on id).ctx shadowed).map fun t => (t.kind, t.stage, t.count)) = [(.mark, 96, 1)] ∧
    shadowBad [(0, other)] (on id).ctx shadowed = true ∧ shadowBad [] (on id).ctx shadowed = false ∧ shadowed.mirror.recentErrors = 0 := by
  decide +kernel

/-- A takeover with nothing to undo, for each state of the standby it may find, and a write to the envelope store that is undone. -/
theorem test_witness_Takeover :
    let d (n : Nat) : Dev := { dev0 with mirror := { standby := n }, env := [(7, 5)] }
    let u : Undo := { seq := 9, before := sharedOf dev0, after := sharedOf (d 4) }
    (d 4).mirror.standby = 4 ∧ (d 5).mirror.standby = 5 ∧ (d 4).mirror.undo = [] ∧ (d 4).cal.committing = none ∧ (d 4).images.writeSeq = none ∧
    Store.wf {} (d 4).acq.rings = true ∧ u.seq = 9 ∧ Store.wf 0 (d 4).env = true ∧
    (undoCommands (fun n => n = 9) { d 4 with mirror := { undo := [u] } }).env = [] := by decide +kernel

/-- A standby that may not take over, one whose self-test has latched, and one that alone still hears. -/
theorem test_witness_Standby :
    let mirror (m : Mirror) : Dev := { dev0 with mirror := m }
    let later : Dev := advance (silentAt true (mirror { standby := 4, takeover := false }) - dev0.time.raw) (mirror { standby := 4, takeover := false })
    silent later false true = true ∧ silent later true true = true ∧ mayTakeOver later = false ∧ mayTakeOver (mirror { standby := 4, takeover := false }) = false ∧
    firmwareRuns dev0 = true ∧ mayTakeOver dev0 = false ∧ (mirror { standby := 3, errLatched := true }).mirror.errLatched = true ∧
    (let d := mirror { standby := 4, seen := [(0, 1), (1, 1000000), (2, 1), (3, 1000000)] }
     let e := advance (silentAt true d - d.time.raw) d
     silent e true true = false ∧ silent e false false = true ∧ silent e true false = true) := by decide

theorem test_witness_Mirror :
    let mirror (m : Mirror) (d : Dev) : Dev := { d with mirror := m }
    let e : Nat × Core × Resume := (5, {}, {})
    let sw : SwitchOver := { t := 1000000, reason := 3 }
    let hears : Mirror := { standby := 4, seen := [(0, 1000000), (1, 1000000), (2, 1), (3, 1)] }
    let later (m : Mirror) (offDie : Bool) : Dev := advance (silentAt offDie (mirror m dev0) - dev0.time.raw) (mirror m dev0)
    let owing : Dev := dev0.setRing 0 { done := 1 }
    starts mirStatusSpec (asks 0x0C00 []) = true ∧ starts mirSwitchSpec (asks 0x0C01 [] (mirror { standby := 4 } ∘ runs)) = true ∧
    running (runs dev0) = true ∧ starts mirResyncSpec (asks 0x0C02 (zeros 4) (mirror { standby := 4 })) (fun c => !bitOf (c.arg 0 1) 0) = true ∧
    starts mirConfigSpec (asks 0x0C03 (fields [(1, 7), (3, 0)])) = true ∧ dev0.wr = [] ∧ (on id).fuse.duplex = true ∧ firmwareRuns dev0 = true ∧
    dev0.mirror.sw = none ∧ followsEpochs (mirror { standby := 5, closed := some e } dev0) = true ∧
    (mirror { standby := 5, closed := some e } dev0).mirror.closed = some e ∧
    (∀ b ∈ [false, true], coreUp (mirror { standby := 3 } dev0) b = true) ∧ hears.sw = none ∧ 3 ≤ hears.standby ∧
    (let d := later { standby := 4 } true
     silent d false true = true ∧ silent d true true = true ∧ mayTakeOver (mirror { standby := 4 } dev0) = true ∧ !d.hif.core = true) ∧
    (let d := later hears true
     silent d true true = true ∧ silent d false true = false ∧ silent d false false = false ∧ d.mirror.onDieFault = false ∧ d.mirror.offDieFault = false) ∧
    (∀ b ∈ [false, true], let d := mirror { standby := 4, seen := [0, 1, 2, 3].map fun k => (k, 1000000), offDieFault := b, onDieFault := !b } dev0
      pathFaulted d b = true ∧ carries d b false = true ∧ carries d b true = true) ∧ (mirror { sw := some sw } (runs dev0)).mirror.sw = some sw ∧ sw.gapOver = false ∧
    running (mirror { sw := some sw } (runs dev0)) = true ∧ (mirror { deposedRunning := true } dev0).mirror.deposedRunning = true ∧
    firmwareRuns (mirror { standby := 3 } dev0) = true ∧ (mirror { standby := 4, recentErrors := 2 } dev0).mirror.shadow = true ∧
    dev0.time.raw ≤ (mirror { standby := 4, recentErrors := 2, resyncEnd := 0 } dev0).mirror.resyncEnd + 1000000000 ∧
    unbalanced { dev0 with mbs := [] } = [] ∧ 
    (let d : Dev := { owing with mbs := [], ledger := { suspects := [((2, 0), 0)] } }
     unbalanced d = [(2, 0)] ∧ d.ledger.suspects = [((2, 0), 0)] ∧ 0 + 1000000 ≤ (paced .ledger d).time.raw) := by decide

theorem test_witness_Thermal :
    let thermal (t : Thermal) : Dev := { dev0 with thermal := t }
    let v : Convert := { channel := 0, sub := 0, gain := 0, count := 2, interval := 500, due := 0, seq := 7 }
    let converts : Dev := holds 0x0D02 7 [] { dev0 with house := { conv := some v } }
    let readings := (List.replicate 24 (SensorReading.temp 480)).map SensorReading.value
    dev0.wr = [] ∧ starts thmStatusSpec (asks 0x0D00 []) = true ∧
    starts thmConfigSpec (asks 0x0D01 (fields [(1, 1), (3, 0), (2, 2400), (2, 0), (2, 0), (2, 0), (2, 9000), (2, 11000), (2, 9000), (2, 9000), (4, 0)])) = true ∧
    dev0.thermal.remotes = [] ∧
    starts hkaConvertSpec (asks 0x0D02 (fields [(1, 63), (1, 3), (1, 2), (1, 0), (4, 65536), (4, 1000000000), (4, 0)])) = true ∧
    starts hkaConfigSpec (asks 0x0D03 (fields [(1, 1), (3, 0)])) = true ∧
    starts railStatusSpec (asks 0x0D04 (zeros 4)) (fun c => !bitOf (c.arg 0 1) 0) = true ∧ firmwareRuns dev0 = true ∧
    readings.length = 24 ∧ readings.getD 23 none = some 480 ∧ checkReading (paced .sensors dev0) readings 23 = 0 ∧ Store.wf {} dev0.thermal.sensors = true ∧ (dev0.sensor 23).state = 0 ∧
    (thermal { band := 3, bandCool := [(3, some 5)] }).thermal.band ≠ 0 ∧ Store.get none (thermal { band := 3, bandCool := [(3, some 5)] }).thermal.bandCool 3 = some 5 ∧
    (thermal { warning := true, warnCool := some 5 }).thermal.warnCool = some 5 ∧ (thermal { level := 1, levelCool := [(1, some 5)] }).thermal.level ≠ 0 ∧
    Store.get none (thermal { level := 1, levelCool := [(1, some 5)] }).thermal.levelCool 1 = some 5 ∧ running dev0 = false ∧
    (let low (d : Dev) : Dev := { d with thermal := { periodUs := 10000 }, house := { lowPower := true } }
     lowPowerNow (low dev0) = true ∧ starts hkaConfigSpec (asks 0x0D03 (zeros 4) low) (fun c => c.arg 0 1 ≠ 1) = true) ∧
    running (runs dev0) = true ∧ Store.wf {} dev0.house.rails = true ∧ converts.house.conv = some v ∧ v.n + 1 < v.count ∧
    ({ v with count := 1 } : Convert).count ≤ v.n + 1 ∧ (cmdOf converts v.seq).any (fun c => !c.dead) = true := by decide

end Sys2Proof.Tests
end

section
/-! The write-1-to-clear registers EVT_PEND and HIF_ERR (R16, R44, R55): the rule of one access, bit by bit, and where the
mask of EVT_PENDk lies among the 256 event sources. -/

namespace Sys2Proof.Machine

/-- What a W1C access leaves of a register (R16): the bits written 1 clear, those of them that the device sets in the same cycle
stay set. -/
def writeOneClear {w : Nat} (cur mask setNow : BitVec w) : BitVec w := (cur &&& ~~~mask) ||| (mask &&& setNow)

theorem getLsbD_writeOneClear {w i : Nat} (cur mask setNow : BitVec w) (hi : i < w) :
    (writeOneClear cur mask setNow).getLsbD i = if mask.getLsbD i = true then setNow.getLsbD i else cur.getLsbD i := by
  simp only [writeOneClear, BitVec.getLsbD_or, BitVec.getLsbD_and, BitVec.getLsbD_not, hi]
  cases mask.getLsbD i <;> simp

/-- The 32 bits of EVT_PENDk at their place among the 256 event sources: bit j stands for source 32 × k + j. -/
def pendWord (k : Nat) (m : BitVec 32) : BitVec 256 := BitVec.ofNat 256 (m.toNat * 2 ^ (32 * k))

theorem getLsbD_pendWord {k i : Nat} (m : BitVec 32) (hi : i < 256) :
    (pendWord k m).getLsbD i = (decide (i / 32 = k) && m.getLsbD (i % 32)) := by
  rw [pendWord, BitVec.getLsbD_ofNat, Nat.testBit_mul_two_pow, BitVec.testBit_toNat]
  by_cases hk : i / 32 = k
  · have hoff : i - 32 * k = i % 32 := by omega
    have hle : 32 * k ≤ i := by omega
    simp [hi, hk, hoff, hle]
  · by_cases hle : 32 * k ≤ i
    · have hbeyond : m.getLsbD (i - 32 * k) = false := BitVec.getLsbD_of_ge _ _ (by omega)
      simp [hk, hbeyond]
    · simp [hk, hle]

theorem pendWord_and (k : Nat) (m n : BitVec 32) : pendWord k (m &&& n) = pendWord k m &&& pendWord k n := by
  apply BitVec.eq_of_getLsbD_eq
  intro i hi
  simp only [BitVec.getLsbD_and, getLsbD_pendWord _ hi]
  cases decide (i / 32 = k) <;> simp

/-- EVT_PEND_CLEAR is the W1C rule on the 256 pending bits. -/
theorem pendClear_eq (k : Nat) (mask setNow : BitVec 32) (x : Ctx) (d : Dev) :
    pendClear k mask setNow x d =
      { d with evt := { d.evt with pend := writeOneClear d.evt.pend (pendWord k mask) (pendWord k setNow) } } := by
  rw [writeOneClear, ← pendWord_and]
  rfl

/-- HIF_ERR_CLEAR is the W1C rule on the four bits of HIF_ERR. -/
theorem errClear_eq (mask setNow : BitVec 32) (x : Ctx) (d : Dev) :
    errClear mask setNow x d =
      { d with hif := { d.hif with err := writeOneClear d.hif.err (mask.setWidth 4) (setNow.setWidth 4) } } := by
  rw [writeOneClear, ← BitVec.setWidth_and]
  rfl

theorem exec_evtPendClear {k : Fin 8} {mask setNow : BitVec 32} {s : State} (hwr : s.dev.wr = []) :
    exec (.evtPendClear k mask setNow) s = .next { s with dev := { s.dev with evt := { s.dev.evt with
      pend := writeOneClear s.dev.evt.pend (pendWord k mask) (pendWord k setNow) } } } := by
  have hrow : exec (.evtPendClear k mask setNow) s = .next (s.on (pendClear k mask setNow)) := rfl
  rw [hrow, State.on_quiet hwr, pendClear_eq]

theorem exec_hifErrClear {mask setNow : BitVec 32} {s : State} (hwr : s.dev.wr = []) :
    exec (.hifErrClear mask setNow) s = .next { s with dev := { s.dev with hif := { s.dev.hif with
      err := writeOneClear s.dev.hif.err (mask.setWidth 4) (setNow.setWidth 4) } } } := by
  have hrow : exec (.hifErrClear mask setNow) s = .next (s.on (errClear mask setNow)) := rfl
  rw [hrow, State.on_quiet hwr, errClear_eq]

/-- Settles O16: each of the two rows is the one W1C rule `writeOneClear`, on the register's own bits; a source outside EVT_PENDk
lies outside its mask. -/
theorem writeOneClearsABitNotJustSet : Obligations.WriteOneClearsABitNotJustSet := by
  intro k mask setNow s hwr
  refine ⟨⟨_, exec_evtPendClear hwr, fun i hi => ?_⟩, ⟨_, exec_hifErrClear hwr, fun i hi => ?_⟩⟩
  · rw [getLsbD_writeOneClear _ _ _ hi, getLsbD_pendWord _ hi, getLsbD_pendWord _ hi]
    by_cases hk : i / 32 = k.val <;> simp [hk]
  · rw [getLsbD_writeOneClear _ _ _ hi]
    simp only [BitVec.getLsbD_setWidth, hi, decide_true, Bool.true_and]

end Sys2Proof.Machine
end

section
/-! Staged commands (R29): which rows begin a staged kind, and what each such row does with a command that passes its checks. -/

namespace Sys2Proof.Machine

/-- The rows of `commandOf` are mailbox rows. -/
theorem exec_of_commandOf {i : Instr} {sp : CmdSpec} {mb : Fin 32} {h : HostSide} (hi : commandOf i = some (sp, mb, h)) (s : State) :
    exec i s = cmdRow sp mb h s := by
  cases i <;> cases hi <;> rfl

/-- A staged kind's effect is staging or applying; a frame change asks first whether it sets anything (R183). RP_STOP and RP_APPLY
stage only some of their commands (R305, R307). -/
theorem act_of_staged_kind {i : Instr} {sp : CmdSpec} {mb : Fin 32} {h : HostSide} (hi : commandOf i = some (sp, mb, h))
    (hs : stagedOps.contains sp.op = true) (hstop : sp.op ≠ 0x0606) (hrpApply : sp.op ≠ 0x0607) :
    sp.act = stageOrApply ∨ sp.act = frameAct ∧ (sp.op = 0x0302 ∨ sp.op = 0x0381) := by
  cases i with
  | prtFrameSet => cases hi; exact .inr ⟨rfl, .inl rfl⟩
  | prtProbeTone => cases hi; exact .inr ⟨rfl, .inr rfl⟩
  | rpStop => cases hi; exact absurd rfl hstop
  | rpApply => cases hi; exact absurd rfl hrpApply
  | latSetPeriod | latSync | prtDriveConfig | prtEnvWrite | prtFluxConfig | prtFluxDc | prtProbeConfig | prtAcqConfig | locWrite
  | roChConfig | roWeights | roDisc | chTableWrite | chExport | rpAttach | calWrite | mkvPinConfig => cases hi; exact .inl rfl
  | _ => cases hi <;> cases hs

/-- The command that a row begins has the row's opcode. -/
theorem begins_op {sp : CmdSpec} {mb : Nat} {h : HostSide} {s : State} {c : Cmd} (hb : s.begins sp mb h = some c) : c.op = sp.op := by
  unfold State.begins passing at hb
  split at hb
  · cases hb
  · split at hb
    · rename_i hop
      obtain ⟨rfl, -⟩ := checked_some hb
      exact hop
    · cases hb

theorem frameAct_of_sets {x : Ctx} {c : Cmd} {d : Dev} (h : c.arg 2 1 ≠ 0) : frameAct x c d = stageOrApply x c d := if_neg h

theorem stageOrApply_of_running {x : Ctx} {c : Cmd} {d : Dev} (h : running d = true) :
    stageOrApply x c d = putCmd { c with staged := true } d := if_pos h

theorem stageOrApply_of_idle {x : Ctx} {c : Cmd} {d : Dev} (h : running d = false) : stageOrApply x c d = applyNow x c d :=
  if_neg (by simp [h])

/-- Two effects of a command that agree on the device it begins on give one next state. -/
theorem State.during_congr {s : State} {h : HostSide} {c : Cmd} {f g : Ctx → Dev → Dev}
    (hfg : f (s.sync h).ctx (putCmd c (s.sync h).dev) = g (s.sync h).ctx (putCmd c (s.sync h).dev)) : s.during h c f = s.during h c g :=
  State.on_congr (by simp only [journal, hfg])

/-- The row of a staged kind stages or applies its command, where a frame change sets something. -/
theorem exec_staged_kind {i : Instr} {sp : CmdSpec} {mb : Fin 32} {h : HostSide} {s : State} {c : Cmd}
    (hi : commandOf i = some (sp, mb, h)) (hs : stagedOps.contains sp.op = true) (hb : s.begins sp mb h = some c)
    (hsets : sp.op = 0x0302 ∨ sp.op = 0x0381 → c.arg 2 1 ≠ 0) (hstop : sp.op ≠ 0x0606) (hrpApply : sp.op ≠ 0x0607) :
    exec i s = .next (s.during h c fun x d => stageOrApply x c d) := by
  rw [exec_of_commandOf hi, cmdRow_begins hb]
  obtain hact | ⟨hact, hop⟩ := act_of_staged_kind hi hs hstop hrpApply
  · rw [hact]
  · rw [hact]
    simp only [frameAct_of_sets (hsets hop)]

/-- Settles O32: every row of a staged kind is `stageOrApply`, whose two branches are the two clauses. -/
theorem stagedCommandsWaitForTheMeridian : Obligations.StagedCommandsWaitForTheMeridian := by
  intro i sp mb h s c hi hs hb hsets hstop hrpApply
  rw [exec_staged_kind hi hs hb hsets hstop hrpApply, ← begins_op hb]
  refine ⟨fun hrun => congrArg _ (State.during_congr ?_), fun hidle => congrArg _ (State.during_congr ?_)⟩
  · exact stageOrApply_of_running hrun
  · exact stageOrApply_of_idle hidle

end Sys2Proof.Machine
end

section
/-! Shots and meridians (R25, R28): what the opening of a shot settles among the frames, and what a meridian leaves alone before its
steps are taken. -/

namespace Sys2Proof.Machine

/-- `e` differs from `d` in the frames at most. -/
def FramesOnly (d e : Dev) : Prop := ∃ fs, e = { d with core := { d.core with frames := fs } }

theorem FramesOnly.refl (d : Dev) : FramesOnly d d := ⟨d.core.frames, rfl⟩

theorem FramesOnly.setFrame {d e : Dev} (h : FramesOnly d e) (k : Nat) (f : Frame) : FramesOnly d (e.setFrame k f) := by
  obtain ⟨fs, rfl⟩ := h
  exact ⟨_, rfl⟩

/-- A token's frame update writes frames alone, whatever its kind. -/
theorem FramesOnly.applyFrame {d e : Dev} (h : FramesOnly d e) (t : Tok) : FramesOnly d (applyFrame t e).1 := by
  unfold Machine.applyFrame
  cases t.kind with
  | setf | vz => exact h.setFrame _ _
  | play =>
    simp only
    split
    · exact h
    · exact h.setFrame _ _
  | window | mark => exact h

theorem FramesOnly.applyFrameSet {d e : Dev} (h : FramesOnly d e) (p : List Byte) : FramesOnly d (applyFrameSet p e) := h.setFrame _ _

/-- What `applyFrames` does with one token of the fabric: its frame update, and whether it stays in the fabric. -/
def applyFrameStep (p : Tok → Bool) (acc : Dev × List Tok) (t : Tok) : Dev × List Tok :=
  if !t.framed && p t then ((applyFrame t acc.1).1, if t.kind.isItem then acc.2 ++ [(applyFrame t acc.1).2] else acc.2)
  else (acc.1, acc.2 ++ [t])

theorem applyFrames_eq (p : Tok → Bool) (d : Dev) :
    applyFrames p d =
      let r := d.core.fabric.foldl (applyFrameStep p) (d, [])
      { r.1 with core := { r.1.core with fabric := r.2 } } := rfl

/-- The tokens' frame updates change the frames, and the fabric that holds the tokens. -/
theorem applyFrames_frame (p : Tok → Bool) (d : Dev) :
    ∃ fs ts, applyFrames p d = { d with core := { d.core with frames := fs, fabric := ts } } := by
  have h : FramesOnly d (d.core.fabric.foldl (applyFrameStep p) (d, [])).1 := by
    refine List.foldlRecOn (motive := fun acc : Dev × List Tok => FramesOnly d acc.1) _ _ (FramesOnly.refl d) fun acc hacc t _ => ?_
    unfold applyFrameStep
    split
    · exact hacc.applyFrame t
    · exact hacc
  obtain ⟨fs, hfs⟩ := h
  simp only [applyFrames_eq, hfs]
  exact ⟨fs, _, rfl⟩

/-- Settling the frames for shot `k` changes the frames, the fabric and the frame changes kept for later shots; of these the
ones for shot `k` on are still to come (R227, R165). -/
theorem settleFrames_frame (k : Nat) (d : Dev) : ∃ fs ts done, settleFrames k d = { d with core := { d.core with
    frames := fs, fabric := ts, frameDefer := d.core.frameDefer.filter (fun c => k ≤ c.1), frameDone := done } } := by
  obtain ⟨fs, ts, h1⟩ := applyFrames_frame (fun _ => true) d
  have h2 (cs : List (Nat × List Byte)) (e : Dev) : FramesOnly e (cs.foldl (fun d c => applyFrameSet c.2 d) e) :=
    List.foldlRecOn (motive := FramesOnly e) _ _ (FramesOnly.refl e) fun _ h c _ => h.applyFrameSet c.2
  unfold settleFrames
  simp only [h1]
  obtain ⟨gs, hgs⟩ := h2 (d.core.frameDefer.filter (fun c => c.1 < k)) { d with core := { d.core with frames := fs, fabric := ts } }
  exact ⟨gs, ts, _, by rw [hgs]⟩

/-- The opening of the next shot, where it may open and has not been decided yet (R25, R191, R192). -/
theorem shotOpen_opens {x : Ctx} {d : Dev} (hopen : mayOpen d (d.core.run.shotNext + 1) = true)
    (hundecided : pastDecision d (d.core.run.shotNext + 1) = false) :
    let k := d.core.run.shotNext + 1
    let t := shotOpen x d
    t.core.run = { d.core.run with shotNext := k, issued := (d.core.run.issued + 1) % 2 ^ 64 } ∧
      t.core.shots = d.core.shots ++ [{ num := k, period := d.core.run.period, fails := firstFails d }] ∧
      t.mirror.resume.shot = k ∧ t.core.frameDefer = d.core.frameDefer.filter (fun c => k ≤ c.1) := by
  obtain ⟨fs, ts, done, hsettled⟩ := settleFrames_frame (d.core.run.shotNext + 1)
    { d with core := { d.core with run := { d.core.run with shotNext := d.core.run.shotNext + 1 } } }
  simp [shotOpen, hopen, hundecided, recordResume, hsettled, addW]

/-! What the counts of a converter leave alone. -/

/-- `e` differs from `d` in ports, channels and undecided shots at most. -/
def SampleCountsOnly (d e : Dev) : Prop :=
  ∃ ps cs ss, e = { d with ports := ps, chans := cs, core := { d.core with shots := ss } }

theorem SampleCountsOnly.refl (d : Dev) : SampleCountsOnly d d := ⟨d.ports, d.chans, d.core.shots, rfl⟩

theorem SampleCountsOnly.countEnds {d e : Dev} (h : SampleCountsOnly d e) (k i n : Nat) : SampleCountsOnly d (countEnds k i n e) := by
  unfold Machine.countEnds
  split
  · exact h
  · obtain ⟨ps, cs, ss, rfl⟩ := h
    exact ⟨_, _, _, rfl⟩

theorem SampleCountsOnly.countSats {d e : Dev} (h : SampleCountsOnly d e) (k ch n : Nat) : SampleCountsOnly d (countSats k ch n e) := by
  unfold Machine.countSats
  split
  · exact h
  · obtain ⟨ps, cs, ss, rfl⟩ := h
    exact ⟨_, _, _, rfl⟩

theorem sampleCountsOnly_countAdc (a : AdcSide) (d : Dev) : SampleCountsOnly d (countAdc a d) :=
  have hends := List.foldlRecOn (motive := SampleCountsOnly d) a.ends (fun d' c => countEnds (intervalShot d) c.1 c.2 d')
    (SampleCountsOnly.refl d) fun _ h c _ => h.countEnds _ c.1 c.2
  List.foldlRecOn (motive := SampleCountsOnly d) a.sats _ hends fun _ h c _ => h.countSats _ c.1 c.2

@[simp] theorem countAdc_run (a : AdcSide) (d : Dev) : (countAdc a d).core.run = d.core.run := by
  obtain ⟨ps, cs, ss, h⟩ := sampleCountsOnly_countAdc a d; rw [h]
@[simp] theorem countAdc_rays (a : AdcSide) (d : Dev) : (countAdc a d).core.rays = d.core.rays := by
  obtain ⟨ps, cs, ss, h⟩ := sampleCountsOnly_countAdc a d; rw [h]
@[simp] theorem countAdc_mirror (a : AdcSide) (d : Dev) : (countAdc a d).mirror = d.mirror := by
  obtain ⟨ps, cs, ss, h⟩ := sampleCountsOnly_countAdc a d; rw [h]

/-! The meridian itself. -/

@[simp] theorem takeMeridian_mirror (d : Dev) : (takeMeridian d).mirror = d.mirror := rfl
@[simp] theorem takeMeridian_rays (d : Dev) : (takeMeridian d).core.rays = d.core.rays := rfl
@[simp] theorem takeMeridian_k (d : Dev) : (takeMeridian d).core.run.k = d.core.run.k + 1 := rfl
@[simp] theorem takeMeridian_merid (d : Dev) : (takeMeridian d).time.merid = (takeMeridian d).time.lat := rfl

@[simp] theorem coreFails_core (failed : Bool) (d : Dev) : (coreFails failed d).core = d.core := rfl
@[simp] theorem coreFails_sw (failed : Bool) (d : Dev) : (coreFails failed d).mirror.sw = d.mirror.sw := rfl
@[simp] theorem coreFails_failed (failed : Bool) (d : Dev) : (coreFails failed d).mirror.failed = (d.mirror.failed || failed) := rfl

theorem coreFails_false (d : Dev) : coreFails false d = d := by simp [coreFails]

/-- Whether a switch-over gap is open is a matter of the mirror core alone. -/
theorem inGap_congr {d e : Dev} (h : e.mirror.sw = d.mirror.sw) : inGap e = inGap d := by unfold inGap; rw [h]

/-- A meridian that no core runs only counts (R475). -/
theorem meridianRow_unrun {a : AdcSide} {failed : Bool} {x : Ctx} {d : Dev} (hrun : running d = true) (hfixed : d.core.run.fixed = true)
    (h : inGap d = true ∨ d.mirror.failed = true ∨ failed = true) :
    meridianRow a failed x d = takeMeridian (coreFails failed (countAdc a d)) := by
  have hgap : inGap (takeMeridian (coreFails failed (countAdc a d))) = inGap d := inGap_congr (by simp)
  have hnone : (inGap d || (d.mirror.failed || failed)) = true := by simpa using h
  simp [meridianRow, hrun, hfixed, hgap, hnone]

/-- A meridian of the active core, in no switch-over gap and with none taking place, takes its steps (R28); a planned switch-over that
the standby cannot take part in is refused first. -/
theorem meridianRow_runs {a : AdcSide} {x : Ctx} {d : Dev} (hrun : running d = true) (hfixed : d.core.run.fixed = true)
    (hgap : inGap d = false) (hcore : d.mirror.failed = false) :
    let d2 := outcomeStep d.core.run.k (takeMeridian (countAdc a d))
    (switchesHere d2 && plannedFits d2) = false →
      let d3 := if switchesHere d2 then refuseSwitch d2 else d2
      meridianRow a false x d = laterSteps d.core.run.k x (closeEpoch d3.mirror.resume x d3) := by
  intro d2 hstay
  have hgap1 : inGap (takeMeridian (countAdc a d)) = false := (inGap_congr (by simp)).trans hgap
  have hstay' : ¬(switchesHere d2 && plannedFits d2) = true := by simp [hstay]
  simp only [meridianRow, hrun, hfixed, coreFails_false, hgap1, takeMeridian_mirror, countAdc_mirror, hcore]
  exact if_neg hstay'

/-- Settles O37: each row's operation, in the case the clause names. -/
theorem shotRows : Obligations.ShotRows := by
  intro s adc failed
  refine ⟨fun hopen hundecided _ => ?_, fun hdead => ?_, fun hrun hfixed hgap hcore => ⟨fun hno => ?_, fun hhere hunfit => ?_⟩,
    fun hrun hfixed hunrun _ => ?_⟩
  · obtain ⟨hr, hshots, hresume, hdefer⟩ := shotOpen_opens (x := s.ctx) hopen hundecided
    refine ⟨s.on shotOpen, rfl, hr, hshots, hresume, fun f hf => ?_⟩
    have hmem : f ∈ (shotOpen s.ctx s.dev).core.frameDefer := hf
    rw [hdefer] at hmem
    exact of_decide_eq_true (List.mem_filter.mp hmem).2
  · exact congrArg _ (State.on_congr (if_pos hdead))
  · refine congrArg _ (State.on_congr ?_)
    rw [meridianRow_runs hrun hfixed hgap hcore (by simp [hno])]
    simp [hno]
  · refine congrArg _ (State.on_congr ?_)
    rw [meridianRow_runs hrun hfixed hgap hcore (by simp [hunfit])]
    simp [hhere]
  · refine ⟨s.on (meridianRow adc failed), rfl, ?_⟩
    have hrow : (s.on (meridianRow adc failed)).dev = { takeMeridian (coreFails failed (countAdc adc s.dev)) with wr := [] } :=
      congrArg (fun d : Dev => { d with wr := [] }) (meridianRow_unrun hrun hfixed hunrun)
    rw [hrow]
    simp

end Sys2Proof.Machine
end

section
/-! The machine as a whole (R31, R47, R59): what every command and every step keeps, and what a die reset leaves. -/

namespace Sys2Proof.Machine

/-- What either shape of an executed command leaves: the queue, the fuses, and settled memories. -/
theorem ExecForm.answers {s : State} {o : Host.Outcome State Fault Refusal} (h : ExecForm s o) :
    ∃ t, o = .next t ∧ t.pending = s.pending ∧ t.fuse = s.fuse ∧
      (Mem.wf s.ddr = true → Mem.wf s.host = true → t.settled) := by
  cases h with
  | plain f => exact ⟨s.on f, rfl, rfl, rfl, s.on_settled f⟩
  | synced h f => exact ⟨(s.sync h).on f, rfl, rfl, rfl, fun hd hh => (s.sync h).on_settled f hd (State.sync_host_wf h hh)⟩

@[simp] theorem shutTick_wr (d : Dev) : (shutTick d).wr = d.wr := by
  unfold shutTick; split <;> rfl

theorem settled_idleTick {s : State} (h : s.settled) : (idleTick s).settled := by
  obtain ⟨hd, hh, hw⟩ := h
  exact ⟨hd, hh, by simpa [idleTick] using hw⟩

/-- Settles O3: every command has one of the two shapes of `exec_form`, and the rows of `commandOf` are mailbox rows. -/
theorem everyCommandIsAnswered : Obligations.EveryCommandIsAnswered := by
  refine ⟨fun c s => ?_, fun i sp mb h s c hi hb => ?_⟩
  · obtain ⟨t, ht, hp, hf, -⟩ := (exec_form c s).answers
    exact ⟨t, ht, hp, hf⟩
  · rw [exec_of_commandOf hi, cmdRow_begins hb]

/-- Settles O4: a step on an empty queue touches neither memory, and any other step is one command. -/
theorem everyStepKeepsTheMemoriesCanonical : Obligations.EveryStepKeepsTheMemoriesCanonical := by
  intro s t hs ht
  unfold step at ht
  split at ht
  · cases ht
    exact settled_idleTick hs
  · rename_i c rest _
    obtain ⟨u, hu, -, -, hsettled⟩ := (exec_form c { s with pending := rest }).answers
    rw [hu] at ht
    cases ht
    exact hsettled hs.1 hs.2.1

/-- Settles O6: nothing of the block is listed after a die reset, so every register reads its default. -/
theorem resetRegisters : Obligations.ResetRegisters :=
  ⟨rfl, fun _ => ⟨rfl, rfl⟩, fun _ => rfl, rfl, rfl, rfl, fun _ => rfl, rfl, rfl, fun _ => rfl, rfl, rfl⟩

end Sys2Proof.Machine
end

section
/-! Raising event sources (R54 to R57): what a raise, of whatever source, leaves of the device. -/

namespace Sys2Proof.Machine

/-- `e` is `d` after event sources were raised: only event registers and host messages differ, of the event registers only what a
raise sets, no pending bit is lost, and with no source enabled nothing is sent or held. -/
structure Raised (d e : Dev) : Prop where
  frame : e = { d with evt := e.evt, wr := e.wr }
  evt : e.evt = { d.evt with pend := e.evt.pend, pba := e.evt.pba, raised := e.evt.raised, lost := e.evt.lost }
  wr : ∃ ws, e.wr = d.wr ++ ws ∧ HostOnly ws
  pend : ∀ i, d.evt.pend.getLsbD i = true → e.evt.pend.getLsbD i = true
  quiet : d.evt.en = 0 → e.wr = d.wr ∧ e.evt.pba = d.evt.pba

theorem Raised.refl (d : Dev) : Raised d d :=
  ⟨rfl, rfl, ⟨[], by simp, by simp [HostOnly]⟩, fun _ h => h, fun _ => ⟨rfl, rfl⟩⟩

section
variable {d e f : Dev}

theorem Raised.en (h : Raised d e) : e.evt.en = d.evt.en := by rw [h.evt]
theorem Raised.msix (h : Raised d e) : e.evt.msix = d.evt.msix := by rw [h.evt]
theorem Raised.enable (h : Raised d e) : e.evt.enable = d.evt.enable := by rw [h.evt]
theorem Raised.hif (h : Raised d e) : e.hif = d.hif := by rw [h.frame]
theorem Raised.mbs (h : Raised d e) : e.mbs = d.mbs := by rw [h.frame]
theorem Raised.dma (h : Raised d e) : e.dma = d.dma := by rw [h.frame]

/-- A ring, and a mailbox, is a matter of its table alone. -/
theorem Dev.ring_congr (h : e.dma = d.dma) (n : Nat) : e.ring n = d.ring n := congrArg (fun t => Store.get ({} : DmaRing) t n) h
theorem Dev.mb_congr (h : e.mbs = d.mbs) (m : Nat) : e.mb m = d.mb m := congrArg (fun t => Store.get ({} : Mailbox) t m) h

theorem Raised.ring (h : Raised d e) (n : Nat) : e.ring n = d.ring n := Dev.ring_congr h.dma n
theorem Raised.mb (h : Raised d e) (m : Nat) : e.mb m = d.mb m := Dev.mb_congr h.mbs m

theorem Raised.trans (h : Raised d e) (g : Raised e f) : Raised d f where
  frame := by rw [g.frame, h.frame]
  evt := by rw [g.evt, h.evt]
  wr := by
    obtain ⟨ws, hw, ho⟩ := h.wr
    obtain ⟨vs, hv, hp⟩ := g.wr
    refine ⟨ws ++ vs, by rw [hv, hw, List.append_assoc], fun w hm => ?_⟩
    exact (List.mem_append.mp hm).elim (ho w) (hp w)
  pend i hi := g.pend i (h.pend i hi)
  quiet hen := by
    obtain ⟨hw, hb⟩ := h.quiet hen
    obtain ⟨gw, gb⟩ := g.quiet (h.en.trans hen)
    exact ⟨gw.trans hw, gb.trans hb⟩

/-- Messages go to the host, so DDR5 does not see them. -/
theorem Raised.ddr (h : Raised d e) (m : Mem) : e.wr.foldl ddrAfter m = d.wr.foldl ddrAfter m := by
  obtain ⟨ws, hw, ho⟩ := h.wr
  rw [hw, List.foldl_append, foldl_ddrAfter_hostOnly ho]

end

@[simp] theorem getLsbD_srcBit (n i : Nat) : (srcBit n).getLsbD i = (decide (i < 256) && decide (n = i)) := by
  rw [srcBit, BitVec.getLsbD_ofNat, Nat.testBit_two_pow]

/-- The event registers may take a pending bit and a lost record beside what a raise sends. -/
theorem raised_quiet_update (d : Dev) (src : Nat) :
    Raised d { d with evt := { d.evt with pend := d.evt.pend ||| srcBit src } } :=
  ⟨rfl, rfl, ⟨[], by simp, by simp [HostOnly]⟩, fun i h => by simp [h], fun _ => ⟨rfl, rfl⟩⟩

/-- Sending a message, which only an enabled source asks for. -/
theorem raised_sendMessage {v : Nat} {d : Dev} (hen : d.evt.en ≠ 0) : Raised d (sendMessage v d) := by
  obtain ⟨-, ws, hw, ho⟩ := reports_sendMessage v d
  exact ⟨rfl, rfl, ⟨ws, hw, ho⟩, fun _ h => h, fun h0 => absurd h0 hen⟩

theorem raised_raiseQuiet (src : Nat) (d : Dev) : Raised d (raiseQuiet src d) := by
  unfold raiseQuiet
  simp only
  split
  · rename_i hwants
    have hen : d.evt.en ≠ 0 := by
      rintro h0
      simp [h0] at hwants
    exact (raised_quiet_update d src).trans (raised_sendMessage hen)
  · exact raised_quiet_update d src

theorem raiseQuiet_pend (src : Nat) (d : Dev) :
    (raiseQuiet src d).evt.pend = d.evt.pend ||| srcBit src := by
  unfold raiseQuiet
  simp only
  split <;> rfl

theorem raised_loseRecord (d : Dev) : Raised d (loseRecord d) := by
  have hcount : Raised d { d with evt := { d.evt with lost := d.evt.lost + 1 } } :=
    ⟨rfl, rfl, ⟨[], by simp, by simp [HostOnly]⟩, fun _ h => h, fun _ => ⟨rfl, rfl⟩⟩
  exact hcount.trans (raised_raiseQuiet 41 _)

theorem raised_raise (r : Raise) (d : Dev) : Raised d (raise r d) := by
  unfold raise
  split
  · exact raised_raiseQuiet _ _
  · split
    · exact ⟨rfl, rfl, ⟨[], by simp, by simp [HostOnly]⟩, fun i h => by simp [h], fun _ => ⟨rfl, rfl⟩⟩
    · exact (raised_loseRecord d).trans (raised_raiseQuiet _ _)

theorem raised_event (src inst arg : Nat) (d : Dev) : Raised d (event src inst arg d) := raised_raise _ _

/-- A raise sets its source, and of the other pending bits at most that of source 41, where it loses a record. -/
theorem raise_pend (r : Raise) (d : Dev) :
    (raise r d).evt.pend = d.evt.pend ||| srcBit r.src ∨ (raise r d).evt.pend = d.evt.pend ||| srcBit 41 ||| srcBit r.src := by
  unfold raise loseRecord
  split
  · exact .inl (raiseQuiet_pend _ _)
  · split
    · exact .inl rfl
    · exact .inr (by rw [raiseQuiet_pend, raiseQuiet_pend])

theorem raise_pend_self {r : Raise} {d : Dev} (h : r.src < 256) : (raise r d).evt.pend.getLsbD r.src = true := by
  rcases raise_pend r d with hp | hp <;> simp [hp, h]

theorem raise_pend_other {r : Raise} {d : Dev} {i : Nat} (hlost : i ≠ 41) (hsrc : i ≠ r.src) :
    (raise r d).evt.pend.getLsbD i = d.evt.pend.getLsbD i := by
  rcases raise_pend r d with hp | hp <;> simp [hp, hlost.symm, hsrc.symm]

theorem event_pend_self {src : Nat} (inst arg : Nat) (d : Dev) (h : src < 256) : (event src inst arg d).evt.pend.getLsbD src = true :=
  raise_pend_self (r := { src := src, inst := inst, arg := arg % 2 ^ 32, lat := nowFine d }) h

/-- An access error raises source 43 on the device with its HIF_ERR flagged. -/
theorem raised_accessError (off : Nat) (d : Dev) : Raised (flagError 1 false off d) (accessError off d) := raised_event _ _ _ _

end Sys2Proof.Machine
end

section
/-! The DMA ring registers (R48, R51 to R53): what each of their operations leaves of a ring, case by case. -/

namespace Sys2Proof.Machine

/-- An operation whose result queues no write makes that result the device, and no more. -/
theorem State.on_eq {s : State} {f : Ctx → Dev → Dev} {d : Dev} (h : f s.ctx s.dev = d) (hwr : d.wr = []) :
    s.on f = { s with dev := d } := by
  subst h
  exact State.on_quiet hwr

/-- The next state of a row, from its operation's result. -/
theorem next_on_eq {s : State} {f : Ctx → Dev → Dev} {d : Dev} (h : f s.ctx s.dev = d) (hwr : d.wr = []) :
    (Host.Outcome.next (s.on f) : Host.Outcome State Fault Refusal) = .next { s with dev := d } := congrArg _ (State.on_eq h hwr)

/-- Two operations that agree on a state's device give one outcome. -/
theorem next_on_congr {s : State} {f g : Ctx → Dev → Dev} (h : f s.ctx s.dev = g s.ctx s.dev) :
    (Host.Outcome.next (s.on f) : Host.Outcome State Fault Refusal) = .next (s.on g) := congrArg _ (State.on_congr h)

theorem Dev.ring_setRing_same {d : Dev} (h : Store.wf {} d.dma = true) (n : Nat) (r : DmaRing) : (d.setRing n r).ring n = r :=
  Store.get_set_same h

theorem Dev.ring_setRing_other (d : Dev) {n m : Nat} (r : DmaRing) (h : m ≠ n) : (d.setRing n r).ring m = d.ring m :=
  Store.get_set_other h

theorem Dev.wf_dma_setRing {d : Dev} (h : Store.wf {} d.dma = true) (n : Nat) (r : DmaRing) : Store.wf {} (d.setRing n r).dma = true :=
  Store.wf_set h

theorem dmaSizeOk_iff (r : DmaRing) : dmaSizeOk r = true ↔ 4 ≤ r.log2.toNat ∧ r.log2.toNat ≤ 16 := by simp [dmaSizeOk]

/-! START. -/

/-- A ring at rest is neither running nor stopping. -/
theorem not_busy_of_rest {r : DmaRing} (h : r.stat = .stopped ∨ r.stat = .configError) : ¬(r.stat = .running ∨ r.stat = .stopping) := by
  rcases h with h | h <;> simp [h]

theorem dmaStart_runs {n : Nat} {x : Ctx} {d : Dev} (h : (d.ring n).stat = .stopped ∨ (d.ring n).stat = .configError)
    (hsize : dmaSizeOk (d.ring n) = true) : dmaStart n x d = d.setRing n { d.ring n with stat := .running } := by
  simp only [dmaStart, if_neg (not_busy_of_rest h), hsize, if_true]

theorem dmaStart_wrong_size {n : Nat} {x : Ctx} {d : Dev} (h : (d.ring n).stat = .stopped ∨ (d.ring n).stat = .configError)
    (hsize : ¬dmaSizeOk (d.ring n) = true) :
    dmaStart n x d = raiseQuiet (32 + n) (d.setRing n { d.ring n with stat := .configError }) := by
  simp only [dmaStart, if_neg (not_busy_of_rest h), if_neg hsize]

theorem dmaStart_busy {n : Nat} {x : Ctx} {d : Dev} (h : (d.ring n).stat = .running ∨ (d.ring n).stat = .stopping) :
    dmaStart n x d = d := if_pos h

/-! STOP. -/

theorem dmaStop_running {n moved : Nat} {x : Ctx} {d : Dev} (h : (d.ring n).stat = .running) :
    dmaStop n moved x d = stopWhenEmpty n (d.setRing n { d.ring n with
      stat := .stopping, cut := if inProgress n x d then some moved else none }) := by simp only [dmaStop, h]

theorem dmaStop_configError {n moved : Nat} {x : Ctx} {d : Dev} (h : (d.ring n).stat = .configError) :
    dmaStop n moved x d = d.setRing n { d.ring n with stat := .stopped } := by simp only [dmaStop, h]

theorem dmaStop_ignored {n moved : Nat} {x : Ctx} {d : Dev} (h : (d.ring n).stat = .stopped ∨ (d.ring n).stat = .stopping) :
    dmaStop n moved x d = d := by
  rcases h with h | h <;> simp only [dmaStop, h]

/-- A ring owns nothing exactly where TAIL stands at HEAD. -/
theorem owned_eq_zero_iff (r : DmaRing) : owned r = 0 ↔ r.tail = r.head := by
  unfold owned
  bv_omega

theorem stopWhenEmpty_of_owned {n : Nat} {d : Dev} (h : (d.ring n).tail ≠ (d.ring n).head) : stopWhenEmpty n d = d :=
  if_neg (fun h0 => h ((owned_eq_zero_iff _).mp h0))

theorem stopWhenEmpty_of_empty {n : Nat} {d : Dev} (h : (d.ring n).tail = (d.ring n).head) :
    stopWhenEmpty n d = d.setRing n { d.ring n with stat := .stopped, cut := none } := if_pos ((owned_eq_zero_iff _).mpr h)

/-- What STOP leaves of a running ring (R51), and that it leaves everything else. -/
theorem dmaStop_running_frame {n moved : Nat} {x : Ctx} {d : Dev} (h : (d.ring n).stat = .running) (hwf : Store.wf {} d.dma = true) :
    let r := d.ring n
    let e := dmaStop n moved x d
    e = { d with dma := e.dma } ∧
      e.ring n = (if r.tail = r.head then { r with stat := .stopped, cut := none }
        else { r with stat := .stopping, cut := if inProgress n x d then some moved else none }) ∧
      ∀ m, m ≠ n → e.ring m = d.ring m := by
  intro r e
  have he : e = stopWhenEmpty n (d.setRing n { r with stat := .stopping, cut := if inProgress n x d then some moved else none }) :=
    dmaStop_running h
  by_cases hempty : r.tail = r.head
  · rw [he, stopWhenEmpty_of_empty (by rw [Dev.ring_setRing_same hwf]; exact hempty), if_pos hempty, Dev.ring_setRing_same hwf]
    refine ⟨rfl, Dev.ring_setRing_same (Dev.wf_dma_setRing hwf _ _) _ _, fun m hm => ?_⟩
    rw [Dev.ring_setRing_other _ _ hm, Dev.ring_setRing_other _ _ hm]
  · rw [he, stopWhenEmpty_of_owned (by rw [Dev.ring_setRing_same hwf]; exact hempty), if_neg hempty]
    exact ⟨rfl, Dev.ring_setRing_same hwf _ _, fun m hm => Dev.ring_setRing_other _ _ hm⟩

/-! TAIL, base and size. -/

theorem dmaTail_taken {n : Nat} {v : BitVec 32} {x : Ctx} {d : Dev} (h : (v - (d.ring n).head).toNat ≤ 2 ^ (d.ring n).log2.toNat) :
    dmaTail n v x d = d.setRing n { d.ring n with tail := v, owns := (d.ring n).owns + (v - (d.ring n).tail) } := if_neg (by omega)

theorem dmaTail_refused {n : Nat} {v : BitVec 32} {x : Ctx} {d : Dev} (h : 2 ^ (d.ring n).log2.toNat < (v - (d.ring n).head).toNat) :
    dmaTail n v x d = accessError (0x40C + 0x40 * n) d := by
  rw [show 0x40C + 0x40 * n = dmaOff n 0x0C by unfold dmaOff; omega]
  exact if_pos h

theorem dmaConfig_rest {n : Nat} {w : CfgWrite} {x : Ctx} {d : Dev} (h : (d.ring n).stat = .stopped ∨ (d.ring n).stat = .configError) :
    dmaConfig n w x d = cfgWrite (dmaOff n 0) (fun v d => d.setRing n { d.ring n with base := v })
      (fun v d => d.setRing n { d.ring n with log2 := v }) w d := if_neg (not_busy_of_rest h)

theorem dmaConfig_busy {n : Nat} {w : CfgWrite} {x : Ctx} {d : Dev} (h : (d.ring n).stat = .running ∨ (d.ring n).stat = .stopping) :
    dmaConfig n w x d = accessError (cfgOff (0x400 + 0x40 * n) (0x408 + 0x40 * n) w) d := by
  rw [show 0x408 + 0x40 * n = dmaOff n 8 by unfold dmaOff; omega]
  exact if_pos h

/-- Settles O13: each row is its operation, in the case the clause names. -/
theorem dmaRegistersTakeTheirWrites : Obligations.DmaRegistersTakeTheirWrites := by
  intro n v w g h moved s hwr r
  have hsync : (s.sync h).dev.wr = [] := hwr
  refine ⟨fun hrest hlo hhi => ?_, fun hrest hsize => ?_, fun hbusy => ?_, fun hrun hwf => ?_, fun herr => ?_, fun hrest => ?_,
    fun hroom => ?_, fun hbeyond => ?_, fun hrest => ⟨?_, ?_, ?_, ?_⟩, fun hbusy => ?_⟩
  · exact next_on_eq (dmaStart_runs hrest ((dmaSizeOk_iff r).mpr ⟨hlo, hhi⟩)) hwr
  · exact next_on_congr (dmaStart_wrong_size hrest fun hok => by have := (dmaSizeOk_iff r).mp hok; omega)
  · exact next_on_eq (dmaStart_busy hbusy) hwr
  · obtain ⟨hframe, hring, hothers⟩ := dmaStop_running_frame (moved := moved) (x := (s.sync h).ctx) (d := (s.sync h).dev) hrun hwf
    exact ⟨_, next_on_eq (s := s.sync h) hframe hsync, rfl, hring, hothers⟩
  · exact next_on_eq (s := s.sync h) (dmaStop_configError herr) hsync
  · exact next_on_eq (s := s.sync h) (dmaStop_ignored hrest) hsync
  · exact next_on_eq (dmaTail_taken hroom) hwr
  · exact next_on_congr (dmaTail_refused hbeyond)
  · exact next_on_eq (dmaConfig_rest hrest) hwr
  · exact next_on_eq (dmaConfig_rest hrest) hwr
  · exact next_on_eq (dmaConfig_rest hrest) hwr
  · exact next_on_eq (dmaConfig_rest hrest) hwr
  · exact next_on_congr (dmaConfig_busy hbusy)

end Sys2Proof.Machine
end

section
/-! DMA descriptors (R47, R49 to R51): what the end of a descriptor leaves of its ring, and what of the two memories. -/

namespace Sys2Proof.Machine

/-- Reading back a range of the length just written. -/
theorem Mem.read_write_length {m : Mem} {a n : Nat} {bs : List Byte} (hm : Mem.wf m = true) (hn : bs.length = n) :
    Mem.read (Mem.write m a bs) a n = bs := by
  subst hn
  exact Mem.read_write_same hm

@[simp] theorem Mem.length_read (m : Mem) (a n : Nat) : (Mem.read m a n).length = n := by simp [Mem.read]

theorem Mem.getElem_read {m : Mem} {a n i : Nat} (h : i < (Mem.read m a n).length) : (Mem.read m a n)[i] = Mem.byte m (a + i) := by
  simp [Mem.read]

/-- A byte of a range to which another range was copied. -/
theorem Mem.byte_write_read {m : Mem} {a n i : Nat} (q : Mem) (b : Nat) (hm : Mem.wf m = true) (hi : i < n) :
    Mem.byte (Mem.write m a (Mem.read q b n)) (a + i) = Mem.byte q (b + i) := by
  rw [Mem.byte_write_inside hm (by simpa using hi), Mem.getElem_read]

/-! The transfer. -/

/-- The memory write that the transfer of `n` bytes is, if it moves any. -/
def moveWrites (toHost : Bool) (x : Ctx) (b : List Byte) (n : Nat) : List MemWrite :=
  if n = 0 then [] else if toHost then [.host (fld b 0 8) (Mem.read x.ddr (fld b 8 8) n)]
  else [.ddr (fld b 8 8) (Mem.read x.host (fld b 0 8) n)]

theorem moveBytes_eq {toHost : Bool} {x : Ctx} {b : List Byte} {n : Nat} {d : Dev} (hwr : d.wr = []) :
    moveBytes toHost x b n d = { d with wr := moveWrites toHost x b n } := by
  unfold moveBytes moveWrites hostWrite ddrWrite ddrNow hostNow
  split
  · rw [← hwr]
  · split <;> simp [hwr]

theorem moveWrites_ddr (toHost : Bool) (x : Ctx) (b : List Byte) (n : Nat) (m : Mem) :
    (moveWrites toHost x b n).foldl ddrAfter m =
      if toHost then m else Mem.write m (fld b 8 8) (Mem.read x.host (fld b 0 8) n) := by
  unfold moveWrites
  split
  · subst n; simp [Mem.read, Mem.write]
  · cases toHost <;> rfl

theorem moveWrites_host (toHost : Bool) (x : Ctx) (b : List Byte) (n : Nat) (m : Mem) :
    (moveWrites toHost x b n).foldl hostAfter m =
      if toHost then Mem.write m (fld b 0 8) (Mem.read x.ddr (fld b 8 8) n) else m := by
  unfold moveWrites
  split
  · subst n; simp [Mem.read, Mem.write]
  · cases toHost <;> rfl

/-! The end. -/

/-- Bytes 20 to 27 of a descriptor that has ended (R49): OWN cleared, STATUS and DONE_LEN. -/
def backBytes (b : List Byte) (status len : Nat) : List Byte :=
  le 2 (fld b 20 2) ++ le 1 (fld b 22 1 - fld b 22 1 % 2) ++ le 1 status ++ le 4 len

theorem length_backBytes (b : List Byte) (status len : Nat) : (backBytes b status len).length = 8 := by simp [backBytes]

/-- Where OWN was 1, clearing it takes 1 from the flags. -/
theorem backBytes_of_own {b : List Byte} (status len : Nat) (hown : bitOf (fld b 22 1) 0 = true) :
    backBytes b status len = le 2 (fld b 20 2) ++ le 1 (fld b 22 1 - 1) ++ le 1 status ++ le 4 len := by
  have h : fld b 22 1 % 2 = 1 := by simpa [bitOf] using hown
  rw [backBytes, h]

/-- A ring whose HEAD descriptor has ended, well or not. -/
def DmaRing.ended (ok : Bool) (r : DmaRing) : DmaRing :=
  { r with head := r.head + 1, owns := r.owns - 1, done := if ok then r.done + 1 else r.done, fail := if ok then r.fail else r.fail + 1 }

/-- The device before the ring's source is raised for a descriptor that has ended. -/
def endedDev (n : Nat) (b : List Byte) (status len : Nat) (d : Dev) : Dev :=
  (hostWrite (descAddr (d.ring n) + 20) (backBytes b status len) d).setRing n ((d.ring n).ended (decide (status < 0x10)))

theorem endDesc_eq (n : Nat) (b : List Byte) (status len : Nat) (d : Dev) :
    endDesc n b status len d =
      if bitOf (fld b 22 1) 1 then raiseQuiet (32 + n) (endedDev n b status len d) else endedDev n b status len d := by
  simp [endDesc, endedDev, backBytes, DmaRing.ended]

theorem raised_endDesc (n : Nat) (b : List Byte) (status len : Nat) (d : Dev) :
    Raised (endedDev n b status len d) (endDesc n b status len d) := by
  rw [endDesc_eq]
  split
  · exact raised_raiseQuiet _ _
  · exact Raised.refl _

theorem endDesc_ring {n : Nat} {b : List Byte} {status len : Nat} {d : Dev} (hwf : Store.wf {} d.dma = true) :
    (endDesc n b status len d).ring n = (d.ring n).ended (decide (status < 0x10)) := by
  rw [(raised_endDesc n b status len d).ring]
  exact Dev.ring_setRing_same hwf _ _

theorem endDesc_ring_other {n m : Nat} {b : List Byte} {status len : Nat} {d : Dev} (h : m ≠ n) :
    (endDesc n b status len d).ring m = d.ring m := by
  rw [(raised_endDesc n b status len d).ring]
  exact Dev.ring_setRing_other _ _ h

theorem endDesc_pend {n : Nat} {b : List Byte} {status len : Nat} {d : Dev} (hn : n < 8) (hirq : bitOf (fld b 22 1) 1 = true) :
    (endDesc n b status len d).evt.pend.getLsbD (32 + n) = true := by
  rw [endDesc_eq, if_pos hirq, raiseQuiet_pend]
  simp
  omega

/-- With the ring's source disabled the write-back is all that the end of a descriptor writes. -/
theorem endDesc_wr {n : Nat} {b : List Byte} {status len : Nat} {d : Dev} (hen : d.evt.en.getLsbD (32 + n) = false) :
    (endDesc n b status len d).wr = d.wr ++ [.host (descAddr (d.ring n) + 20) (backBytes b status len)] := by
  rw [endDesc_eq, raiseQuiet_disabled (by simpa [endedDev, hostWrite] using hen)]
  split <;> rfl

/-! A descriptor that runs to its end. -/

/-- The memory writes of a descriptor's row on ring `n` that stands at `r`: the transfer, then the write-back. -/
def descWrites (n : Nat) (x : Ctx) (b : List Byte) (status len : Nat) (r : DmaRing) : List MemWrite :=
  moveWrites (decide (4 ≤ n)) x b len ++ [.host (descAddr r + 20) (backBytes b status len)]

theorem raised_ddrError (line : Nat) (d : Dev) : Raised (useFree d) (ddrError line d) := raised_event _ _ _ _

/-- The descriptor at HEAD has ended: its ring counts it, the other rings stand, its source is pending where IRQ is 1, and the memory
writes are the transfer's and the write-back. -/
structure DescEnded (n : Nat) (x : Ctx) (b : List Byte) (status len : Nat) (d e : Dev) : Prop where
  ring : e.ring n = (d.ring n).ended (decide (status < 0x10))
  others : ∀ m, m ≠ n → e.ring m = d.ring m
  pend : bitOf (fld b 22 1) 1 = true → e.evt.pend.getLsbD (32 + n) = true
  wr : e.wr = descWrites n x b status len (d.ring n)

theorem descEnded_endDesc {n : Nat} {x : Ctx} {b : List Byte} {status len : Nat} {d : Dev} (hn : n < 8) (hwr : d.wr = [])
    (hwf : Store.wf {} d.dma = true) (hen : d.evt.en.getLsbD (32 + n) = false) :
    DescEnded n x b status len d (endDesc n b status len (moveBytes (decide (4 ≤ n)) x b len d)) := by
  rw [moveBytes_eq hwr]
  exact ⟨endDesc_ring hwf, fun _ h => endDesc_ring_other h, endDesc_pend hn, endDesc_wr hen⟩

/-- With nothing enabled, what an uncorrectable line raises adds no write. -/
theorem DescEnded.ddrError {n : Nat} {x : Ctx} {b : List Byte} {status len : Nat} {d e : Dev} (h : DescEnded n x b status len d e)
    (line : Nat) (hen : e.evt.en = 0) : DescEnded n x b status len d (ddrError line e) :=
  have hr := raised_ddrError line e
  { ring := (hr.ring n).trans h.ring
    others := fun m hm => (hr.ring m).trans (h.others m hm)
    pend := fun hirq => hr.pend _ (h.pend hirq)
    wr := (hr.quiet hen).1.trans h.wr }

theorem descEnded_runDesc {n : Nat} {x : Ctx} {d : Dev} {status len : Nat} (hn : n < 8) (hwr : d.wr = []) (hwf : Store.wf {} d.dma = true)
    (hout : descOutcome (decide (4 ≤ n)) d (headDesc n x d) = (status, len)) (hen : d.evt.en.getLsbD (32 + n) = false)
    (hecc : status = 0x13 → d.evt.en = 0) : DescEnded n x (headDesc n x d) status len d (runDesc n x d) := by
  have hend := descEnded_endDesc (x := x) (b := headDesc n x d) (status := status) (len := len) hn hwr hwf hen
  simp only [runDesc, hout]
  split
  · rename_i h13
    exact hend.ddrError _ (by rw [(raised_endDesc _ _ _ _ _).en, moveBytes_eq hwr]; exact hecc h13)
  · exact hend

/-- A running ring with the link up that owns its HEAD descriptor runs it. -/
theorem descriptorDone_runs {n : Nat} {x : Ctx} {d : Dev} (hrun : (d.ring n).stat = .running) (howns : (d.ring n).tail ≠ (d.ring n).head)
    (hlink : d.hif.linkUp = true) (hown : bitOf (fld (headDesc n x d) 22 1) 0 = true) : descriptorDone n x d = runDesc n x d := by
  have howned : owned (d.ring n) ≠ 0 := fun h => howns ((owned_eq_zero_iff _).mp h)
  exact if_pos (by simp [inProgress, hrun, howned, hlink, hown])

/-! What of the memories. -/

section
variable {s : State} {h : HostSide} {f : Ctx → Dev → Dev} {n status len : Nat} {b : List Byte}
  (hw : (f (s.sync h).ctx (s.sync h).dev).wr = descWrites n (s.sync h).ctx b status len (s.dev.ring n))
include hw

/-- DDR5 after the row of a descriptor. -/
theorem on_ddr_of_descWrites :
    ((s.sync h).on f).ddr =
      if 4 ≤ n then s.ddr else Mem.write s.ddr (fld b 8 8) (Mem.read (s.sync h).host (fld b 0 8) len) := by
  change (f (s.sync h).ctx (s.sync h).dev).wr.foldl ddrAfter s.ddr = _
  rw [hw, descWrites, List.foldl_append, moveWrites_ddr]
  by_cases hn : 4 ≤ n <;> simp [hn, ddrAfter, State.ctx]

/-- Host memory after the row of a descriptor. -/
theorem on_host_of_descWrites :
    ((s.sync h).on f).host =
      Mem.write (if 4 ≤ n then Mem.write (s.sync h).host (fld b 0 8) (Mem.read s.ddr (fld b 8 8) len) else (s.sync h).host)
        (descAddr (s.dev.ring n) + 20) (backBytes b status len) := by
  change (f (s.sync h).ctx (s.sync h).dev).wr.foldl hostAfter (s.sync h).host = _
  rw [hw, descWrites, List.foldl_append, moveWrites_host]
  by_cases hn : 4 ≤ n <;> simp [hn, hostAfter, State.ctx]

/-- The write-back stands in host memory. -/
theorem read_back_of_descWrites (hs : s.settled) : Mem.read ((s.sync h).on f).host (descAddr (s.dev.ring n) + 20) 8 = backBytes b status len := by
  have hh : Mem.wf (s.sync h).host = true := State.sync_host_wf h hs.2.1
  rw [on_host_of_descWrites hw]
  refine Mem.read_write_length ?_ (length_backBytes _ _ _)
  split
  · exact Mem.wf_write hh
  · exact hh

/-- Host to DDR5 (R47): DDR5 takes what host memory held, host memory the write-back alone. -/
theorem toDdr_of_descWrites (hs : s.settled) (hn : n < 4) :
    Mem.read ((s.sync h).on f).ddr (fld b 8 8) len = Mem.read (s.sync h).host (fld b 0 8) len ∧
      (∀ a, a < fld b 8 8 ∨ fld b 8 8 + len ≤ a → Mem.byte ((s.sync h).on f).ddr a = Mem.byte s.ddr a) ∧
      ∀ a, a < descAddr (s.dev.ring n) + 20 ∨ descAddr (s.dev.ring n) + 28 ≤ a →
        Mem.byte ((s.sync h).on f).host a = Mem.byte (s.sync h).host a := by
  have hnot : ¬4 ≤ n := by omega
  rw [on_ddr_of_descWrites hw, on_host_of_descWrites hw, if_neg hnot, if_neg hnot]
  refine ⟨Mem.read_write_length hs.1 (Mem.length_read _ _ _), fun a ha => Mem.byte_write_outside (by simpa using ha), fun a ha => ?_⟩
  exact Mem.byte_write_outside (by rw [length_backBytes]; omega)

/-- DDR5 to host (R47): host memory takes what DDR5 held, but where the write-back stands, and DDR5 stays. -/
theorem toHost_of_descWrites (hs : s.settled) (hn : 4 ≤ n) :
    let back (a : Nat) : Prop := descAddr (s.dev.ring n) + 20 ≤ a ∧ a < descAddr (s.dev.ring n) + 28
    ((s.sync h).on f).ddr = s.ddr ∧
      (∀ i, i < len → ¬back (fld b 0 8 + i) → Mem.byte ((s.sync h).on f).host (fld b 0 8 + i) = Mem.byte s.ddr (fld b 8 8 + i)) ∧
      ∀ a, (a < fld b 0 8 ∨ fld b 0 8 + len ≤ a) → ¬back a → Mem.byte ((s.sync h).on f).host a = Mem.byte (s.sync h).host a := by
  intro back
  have hoff (m : Mem) (a : Nat) (ha : ¬back a) :
      Mem.byte (Mem.write m (descAddr (s.dev.ring n) + 20) (backBytes b status len)) a = Mem.byte m a :=
    Mem.byte_write_outside (by rw [length_backBytes]; simp only [back] at ha; omega)
  rw [on_ddr_of_descWrites hw, on_host_of_descWrites hw, if_pos hn, if_pos hn]
  refine ⟨rfl, fun i hi hb => ?_, fun a ha hb => ?_⟩
  · rw [hoff _ _ hb, Mem.byte_write_read _ _ (State.sync_host_wf h hs.2.1) hi]
  · rw [hoff _ _ hb, Mem.byte_write_outside (by simpa using ha)]

end

/-- The row of a descriptor that a running ring owns. -/
theorem descEnded_descriptorDone {n : Nat} {x : Ctx} {d : Dev} {status len : Nat} (hn : n < 8) (hwr : d.wr = [])
    (hwf : Store.wf {} d.dma = true) (hrun : (d.ring n).stat = .running) (howns : (d.ring n).tail ≠ (d.ring n).head)
    (hlink : d.hif.linkUp = true) (hown : bitOf (fld (headDesc n x d) 22 1) 0 = true)
    (hout : descOutcome (decide (4 ≤ n)) d (headDesc n x d) = (status, len)) (hen : d.evt.en.getLsbD (32 + n) = false)
    (hecc : status = 0x13 → d.evt.en = 0) : DescEnded n x (headDesc n x d) status len d (descriptorDone n x d) := by
  rw [descriptorDone_runs hrun howns hlink hown]
  exact descEnded_runDesc hn hwr hwf hout hen hecc

/-! A stopping ring. -/

/-- A stopping ring with no descriptor in progress refuses its HEAD descriptor. -/
theorem descriptorDone_refuses {n : Nat} {x : Ctx} {d : Dev} (hstop : (d.ring n).stat = .stopping) (hcut : (d.ring n).cut = none)
    (hlink : d.hif.linkUp = true) :
    descriptorDone n x d = stopWhenEmpty n (refuseDesc n x (d.setRing n { d.ring n with cut := none })) := by
  have hidle : ¬inProgress n x d = true := by simp [inProgress, hstop]
  simp only [descriptorDone, if_neg hidle, hstop, hlink, and_self, if_true, stopDesc, hcut]

/-- With nothing moved DDR5 stays, and host memory takes the write-back alone. -/
theorem on_of_descWrites_zero {s : State} {h : HostSide} {f : Ctx → Dev → Dev} {n status : Nat} {b : List Byte}
    (hw : (f (s.sync h).ctx (s.sync h).dev).wr = descWrites n (s.sync h).ctx b status 0 (s.dev.ring n)) :
    ((s.sync h).on f).ddr = s.ddr ∧ ∀ a, a < descAddr (s.dev.ring n) + 20 ∨ descAddr (s.dev.ring n) + 28 ≤ a →
      Mem.byte ((s.sync h).on f).host a = Mem.byte (s.sync h).host a := by
  rw [on_ddr_of_descWrites hw, on_host_of_descWrites hw]
  refine ⟨by split <;> rfl, fun a ha => ?_⟩
  rw [Mem.byte_write_outside (by rw [length_backBytes]; omega)]
  split <;> rfl

/-- A descriptor refused with nothing moved has failed with status 0x10. -/
theorem descEnded_refuseDesc {n : Nat} {x : Ctx} {d : Dev} (hn : n < 8) (hwr : d.wr = []) (hwf : Store.wf {} d.dma = true)
    (hen : d.evt.en.getLsbD (32 + n) = false) : DescEnded n x (headDesc n x d) 0x10 0 d (refuseDesc n x d) :=
  descEnded_endDesc (len := 0) hn hwr hwf hen

theorem stopWhenEmpty_eq (n : Nat) (d : Dev) :
    stopWhenEmpty n d = { d with dma := (stopWhenEmpty n d).dma } := by
  unfold stopWhenEmpty; split <;> rfl

theorem stopWhenEmpty_ring_other {n m : Nat} {d : Dev} (h : m ≠ n) : (stopWhenEmpty n d).ring m = d.ring m := by
  unfold stopWhenEmpty
  split
  · exact Dev.ring_setRing_other _ _ h
  · rfl

/-- A stopping ring that has nothing in progress and no more descriptors stops. -/
theorem stopWhenEmpty_ring {n : Nat} {d : Dev} (hwf : Store.wf {} d.dma = true) (hstop : (d.ring n).stat = .stopping)
    (hcut : (d.ring n).cut = none) : (stopWhenEmpty n d).ring n =
      { d.ring n with stat := if (d.ring n).tail = (d.ring n).head then .stopped else .stopping } := by
  by_cases hempty : (d.ring n).tail = (d.ring n).head
  · rw [stopWhenEmpty_of_empty hempty, Dev.ring_setRing_same hwf, if_pos hempty, ← hcut]
  · rw [stopWhenEmpty_of_owned hempty, if_neg hempty, ← hstop]

theorem wf_dma_endDesc {n : Nat} {b : List Byte} {status len : Nat} {d : Dev} (hwf : Store.wf {} d.dma = true) :
    Store.wf {} (endDesc n b status len d).dma = true := by
  rw [(raised_endDesc n b status len d).dma]
  exact Dev.wf_dma_setRing hwf _ _

/-- What the row leaves of a stopping ring with nothing in progress (R51). -/
theorem descriptorDone_stopping {n : Nat} {x : Ctx} {d : Dev} (hn : n < 8) (hwr : d.wr = []) (hwf : Store.wf {} d.dma = true)
    (hstop : (d.ring n).stat = .stopping) (hcut : (d.ring n).cut = none) (hlink : d.hif.linkUp = true)
    (hen : d.evt.en.getLsbD (32 + n) = false) :
    let r := d.ring n
    let b := headDesc n x d
    let e := descriptorDone n x d
    e.ring n = { r with head := r.head + 1, owns := r.owns - 1, fail := r.fail + 1,
                        stat := if r.tail = r.head + 1 then .stopped else .stopping } ∧
      (∀ m, m ≠ n → e.ring m = d.ring m) ∧ (bitOf (fld b 22 1) 1 = true → e.evt.pend.getLsbD (32 + n) = true) ∧
      e.wr = descWrites n x b 0x10 0 r := by
  intro r b e
  have hsame : { r with cut := none } = r := by rw [← hcut]
  have he : e = stopWhenEmpty n (refuseDesc n x (d.setRing n r)) := by
    rw [← hsame]; exact descriptorDone_refuses hstop hcut hlink
  have hr0 : (d.setRing n r).ring n = r := Dev.ring_setRing_same hwf _ _
  have hb : headDesc n x (d.setRing n r) = b := by simp only [headDesc, hr0]; rfl
  have hwf0 : Store.wf {} (d.setRing n r).dma = true := Dev.wf_dma_setRing hwf _ _
  have hend := descEnded_refuseDesc (x := x) hn (show (d.setRing n r).wr = [] from hwr) hwf0 hen
  have hring := hend.ring
  rw [hr0] at hring
  refine ⟨?_, fun m hm => ?_, fun hirq => ?_, ?_⟩
  · have hwf1 : Store.wf {} (refuseDesc n x (d.setRing n r)).dma = true := wf_dma_endDesc hwf0
    rw [he, stopWhenEmpty_ring hwf1 (by rw [hring]; exact hstop) (by rw [hring]; exact hcut), hring]
    rfl
  · rw [he, stopWhenEmpty_ring_other hm, hend.others m hm, Dev.ring_setRing_other _ _ hm]
  · rw [he, stopWhenEmpty_eq]
    exact hend.pend (by rw [hb]; exact hirq)
  · rw [he, stopWhenEmpty_eq]
    exact hend.wr.trans (by rw [hb, hr0])

/-- The row on a running ring that owns its HEAD descriptor, OWN set, with the outcome that R50 gives it. -/
theorem descEnded_row {n : Fin 8} {h : HostSide} {s : State} {status len : Nat} (hs : s.settled) (hwf : Store.wf {} s.dev.dma = true)
    (hrun : (s.dev.ring n).stat = .running) (howns : (s.dev.ring n).tail ≠ (s.dev.ring n).head) (hlink : s.dev.hif.linkUp = true)
    (hown : bitOf (fld (headDesc n (s.sync h).ctx (s.sync h).dev) 22 1) 0 = true)
    (hout : descOutcome (decide (4 ≤ n.val)) (s.sync h).dev (headDesc n (s.sync h).ctx (s.sync h).dev) = (status, len))
    (hen : s.dev.evt.en.getLsbD (32 + n.val) = false) (hecc : status = 0x13 → s.dev.evt.en = 0) :
    DescEnded n (s.sync h).ctx (headDesc n (s.sync h).ctx (s.sync h).dev) status len (s.sync h).dev
      (descriptorDone n (s.sync h).ctx (s.sync h).dev) :=
  descEnded_descriptorDone n.isLt hs.2.2 hwf hrun howns hlink hown hout hen hecc

/-- Settles O14: on a running ring the three clauses are the one end of a descriptor, `DescEnded`, with the outcome each names; a
stopping ring refuses. -/
theorem descriptorMovesItsBytes : Obligations.DescriptorMovesItsBytes := by
  refine ⟨?_, ?_, ?_, ?_⟩
  · intro n h s hs hwf hn r b hrun howns hlink hown hout hen
    have hend := descEnded_row hs hwf hrun howns hlink hown ((decide_eq_false (Nat.not_le.mpr hn)).symm ▸ hout) hen (by simp)
    obtain ⟨hmoved, hddr, hhost⟩ := toDdr_of_descWrites hend.wr hs hn
    exact ⟨_, rfl, hmoved, hddr, hend.ring, hend.others, hend.pend,
      (read_back_of_descWrites hend.wr hs).trans (backBytes_of_own _ _ hown), hhost⟩
  · intro n h s hs hwf hn r b back hrun howns hlink hown hout hen
    have hend := descEnded_row hs hwf hrun howns hlink hown ((decide_eq_true hn).symm ▸ hout) hen (by simp)
    obtain ⟨hddr, hmoved, hhost⟩ := toHost_of_descWrites hend.wr hs hn
    exact ⟨_, rfl, hddr, hmoved, hhost, (read_back_of_descWrites hend.wr hs).trans (backBytes_of_own _ _ hown),
      hend.ring, hend.others, hend.pend⟩
  · intro n h s status len hs hwf r b toHost back ok hrun howns hlink hown hout hstatus hen
    have hend := descEnded_row hs hwf hrun howns hlink hown hout (by simp [hen]) (fun _ => hen)
    have hok : decide (status < 0x10) = ok := decide_eq_decide.mpr (by omega)
    refine ⟨_, rfl, hok ▸ hend.ring, hend.others, hend.pend, (read_back_of_descWrites hend.wr hs).trans (backBytes_of_own _ _ hown),
      fun hto => ?_, fun hto => ?_⟩
    · obtain ⟨hmoved, hddr, hhost⟩ := toDdr_of_descWrites hend.wr hs (by simpa [toHost] using hto)
      exact ⟨hmoved, hddr, fun a ha => hhost a (not_and_or.mp ha |>.imp Nat.lt_of_not_le Nat.le_of_not_lt)⟩
    · exact toHost_of_descWrites hend.wr hs (by simpa [toHost] using hto)
  · intro n h s hs hwf r b hstop hcut howns hlink hen
    obtain ⟨hring, hothers, hpend, hw⟩ :=
      descriptorDone_stopping (x := (s.sync h).ctx) (d := (s.sync h).dev) n.isLt hs.2.2 hwf hstop hcut hlink hen
    obtain ⟨hddr, hhost⟩ := on_of_descWrites_zero (s := s) (h := h) (f := descriptorDone n) hw
    exact ⟨_, rfl, hddr, hring, hothers, hpend, read_back_of_descWrites (f := descriptorDone n) hw hs, hhost⟩

end Sys2Proof.Machine
end

section
/-! Function Level Reset (R38): what becomes of the registers, the rings and the commands in flight, one step of the reset after another. -/

namespace Sys2Proof.Machine

/-- What a step of a Function Level Reset may do between `d` and `e`: it changes mailboxes, doorbells, events, ledgers and the list of
unfinished commands at most; what it reports sets sources 41 and 53; and with no source enabled it sends nothing to the host. -/
structure FlrStep (d e : Dev) : Prop where
  frame : e = { d with mbs := e.mbs, bells := e.bells, evt := e.evt, ledger := e.ledger, wr := e.wr,
                       core := { d.core with cmds := e.core.cmds, nextSeq := e.core.nextSeq } }
  wf : Store.wf {} d.mbs = true → Store.wf {} e.mbs = true
  bells : d.bells = [] → e.bells = []
  en : e.evt.en = d.evt.en
  msix : e.evt.msix = d.evt.msix
  enable : e.evt.enable = d.evt.enable
  quiet : d.evt.en = 0 → e.wr = d.wr ∧ e.evt.pba = d.evt.pba
  pend : ∀ i, i ≠ 41 → i ≠ 53 → e.evt.pend.getLsbD i = d.evt.pend.getLsbD i

theorem FlrStep.refl (d : Dev) : FlrStep d d := ⟨rfl, id, id, rfl, rfl, rfl, fun _ => ⟨rfl, rfl⟩, fun _ _ _ => rfl⟩

section
variable {d e f : Dev}

theorem FlrStep.trans (h : FlrStep d e) (g : FlrStep e f) : FlrStep d f where
  frame := by rw [g.frame, h.frame]
  wf hd := g.wf (h.wf hd)
  bells hd := g.bells (h.bells hd)
  en := g.en.trans h.en
  msix := g.msix.trans h.msix
  enable := g.enable.trans h.enable
  quiet hen := by
    obtain ⟨hw, hb⟩ := h.quiet hen
    obtain ⟨gw, gb⟩ := g.quiet (h.en.trans hen)
    exact ⟨gw.trans hw, gb.trans hb⟩
  pend i h41 h53 := (g.pend i h41 h53).trans (h.pend i h41 h53)

/-- A step that leaves the event registers and the write queue. -/
theorem FlrStep.silent
    (frame : e = { d with
      mbs := e.mbs, bells := e.bells, ledger := e.ledger, core := { d.core with cmds := e.core.cmds, nextSeq := e.core.nextSeq } })
    (wf : Store.wf {} d.mbs = true → Store.wf {} e.mbs = true) (bells : d.bells = [] → e.bells = []) : FlrStep d e := by
  have hevt : e.evt = d.evt := by rw [frame]
  have hwr : e.wr = d.wr := by rw [frame]
  exact ⟨by rw [hevt, hwr]; exact frame, wf, bells, by rw [hevt], by rw [hevt], by rw [hevt], fun _ => ⟨hwr, by rw [hevt]⟩,
    fun _ _ _ => by rw [hevt]⟩

theorem flrStep_foldl {α : Type} (g : Dev → α → Dev) (xs : List α) (d : Dev) (hg : ∀ d, ∀ a ∈ xs, FlrStep d (g d a)) :
    FlrStep d (xs.foldl g d) :=
  List.foldlRecOn (motive := FlrStep d) xs g (FlrStep.refl d) fun _ h a ha => h.trans (hg _ a ha)

end

theorem wf_mbs_setMb {d : Dev} (m : Nat) (b : Mailbox) (h : Store.wf {} d.mbs = true) : Store.wf {} (d.setMb m b).mbs = true :=
  Store.wf_set h

theorem flrStep_acceptBell (b : Nat × Nat) (d : Dev) : FlrStep d (acceptBell b d) := FlrStep.silent rfl (wf_mbs_setMb _ _)
  fun h => show d.bells.erase b = [] by rw [h]; rfl

theorem flrStep_setMb (m : Nat) (b : Mailbox) (d : Dev) : FlrStep d (d.setMb m b) := FlrStep.silent rfl (wf_mbs_setMb _ _) id

/-- A report raises source 53, and source 41 where its record is lost. -/
theorem flrStep_publish (r : Report) (d : Dev) : FlrStep d (publish r d) := by
  have hreport := raised_event 53 r.kind (d.ledger.seq + 1) { d with ledger := { d.ledger with
    seq := d.ledger.seq + 1
    reports := ({ r with seq := d.ledger.seq + 1 } :: if r.kind = 4 then d.ledger.reports.map (fun q => { q with entries := [] })
      else d.ledger.reports).take 16 } }
  exact ⟨by rw [show publish r d = _ from hreport.frame], fun h => by rw [show (publish r d).mbs = _ from hreport.mbs]; exact h,
    fun h => by rw [show publish r d = _ from hreport.frame]; exact h,
    hreport.en, hreport.msix, hreport.enable, hreport.quiet, fun i h41 h53 => raise_pend_other h41 h53⟩

theorem flrStep_settleFlrs (d : Dev) : FlrStep d (settleFlrs d) :=
  (FlrStep.silent (e := { d with ledger := { d.ledger with flrs := d.ledger.flrs.filter (fun f => !f.waiting.isEmpty) } }) rfl id id).trans
    (flrStep_foldl _ _ _ fun d _ _ => flrStep_publish _ d)

theorem flrStep_flrEnded (k : Completion) (d : Dev) : FlrStep d (flrEnded k d) := by
  have h1 : FlrStep d { d with ledger := { d.ledger with flrs := d.ledger.flrs.map (flrNote d.hif.core k) } } := FlrStep.silent rfl id id
  exact h1.trans (flrStep_settleFlrs _)

/-- The end of a command that has lost its slot is counted and reported, and no entry is written (R76, R529). -/
theorem flrStep_finishWith {c : Cmd} (k : Completion) (d : Dev) (hslot : c.noSlot = true) : FlrStep d (finishWith c k d) := by
  let d1 : Dev := { d with core := { d.core with cmds := d.core.cmds.filter (fun q => q.seq ≠ c.seq) } }
  have hend : finishWith c k d = flrEnded k (d1.setMb c.mb { d1.mb c.mb with done := (d1.mb c.mb).done + 1 }) := if_pos hslot
  have h1 : FlrStep d d1 := FlrStep.silent rfl id id
  rw [hend]
  exact (h1.trans (flrStep_setMb _ _ d1)).trans (flrStep_flrEnded k _)

/-- Every doorbell that waits is accepted. -/
theorem bells_foldl_acceptBell (bs : List (Nat × Nat)) (d : Dev) (h : d.bells = bs) :
    (bs.foldl (fun d b => acceptBell b d) d).bells = [] := by
  induction bs generalizing d with
  | nil => exact h
  | cons b bs ih => exact ih _ (show d.bells.erase b = bs by rw [h, List.erase_cons_head])

/-- What becomes of the commands in flight; none waits to be accepted any more. -/
theorem flrStep_flrCommands (d : Dev) : FlrStep d (flrCommands d) ∧ (flrCommands d).bells = [] := by
  unfold flrCommands
  extract_lets heldNow d1 cmds _ _ _ d2 d3
  have h1 : FlrStep d d1 := flrStep_foldl _ _ _ fun d b _ => flrStep_acceptBell b d
  have h2 : FlrStep d1 d2 := FlrStep.silent rfl id id
  have h3 : FlrStep d2 d3 := flrStep_foldl _ _ _ fun d m _ => flrStep_setMb _ _ d
  have hends : FlrStep d3 ((cmds.drop d.core.cmds.length).foldl (fun d c => failCmd c { status := 0x1D } d) d3) := by
    refine flrStep_foldl _ _ _ fun d c hc => ?_
    obtain ⟨c0, -, rfl⟩ := List.mem_map.mp (List.mem_of_mem_drop hc)
    exact flrStep_finishWith _ d rfl
  have hrest := (h2.trans h3).trans (hends.trans (flrStep_settleFlrs _))
  exact ⟨h1.trans hrest, hrest.bells (bells_foldl_acceptBell _ _ rfl)⟩

/-- A fold over indices 0 to `k` − 1 whose step at `n` relates what stands at `n` before and after it, and leaves the other indices
alone. -/
theorem forAll_range_rel {β : Type} {P : Dev → Prop} {get : Dev → Nat → β} {R : Nat → β → β → Prop} {g : Nat → Dev → Dev}
    (hP : ∀ n d, P d → P (g n d)) (hsame : ∀ n d, P d → R n (get d n) (get (g n d) n))
    (hother : ∀ n m d, m ≠ n → get (g n d) m = get d m) (k : Nat) {d : Dev} (hd : P d) :
    P (d.forAll (List.range k) g) ∧ (∀ m < k, R m (get d m) (get (d.forAll (List.range k) g) m)) ∧
      ∀ m, k ≤ m → get (d.forAll (List.range k) g) m = get d m := by
  induction k with
  | zero => exact ⟨hd, fun m hm => absurd hm (Nat.not_lt_zero m), fun m _ => rfl⟩
  | succ k ih =>
    obtain ⟨hPk, hbelow, habove⟩ := ih
    have hstep : d.forAll (List.range (k + 1)) g = g k (d.forAll (List.range k) g) := by
      simp [Dev.forAll, List.range_succ, List.foldl_append]
    rw [hstep]
    refine ⟨hP _ _ hPk, fun m hm => ?_, fun m hm => ?_⟩
    · by_cases hmk : m = k
      · subst hmk
        rw [← habove m le_rfl]
        exact hsame m _ hPk
      · rw [hother _ _ _ hmk]
        exact hbelow m (by omega)
    · rw [hother _ _ _ (by omega)]
      exact habove m (by omega)

/-- The reset of one ring's registers. -/
def flrRingAt (n : Nat) (d : Dev) : Dev := d.setRing n (flrRing (d.ring n))

theorem functionReset_eq (d : Dev) : functionReset d =
    ((flrCommands (flrRegs d)).forAll (List.range 8) flrRingAt).forAll (List.range 32) flrMailbox := rfl

/-- The rings' part changes the rings alone. -/
theorem flrRings_frame (ns : List Nat) (d : Dev) : ∃ rs, d.forAll ns flrRingAt = { d with dma := rs } := by
  unfold Dev.forAll
  refine List.foldlRecOn (motive := fun e : Dev => ∃ rs, e = { d with dma := rs }) ns _ ⟨d.dma, rfl⟩ fun e he n _ => ?_
  obtain ⟨rs, rfl⟩ := he
  exact ⟨_, rfl⟩

/-- The mailboxes' part changes mailboxes and pins alone. -/
theorem flrMailboxes_frame (ms : List Nat) (d : Dev) :
    ∃ bs ps, d.forAll ms flrMailbox = { d with mbs := bs, core := { d.core with pins := ps } } := by
  unfold Dev.forAll
  refine List.foldlRecOn (motive := fun e : Dev => ∃ bs ps, e = { d with mbs := bs, core := { d.core with pins := ps } }) ms _
    ⟨d.mbs, d.core.pins, rfl⟩ fun e he m _ => ?_
  obtain ⟨bs, ps, rfl⟩ := he
  exact ⟨_, _, rfl⟩

/-- Every ring after a Function Level Reset. -/
theorem flrRings_ring {d : Dev} (hwf : Store.wf {} d.dma = true) {n : Nat} (hn : n < 8) :
    (d.forAll (List.range 8) flrRingAt).ring n = flrRing (d.ring n) :=
  (forAll_range_rel (P := fun d => Store.wf {} d.dma = true) (get := Dev.ring) (R := fun _ r r' => r' = flrRing r) (g := flrRingAt)
    (fun _ _ h => Dev.wf_dma_setRing h _ _) (fun _ _ h => Dev.ring_setRing_same h _ _)
    (fun _ _ d h => Dev.ring_setRing_other d _ h) 8 hwf).2.1 n hn

/-- A mailbox's registers after a Function Level Reset: only its two counters stay. -/
def flrMb (b : Mailbox) : Mailbox := { posted := b.posted, done := b.done }

theorem flrMailboxes_mb {d : Dev} (hwf : Store.wf {} d.mbs = true) {m : Nat} (hm : m < 32) :
    (d.forAll (List.range 32) flrMailbox).mb m = flrMb (d.mb m) :=
  (forAll_range_rel (P := fun d => Store.wf {} d.mbs = true) (get := Dev.mb) (R := fun _ b b' => b' = flrMb b) (g := flrMailbox)
    (fun _ _ h => wf_mbs_setMb _ _ h) (fun _ _ h => Store.get_set_same h) (fun _ _ _ h => Store.get_set_other h) 32 hwf).2.1 m hm

/-- What a Function Level Reset leaves of a device (R38): rings stopped with their ledger standing, mailboxes disabled and empty, event
registers, MSI-X and log as after reset but for what the reset's report raises, no doorbell waiting, nothing sent to the host, and all
else as it was. -/
structure FlrLeaves (d e : Dev) : Prop where
  rings : ∀ n < 8, e.ring n = flrRing (d.ring n)
  mbs : ∀ m < 32, e.mb m = { posted := (e.mb m).posted, done := (e.mb m).done }
  pend : ∀ i, i ≠ 41 → i ≠ 53 → e.evt.pend.getLsbD i = false
  en : e.evt.en = 0
  pba : e.evt.pba = 0
  enable : e.evt.enable = false
  msix : e.evt.msix = []
  hif : e.hif = { d.hif with scratch := 0, bar2Win := 0, err := 0, errAddr := 0, rlShadow := [], lowHalf := [] }
  bells : e.bells = []
  wr : e.wr = d.wr
  frame : e = { d with hif := e.hif, mbs := e.mbs, bells := e.bells, dma := e.dma, evt := e.evt, ledger := e.ledger, wr := e.wr,
                       core := { d.core with cmds := e.core.cmds, nextSeq := e.core.nextSeq, pins := e.core.pins } }

theorem flrLeaves_functionReset {d : Dev} (hdma : Store.wf {} d.dma = true) (hmbs : Store.wf {} d.mbs = true) :
    FlrLeaves d (functionReset d) := by
  obtain ⟨hcmds, hbells⟩ := flrStep_flrCommands (flrRegs d)
  obtain ⟨hwr, hpba⟩ := hcmds.quiet rfl
  have hdma1 : (flrCommands (flrRegs d)).dma = d.dma := by rw [hcmds.frame]; rfl
  have hhif : (flrCommands (flrRegs d)).hif = (flrRegs d).hif := by rw [hcmds.frame]
  obtain ⟨rs, hrs⟩ := flrRings_frame (List.range 8) (flrCommands (flrRegs d))
  obtain ⟨bs, ps, hps⟩ := flrMailboxes_frame (List.range 32) ((flrCommands (flrRegs d)).forAll (List.range 8) flrRingAt)
  have hreset : functionReset d = { flrCommands (flrRegs d) with
      dma := rs, mbs := bs, core := { (flrCommands (flrRegs d)).core with pins := ps } } := by rw [functionReset_eq, hps, hrs]
  have hrings (n : Nat) (hn : n < 8) : (functionReset d).ring n = flrRing (d.ring n) := by
    have hlast : (functionReset d).dma = ((flrCommands (flrRegs d)).forAll (List.range 8) flrRingAt).dma := by rw [functionReset_eq, hps]
    rw [Dev.ring_congr hlast, flrRings_ring (by rw [hdma1]; exact hdma) hn, Dev.ring_congr hdma1]
  have hmbs1 : Store.wf {} ((flrCommands (flrRegs d)).forAll (List.range 8) flrRingAt).mbs = true := by
    rw [hrs]; exact hcmds.wf hmbs
  refine ⟨hrings, fun m hm => ?_, fun i h41 h53 => ?_, ?_, ?_, ?_, ?_, ?_, ?_, ?_, ?_⟩
  · rw [functionReset_eq, flrMailboxes_mb hmbs1 hm]; rfl
  · rw [hreset]; exact (hcmds.pend i h41 h53).trans (by simp [flrRegs])
  · rw [hreset]; exact hcmds.en
  · rw [hreset]; exact hpba
  · rw [hreset]; exact hcmds.enable
  · rw [hreset]; exact hcmds.msix
  · rw [hreset]; exact hhif
  · rw [hreset]; exact hbells
  · rw [hreset]; exact hwr
  · rw [hreset, hcmds.frame]; rfl

end Sys2Proof.Machine
end

section
/-! The ledger of the DMA rings (R49, R525 row 2): every operation that touches a ring keeps it, and every other one leaves the rings
alone. -/

namespace Sys2Proof.Machine

/-- Device-owned = TAIL − HEAD, and HEAD = DONE + FAIL modulo 2^32 (R49). -/
def DmaRing.Balanced (r : DmaRing) : Prop := r.owns = r.tail - r.head ∧ r.head.toNat = (r.done.toNat + r.fail.toNat) % 2 ^ 32

theorem rowHolds_dma_iff (d : Dev) (n : Nat) : rowHolds d 2 n = true ↔ (d.ring n).Balanced := by
  simp [rowHolds, DmaRing.Balanced]

theorem DmaRing.Balanced.ended {r : DmaRing} (h : r.Balanced) (ok : Bool) : (r.ended ok).Balanced := by
  obtain ⟨howns, hhead⟩ := h
  refine ⟨?_, ?_⟩
  · simp only [DmaRing.ended, howns]
    bv_omega
  · cases ok <;> simp only [DmaRing.ended, BitVec.toNat_add, hhead] <;> simp <;> omega

/-- A new TAIL is entered in the ledger with the descriptors it hands over. -/
theorem DmaRing.Balanced.tail {r : DmaRing} (h : r.Balanced) (v : BitVec 32) :
    ({ r with tail := v, owns := r.owns + (v - r.tail) } : DmaRing).Balanced := by
  obtain ⟨howns, hhead⟩ := h
  refine ⟨?_, hhead⟩
  simp only [howns]
  bv_omega

theorem balanced_flrRing (r : DmaRing) : (flrRing r).Balanced := ⟨by simp [flrRing], by simp [flrRing]⟩

/-- From `d` to `e` the table of rings stays canonical, and every ring whose ledger stood still has it standing. -/
def KeepsLedgers (d e : Dev) : Prop :=
  Store.wf {} d.dma = true → Store.wf {} e.dma = true ∧ ∀ n, (d.ring n).Balanced → (e.ring n).Balanced

section
variable {d e f : Dev}

theorem KeepsLedgers.of_dma (h : e.dma = d.dma) : KeepsLedgers d e := fun hwf =>
  ⟨by rw [h]; exact hwf, fun n hn => by rw [Dev.ring_congr h]; exact hn⟩

theorem KeepsLedgers.refl (d : Dev) : KeepsLedgers d d := .of_dma rfl

theorem KeepsLedgers.trans (h : KeepsLedgers d e) (g : KeepsLedgers e f) : KeepsLedgers d f := fun hwf =>
  have ⟨hwf1, hkeep⟩ := h hwf
  have ⟨hwf2, gkeep⟩ := g hwf1
  ⟨hwf2, fun n hn => gkeep n (hkeep n hn)⟩

theorem KeepsLedgers.setRing {n : Nat} {r : DmaRing} (h : (d.ring n).Balanced → r.Balanced) : KeepsLedgers d (d.setRing n r) := fun hwf =>
  ⟨Dev.wf_dma_setRing hwf n r, fun m hm => by
    by_cases hmn : m = n
    · subst hmn
      rw [Dev.ring_setRing_same hwf]
      exact h hm
    · rwa [Dev.ring_setRing_other d r hmn]⟩

theorem keepsLedgers_foldl {α : Type} (g : Dev → α → Dev) (hg : ∀ d a, KeepsLedgers d (g d a)) (xs : List α) (d : Dev) :
    KeepsLedgers d (xs.foldl g d) :=
  List.foldlRecOn (motive := KeepsLedgers d) xs g (.refl d) fun _ h a _ => h.trans (hg _ a)

end

theorem Raised.keepsLedgers {d e : Dev} (h : Raised d e) : KeepsLedgers d e := .of_dma h.dma

theorem Reports.keepsLedgers {d e : Dev} (h : Reports d e) : KeepsLedgers d e := .of_dma (by rw [h.1])

theorem keepsLedgers_accessError (off : Nat) (d : Dev) : KeepsLedgers d (accessError off d) :=
  .of_dma (raised_accessError off d).dma

/-- A write to a base and size pair, where its two parts keep the ledgers. -/
theorem keepsLedgers_cfgWrite {off : Nat} {base : BitVec 64 → Dev → Dev} {size : BitVec 5 → Dev → Dev}
    (hbase : ∀ v d, KeepsLedgers d (base v d)) (hsize : ∀ v d, KeepsLedgers d (size v d)) (w : CfgWrite) (d : Dev) :
    KeepsLedgers d (cfgWrite off base size w d) := by
  cases w with
  | baseLow v => exact .of_dma rfl
  | size v => exact hsize _ d
  | base v =>
    have hlow : KeepsLedgers d (keepLow off (v.setWidth 32) d) := .of_dma rfl
    exact hlow.trans (hbase _ _)
  | baseHigh v => exact hbase _ d

/-! The rows of the rings. -/

theorem keepsLedgers_dmaStart (n : Nat) (x : Ctx) (d : Dev) : KeepsLedgers d (dmaStart n x d) := by
  unfold dmaStart
  dsimp only
  split
  · exact .refl d
  · split
    · exact .setRing id
    · refine KeepsLedgers.trans ?_ (raised_raiseQuiet _ _).keepsLedgers
      exact .setRing id

theorem keepsLedgers_stopWhenEmpty (n : Nat) (d : Dev) : KeepsLedgers d (stopWhenEmpty n d) := by
  unfold stopWhenEmpty
  split
  · exact .setRing id
  · exact .refl d

theorem keepsLedgers_dmaStop (n moved : Nat) (x : Ctx) (d : Dev) : KeepsLedgers d (dmaStop n moved x d) := by
  unfold dmaStop
  split
  · exact .refl d
  · exact .setRing id
  · exact .refl d
  · refine KeepsLedgers.trans ?_ (keepsLedgers_stopWhenEmpty _ _)
    exact .setRing id

theorem keepsLedgers_dmaTail (n : Nat) (v : BitVec 32) (x : Ctx) (d : Dev) : KeepsLedgers d (dmaTail n v x d) := by
  unfold dmaTail
  dsimp only
  split
  · exact keepsLedgers_accessError _ d
  · exact .setRing fun h => h.tail v

theorem keepsLedgers_dmaConfig (n : Nat) (w : CfgWrite) (x : Ctx) (d : Dev) : KeepsLedgers d (dmaConfig n w x d) := by
  unfold dmaConfig
  dsimp only
  split
  · exact keepsLedgers_accessError _ d
  · refine keepsLedgers_cfgWrite (fun v d => ?_) (fun v d => ?_) w d
    · exact .setRing id
    · exact .setRing id

theorem keepsLedgers_endDesc (n : Nat) (b : List Byte) (status len : Nat) (d : Dev) : KeepsLedgers d (endDesc n b status len d) :=
  KeepsLedgers.trans (e := endedDev n b status len d)
    (KeepsLedgers.trans (e := hostWrite (descAddr (d.ring n) + 20) (backBytes b status len) d) (.of_dma rfl)
      (.setRing fun h => h.ended _))
    (raised_endDesc n b status len d).keepsLedgers

theorem keepsLedgers_moveBytes (toHost : Bool) (x : Ctx) (b : List Byte) (n : Nat) (d : Dev) :
    KeepsLedgers d (moveBytes toHost x b n d) := by
  unfold moveBytes
  split
  · exact .refl d
  · split <;> exact .of_dma rfl

theorem keepsLedgers_runDesc (n : Nat) (x : Ctx) (d : Dev) : KeepsLedgers d (runDesc n x d) := by
  unfold runDesc
  extract_lets b o d1
  have hend : KeepsLedgers d d1 := (keepsLedgers_moveBytes _ x b _ d).trans (keepsLedgers_endDesc n b _ _ _)
  split
  · exact (hend.trans (.of_dma rfl)).trans (raised_ddrError _ d1).keepsLedgers
  · exact hend

theorem keepsLedgers_cutDesc (n moved : Nat) (x : Ctx) (d : Dev) : KeepsLedgers d (cutDesc n moved x d) := by
  unfold cutDesc
  extract_lets b o len
  split
  · exact (keepsLedgers_moveBytes _ x b _ d).trans (keepsLedgers_endDesc n b _ _ _)
  · exact keepsLedgers_runDesc n x d

theorem keepsLedgers_stopDesc (n : Nat) (x : Ctx) (d : Dev) : KeepsLedgers d (stopDesc n x d) := by
  unfold stopDesc
  have h0 : KeepsLedgers d (d.setRing n { d.ring n with cut := none }) := .setRing id
  refine KeepsLedgers.trans (h0.trans ?_) (keepsLedgers_stopWhenEmpty _ _)
  split
  · exact keepsLedgers_cutDesc _ _ _ _
  · exact keepsLedgers_endDesc _ _ _ _ _

theorem keepsLedgers_descriptorDone (n : Nat) (x : Ctx) (d : Dev) : KeepsLedgers d (descriptorDone n x d) := by
  unfold descriptorDone
  split
  · exact keepsLedgers_runDesc n x d
  · split
    · exact keepsLedgers_stopDesc n x d
    · exact .refl d

/-! REGISTER_WRITE. -/

theorem keepsLedgers_writeDma (n r : Nat) (v : BitVec 32) (x : Ctx) (d : Dev) : KeepsLedgers d (writeDma n r v x d) := by
  unfold writeDma
  split
  · exact keepsLedgers_dmaConfig _ _ _ _
  · exact keepsLedgers_dmaConfig _ _ _ _
  · exact keepsLedgers_dmaConfig _ _ _ _
  · exact keepsLedgers_dmaTail _ _ _ _
  · have hstart : KeepsLedgers d (if v.getLsbD 0 then dmaStart n x d else d) := by
      split
      · exact keepsLedgers_dmaStart n x d
      · exact .refl d
    dsimp only
    split
    · exact hstart.trans (keepsLedgers_dmaStop _ _ _ _)
    · exact hstart
  · exact .refl d

theorem keepsLedgers_acceptDisabled (b : Nat × Nat) (d : Dev) : KeepsLedgers d (acceptDisabled b d) := by
  unfold acceptDisabled
  dsimp only
  split
  · exact .of_dma rfl
  · refine KeepsLedgers.trans ?_ (reports_failCmd _ _ _).keepsLedgers
    exact .of_dma rfl

theorem keepsLedgers_cringConfig (m : Nat) (w : CfgWrite) (x : Ctx) (d : Dev) : KeepsLedgers d (cringConfig m w x d) := by
  unfold cringConfig
  dsimp only
  split
  · exact keepsLedgers_accessError _ d
  · refine keepsLedgers_cfgWrite (fun v d => ?_) (fun v d => ?_) w d
    · exact .of_dma rfl
    · exact .of_dma rfl

theorem keepsLedgers_doorbell (m : Nat) (v : BitVec 32) (x : Ctx) (d : Dev) : KeepsLedgers d (doorbell m v x d) := by
  unfold doorbell
  dsimp only
  split
  · exact keepsLedgers_accessError _ d
  · exact .of_dma rfl

theorem keepsLedgers_cringTail (m : Nat) (v : BitVec 32) (x : Ctx) (d : Dev) : KeepsLedgers d (cringTail m v x d) := by
  unfold cringTail
  dsimp only
  split
  · exact keepsLedgers_accessError _ d
  · exact .of_dma rfl

theorem keepsLedgers_mbEnable (m : Nat) (x : Ctx) (d : Dev) : KeepsLedgers d (mbEnable m x d) := by
  unfold mbEnable
  dsimp only
  split
  · exact keepsLedgers_accessError _ d
  · exact .of_dma rfl

theorem keepsLedgers_mbDisable (m : Nat) (x : Ctx) (d : Dev) : KeepsLedgers d (mbDisable m x d) := by
  refine KeepsLedgers.trans ?_ (keepsLedgers_foldl _ (fun d b => keepsLedgers_acceptDisabled b d) _ _)
  exact .of_dma rfl

theorem keepsLedgers_writeMb (m r : Nat) (v : BitVec 32) (x : Ctx) (d : Dev) : KeepsLedgers d (writeMb m r v x d) := by
  unfold writeMb byBit
  split
  · exact keepsLedgers_doorbell _ _ _ _
  · exact keepsLedgers_cringConfig _ _ _ _
  · exact keepsLedgers_cringConfig _ _ _ _
  · exact keepsLedgers_cringConfig _ _ _ _
  · exact keepsLedgers_cringTail _ _ _ _
  · split
    · exact keepsLedgers_mbEnable _ _ _
    · exact keepsLedgers_mbDisable _ _ _
  · exact .refl d

theorem keepsLedgers_logConfig (w : CfgWrite) (x : Ctx) (d : Dev) : KeepsLedgers d (logConfig w x d) := by
  unfold logConfig
  split
  · exact keepsLedgers_accessError _ d
  · refine keepsLedgers_cfgWrite (fun v d => ?_) (fun v d => ?_) w d
    · exact .of_dma rfl
    · exact .of_dma rfl

theorem keepsLedgers_logTail (v : BitVec 32) (x : Ctx) (d : Dev) : KeepsLedgers d (logTail v x d) := by
  unfold logTail
  split
  · exact keepsLedgers_accessError _ d
  · exact .of_dma rfl

theorem keepsLedgers_logEnable (x : Ctx) (d : Dev) : KeepsLedgers d (logEnable x d) := by
  unfold logEnable
  dsimp only
  split
  · exact .refl d
  · split
    · exact keepsLedgers_accessError _ d
    · exact .of_dma rfl

theorem keepsLedgers_writeEvt (off : Nat) (v : BitVec 32) (x : Ctx) (d : Dev) : KeepsLedgers d (writeEvt off v x d) := by
  unfold writeEvt byBit
  split
  · exact .of_dma rfl
  · split
    · exact .of_dma rfl
    · split
      · exact keepsLedgers_logConfig _ _ _
      · exact keepsLedgers_logConfig _ _ _
      · exact keepsLedgers_logConfig _ _ _
      · exact keepsLedgers_logTail _ _ _
      · split
        · exact keepsLedgers_logEnable _ _
        · exact .of_dma rfl
      · exact .refl d

theorem keepsLedgers_writeMsix (n lane : Nat) (v : BitVec 32) (d : Dev) : KeepsLedgers d (writeMsix n lane v d) := by
  unfold writeMsix
  split
  · exact .of_dma rfl
  · exact .of_dma rfl
  · exact .of_dma rfl
  · unfold sendHeldMessage
    dsimp only
    split <;> exact .of_dma rfl

theorem keepsLedgers_slotWrite (m slot off : Nat) (bytes : List Byte) (x : Ctx) (d : Dev) :
    KeepsLedgers d (slotWrite m slot off bytes x d) := by
  unfold slotWrite
  dsimp only
  split
  · exact keepsLedgers_accessError _ d
  · exact .of_dma rfl

theorem keepsLedgers_writeWord (off : Nat) (v : BitVec 32) (x : Ctx) (d : Dev) : KeepsLedgers d (writeWord off v x d) := by
  unfold writeWord
  split_ifs
  · exact .of_dma rfl
  · exact .of_dma rfl
  · exact .of_dma rfl
  · exact keepsLedgers_writeDma _ _ _ _ _
  · exact keepsLedgers_writeMb _ _ _ _ _
  · exact keepsLedgers_writeEvt _ _ _ _
  · exact keepsLedgers_slotWrite _ _ _ _ _ _
  · exact keepsLedgers_writeMsix _ _ _ _
  · exact .refl d

theorem keepsLedgers_writePair (off : Nat) (v : BitVec 64) (x : Ctx) (d : Dev) : KeepsLedgers d (writePair off v x d) := by
  unfold writePair
  extract_lets lo hi d1 d2
  have h1 : KeepsLedgers d d1 := keepsLedgers_writeWord _ _ _ _
  have h2 : KeepsLedgers d1 d2 := by
    simp only [d2]
    split
    · exact .refl d1
    · exact keepsLedgers_writeWord _ _ _ _
  split
  · exact (h1.trans h2).trans (.of_dma rfl)
  · exact h1.trans h2

theorem keepsLedgers_registerWrite (off : Nat) (eight : Bool) (v : BitVec 64) (x : Ctx) (d : Dev) :
    KeepsLedgers d (registerWrite off eight v x d) := by
  unfold registerWrite
  split
  · split
    · exact keepsLedgers_writePair _ _ _ _
    · exact keepsLedgers_accessError _ _
  · split
    · exact keepsLedgers_accessError _ _
    · exact keepsLedgers_writeWord _ _ _ _

/-! The resets. -/

theorem keepsLedgers_functionReset (d : Dev) : KeepsLedgers d (functionReset d) := by
  rw [functionReset_eq]
  have hcmds : KeepsLedgers d (flrCommands (flrRegs d)) :=
    .of_dma (by rw [(flrStep_flrCommands (flrRegs d)).1.frame]; rfl)
  obtain ⟨bs, ps, hmbs⟩ := flrMailboxes_frame (List.range 32) ((flrCommands (flrRegs d)).forAll (List.range 8) flrRingAt)
  rw [hmbs]
  refine (hcmds.trans (keepsLedgers_foldl (fun d n => flrRingAt n d) (fun d n => ?_) _ _)).trans (.of_dma rfl)
  exact .setRing fun _ => balanced_flrRing _

/-- A die reset leaves every ring as after power-on, its ledger at 0. -/
theorem KeepsLedgers.of_lost {d e : Dev} (h : e.dma = []) : KeepsLedgers d e := fun _ =>
  ⟨by rw [h]; rfl, fun n _ => by rw [show e.ring n = {} from congrArg (fun t => Store.get ({} : DmaRing) t n) h]; exact ⟨rfl, rfl⟩⟩

theorem keepsLedgers_resetN (lowNs : Nat) (tear : Option (Fin 16)) (x : Ctx) (d : Dev) : KeepsLedgers d (resetN lowNs tear x d) := by
  unfold resetN
  split_ifs
  · exact .refl d
  · exact .of_lost rfl
  · exact .of_lost rfl
  · exact .of_dma rfl

theorem keepsLedgers_imgRebootReset (x : Ctx) (d : Dev) : KeepsLedgers d (imgRebootReset x d) := by
  unfold imgRebootReset
  split
  · exact .refl d
  · dsimp only
    split <;> exact .of_lost rfl

theorem keepsLedgers_hardwareShutdown (trip : BitVec 4) (tear : Option (Fin 16)) (x : Ctx) (d : Dev) :
    KeepsLedgers d (hardwareShutdown trip tear x d) := by
  unfold hardwareShutdown
  dsimp only
  split
  · exact .refl d
  · exact .of_lost rfl

theorem keepsLedgers_thermalRestart (x : Ctx) (d : Dev) : KeepsLedgers d (thermalRestart x d) := by
  unfold thermalRestart
  split
  · exact .refl d
  · exact .of_lost rfl

/-- A row keeps the ledgers where its operation does: the commit of its writes is no matter of the rings. -/
theorem rowHolds_on {s : State} {f : Ctx → Dev → Dev} (hwf : Store.wf {} s.dev.dma = true) (h : KeepsLedgers s.dev (f s.ctx s.dev))
    (hs : ∀ n : Fin 8, rowHolds s.dev 2 n = true) (n : Fin 8) : rowHolds (s.on f).dev 2 n = true :=
  (rowHolds_dma_iff _ _).mpr ((h hwf).2 n ((rowHolds_dma_iff _ _).mp (hs n)))

/-- Settles O15: each row's operation keeps the ledgers. -/
theorem dmaLedgerIsKept : Obligations.DmaLedgerIsKept := by
  intro c s t hwf hrow hs ht
  cases c with
  | dmaDescriptorDone n h => cases ht; exact rowHolds_on (s := s.sync h) hwf (keepsLedgers_descriptorDone _ _ _) hs
  | dmaStart n => cases ht; exact rowHolds_on hwf (keepsLedgers_dmaStart _ _ _) hs
  | dmaStop n h moved => cases ht; exact rowHolds_on (s := s.sync h) hwf (keepsLedgers_dmaStop _ _ _ _) hs
  | dmaTailWrite n v => cases ht; exact rowHolds_on hwf (keepsLedgers_dmaTail _ _ _ _) hs
  | dmaConfigWrite n w => cases ht; exact rowHolds_on hwf (keepsLedgers_dmaConfig _ _ _ _) hs
  | registerWrite off eight v => cases ht; exact rowHolds_on hwf (keepsLedgers_registerWrite _ _ _ _ _) hs
  | functionLevelReset => cases ht; exact rowHolds_on hwf (keepsLedgers_functionReset _) hs
  | pcieConventionalReset => cases ht; exact rowHolds_on hwf ((keepsLedgers_functionReset _).trans (.of_dma rfl)) hs
  | powerOnReset tear => cases ht; exact rowHolds_on hwf (.of_lost rfl) hs
  | resetN lowNs tear => cases ht; exact rowHolds_on hwf (keepsLedgers_resetN _ _ _ _) hs
  | imgRebootReset => cases ht; exact rowHolds_on hwf (keepsLedgers_imgRebootReset _ _) hs
  | hardwareShutdown trip tear => cases ht; exact rowHolds_on hwf (keepsLedgers_hardwareShutdown _ _ _ _) hs
  | thermalRestart => cases ht; exact rowHolds_on hwf (keepsLedgers_thermalRestart _ _) hs
  | _ => exact hrow.elim

end Sys2Proof.Machine
end

section
/-! The event log and MSI-X (R55, R57, R520, R521): the control registers of the log, the message of an unmasked entry, and the record
that firmware writes next. -/

namespace Sys2Proof.Machine

/-- A row that queues one host write makes it, and leaves DDR5. -/
theorem State.on_one_host_write {s : State} {f : Ctx → Dev → Dev} {a : Nat} {bs : List Byte} (h : (f s.ctx s.dev).wr = [.host a bs]) :
    (s.on f).ddr = s.ddr ∧ (s.on f).host = Mem.write s.host a bs := by
  have hddr : (s.on f).ddr = (f s.ctx s.dev).wr.foldl ddrAfter s.ddr := rfl
  have hhost : (s.on f).host = (f s.ctx s.dev).wr.foldl hostAfter s.host := rfl
  rw [hddr, hhost, h]
  exact ⟨rfl, rfl⟩

/-! Control (R57). -/

theorem logEnable_starts {x : Ctx} {d : Dev} (hoff : d.evt.enable = false) (hlo : 6 ≤ d.evt.log2.toNat) (hhi : d.evt.log2.toNat ≤ 16) :
    logEnable x d = { d with evt := { d.evt with enable := true, head := d.evt.tail } } := by
  have hsize : ¬(d.evt.log2.toNat < 6 ∨ 16 < d.evt.log2.toNat) := by omega
  simp only [logEnable, hoff, if_neg hsize]
  rfl

theorem logEnable_refused {x : Ctx} {d : Dev} (hoff : d.evt.enable = false) (hsize : d.evt.log2.toNat < 6 ∨ 16 < d.evt.log2.toNat) :
    logEnable x d = accessError 0x1054 d := by
  simp only [logEnable, hoff, if_pos hsize]
  rfl

theorem logTail_taken {v : BitVec 32} {x : Ctx} {d : Dev}
    (h : d.evt.enable = false ∨ (d.evt.head - v).toNat ≤ 2 ^ d.evt.log2.toNat) :
    logTail v x d = { d with evt := { d.evt with tail := v } } := by
  refine if_neg ?_
  rcases h with h | h
  · simp [h]
  · simp only [Bool.and_eq_true, decide_eq_true_eq, not_and]
    omega

theorem logTail_refused {v : BitVec 32} {x : Ctx} {d : Dev} (hon : d.evt.enable = true)
    (h : 2 ^ d.evt.log2.toNat < (d.evt.head - v).toNat) : logTail v x d = accessError 0x1050 d :=
  if_pos (by rw [hon, decide_eq_true h]; rfl)

theorem logConfig_disabled {w : CfgWrite} {x : Ctx} {d : Dev} (hoff : d.evt.enable = false) :
    logConfig w x d = cfgWrite 0x1040 (fun v d => { d with evt := { d.evt with base := v } })
      (fun v d => { d with evt := { d.evt with log2 := v } }) w d := if_neg (by simp [hoff])

theorem logConfig_refused {w : CfgWrite} {x : Ctx} {d : Dev} (hon : d.evt.enable = true) :
    logConfig w x d = accessError (cfgOff 0x1040 0x1048 w) d := if_pos hon

/-! Messages (R55). -/

/-- With no message held for the vector, unmasking only unmasks. -/
theorem msixUnmask_none_held {v : Nat} {x : Ctx} {d : Dev} (h : d.evt.pba.getLsbD v = false) :
    msixUnmask v x d = putMsix v (fun e => { e with mask := false }) d := if_neg (by simp [putMsix, h])

/-- The message of an unmasked entry goes out while the link is up. -/
theorem sendMessage_sent {v : Nat} {d : Dev} (hmask : (Store.get ({} : Msix) d.evt.msix v).mask = false) (hlink : d.hif.linkUp = true) :
    sendMessage v d = { d with wr := d.wr ++
      [.host (Store.get ({} : Msix) d.evt.msix v).addr.toNat (le 4 (Store.get ({} : Msix) d.evt.msix v).data.toNat)] } := by
  unfold sendMessage
  dsimp only
  rw [hmask, hlink]
  rfl

/-- A held message goes out, and leaves the pending-bit array, once its entry is unmasked while the link is up. -/
theorem sendHeldMessage_sent {v : Nat} {d : Dev} (hheld : d.evt.pba.getLsbD v = true)
    (hmask : (Store.get ({} : Msix) d.evt.msix v).mask = false) (hlink : d.hif.linkUp = true) :
    sendHeldMessage v d = { d with
      evt := { d.evt with pba := d.evt.pba &&& ~~~(srcBit v) }
      wr := d.wr ++ [.host (Store.get ({} : Msix) d.evt.msix v).addr.toNat (le 4 (Store.get ({} : Msix) d.evt.msix v).data.toNat)] } := by
  unfold sendHeldMessage
  dsimp only
  rw [hheld, hmask, hlink]
  exact sendMessage_sent (d := { d with evt := { d.evt with pba := d.evt.pba &&& ~~~(srcBit v) } }) hmask hlink

/-- With the link up, unmasking sends the message held for the vector. -/
theorem msixUnmask_sends {v : Nat} {x : Ctx} {d : Dev} (hheld : d.evt.pba.getLsbD v = true) (hlink : d.hif.linkUp = true)
    (hwf : Store.wf {} d.evt.msix = true) :
    let m := Store.get ({} : Msix) d.evt.msix v
    msixUnmask v x d = { d with
      evt := { d.evt with pba := d.evt.pba &&& ~~~(srcBit v), msix := Store.set {} d.evt.msix v { m with mask := false } }
      wr := d.wr ++ [.host m.addr.toNat (le 4 m.data.toNat)] } := by
  intro m
  have hentry : Store.get {} (Store.set {} d.evt.msix v { m with mask := false }) v = { m with mask := false } := Store.get_set_same hwf
  have hsent := sendHeldMessage_sent (d := putMsix v (fun e => { e with mask := false }) d) hheld (congrArg Msix.mask hentry) hlink
  simp only [putMsix] at hsent
  rw [hentry] at hsent
  exact hsent

/-- Settles O17: each row is its operation, in the case the clause names. -/
theorem eventLogAndMsixRegisters : Obligations.EventLogAndMsixRegisters := by
  refine ⟨?_, ?_⟩
  · intro v w g vec s hwr e
    refine ⟨fun hoff hlo hhi => ?_, fun hoff hsize => ?_, ?_, fun h => ?_, fun hon h => ?_, fun hoff => ⟨?_, ?_, ?_, ?_⟩, fun hon => ?_, ?_⟩
    · exact next_on_eq (logEnable_starts hoff hlo hhi) hwr
    · exact next_on_congr (logEnable_refused hoff hsize)
    · exact next_on_eq rfl hwr
    · exact next_on_eq (logTail_taken h) hwr
    · exact next_on_congr (logTail_refused hon h)
    · exact next_on_eq (logConfig_disabled hoff) hwr
    · exact next_on_eq (logConfig_disabled hoff) hwr
    · exact next_on_eq (logConfig_disabled hoff) hwr
    · exact next_on_eq (logConfig_disabled hoff) hwr
    · exact next_on_congr (logConfig_refused hon)
    · exact fun hnone => next_on_eq (msixUnmask_none_held hnone) hwr
  · intro v s hs hwf hheld hlink m
    obtain ⟨hd, hh, hwr⟩ := hs
    have hrow : msixUnmask v s.ctx s.dev = _ := msixUnmask_sends hheld hlink hwf
    have hdev : (s.on (msixUnmask v)).dev = { msixUnmask v s.ctx s.dev with wr := [] } := rfl
    obtain ⟨hddr, hhost⟩ := State.on_one_host_write (s := s) (f := msixUnmask v) (a := m.addr.toNat) (bs := le 4 m.data.toNat)
      (by rw [hrow, hwr]; rfl)
    have hpba : (s.on (msixUnmask v)).dev.evt.pba = s.dev.evt.pba &&& ~~~(srcBit v) := by rw [hdev, hrow]
    refine ⟨_, rfl, ?_, hddr, ?_, fun a ha => ?_, fun u hu => ?_⟩
    · rw [hpba]; simp
    · rw [hhost]; exact Mem.read_write_length hh (length_le _ _)
    · rw [hhost]; exact Mem.byte_write_outside (by simpa using ha)
    · have hne : v.val ≠ u.val := fun h => hu (Fin.ext h.symm)
      rw [hpba, BitVec.getLsbD_and, BitVec.getLsbD_not, getLsbD_srcBit]
      simp [hne]

/-! Records (R520, R521). -/

/-- The oldest raise is recorded first, unless a later one of its source and INSTANCE has an earlier LAT. -/
theorem nextRaise_oldest {r : Raise} {rest : List Raise} (h : ∀ q ∈ rest, q.src = r.src → q.inst = r.inst → r.lat ≤ q.lat) :
    nextRaise (r :: rest) = some r := by
  unfold nextRaise
  rw [List.foldl_cons]
  refine List.foldlRecOn (motive := fun m => m = some r) rest _ rfl fun m hm q hq => ?_
  subst hm
  refine if_neg fun ⟨hsrc, hinst, hlat⟩ => ?_
  have := h q hq hsrc hinst
  omega

/-- With room in the log, source 40 disabled and no message waiting for the record, a record is 32 bytes at HEAD. -/
theorem writeRecord_plain {r : Raise} {d : Dev} (hroom : logHasRoom d.evt = true) (hmsg : r.msg = false)
    (hen : d.evt.en.getLsbD 40 = false) :
    writeRecord r d = { d with
      evt := { d.evt with head := d.evt.head + 1, pend := d.evt.pend ||| srcBit 40 }
      wr := d.wr ++ [.host (d.evt.base.toNat + 32 * (d.evt.head.toNat % 2 ^ d.evt.log2.toNat)) (recordBytes d r)] } := by
  simp only [writeRecord, hroom, hmsg, if_true]
  rw [raiseQuiet_disabled (by simpa [hostWrite] using hen)]
  rfl

theorem length_recordBytes (d : Dev) (r : Raise) : (recordBytes d r).length = 32 := by simp [recordBytes]

/-- Firmware records the next raise while the link is up and a core runs. -/
theorem logRecordWrite_records {r : Raise} {x : Ctx} {d : Dev} (hnext : nextRaise d.evt.raised = some r) (hgap : inGap d = false)
    (hcore : d.mirror.failed = false) (hlink : d.hif.linkUp = true) :
    logRecordWrite x d = writeRecord r { d with evt := { d.evt with raised := d.evt.raised.erase r } } := by
  have hmay : ¬(inGap d || d.mirror.failed || (!d.hif.linkUp && logHasRoom d.evt)) = true := by simp [hgap, hcore, hlink]
  simp only [logRecordWrite, hnext]
  exact if_neg hmay

/-- Settles O18: the raise recorded is the oldest, and its record is all that the row writes. -/
theorem logRecordReachesItsRing : Obligations.LogRecordReachesItsRing := by
  intro r rest s hs hraised hfirst hgap hcore hlink hroom hmsg hen e at_
  obtain ⟨hd, hh, hwr⟩ := hs
  have hrest : s.dev.evt.raised.erase r = rest := by rw [hraised, List.erase_cons_head]
  have hrow : logRecordWrite s.ctx s.dev = { s.dev with
      evt := { e with head := e.head + 1, raised := rest, pend := e.pend ||| srcBit 40 }
      wr := s.dev.wr ++ [.host at_ (recordBytes s.dev r)] } := by
    rw [logRecordWrite_records (by rw [hraised]; exact nextRaise_oldest hfirst) hgap hcore hlink, hrest]
    exact writeRecord_plain (d := { s.dev with evt := { s.dev.evt with raised := rest } }) hroom hmsg hen
  have hdev : (s.on logRecordWrite).dev = { logRecordWrite s.ctx s.dev with wr := [] } := rfl
  obtain ⟨-, hhost⟩ := State.on_one_host_write (s := s) (f := logRecordWrite) (a := at_) (bs := recordBytes s.dev r)
    (by rw [hrow, hwr]; rfl)
  refine ⟨_, rfl, ?_, fun a ha => ?_, ?_⟩
  · rw [hhost]; exact Mem.read_write_length hh (length_recordBytes _ _)
  · rw [hhost]; exact Mem.byte_write_outside (by rw [length_recordBytes]; exact ha)
  · rw [hdev, hrow]

end Sys2Proof.Machine
end

section
/-! BAR0 (R15, R17, R40 to R42): reads of RL registers and their shadows, accesses that R40 does not allow, and REGISTER_WRITE. -/

namespace Sys2Proof.Machine

/-! RL registers (R17, R41). -/

/-- The low half of an RL register stands at a multiple of 8. -/
theorem rlValue_aligned {d : Dev} {off v : Nat} (h : rlValue d off = some v) : off % 8 = 0 := by
  unfold rlValue at h
  split_ifs at h with h1 h2 h3 h4 h5 h6
  · omega
  · omega
  · omega
  · omega
  · dsimp only at h
    split at h
    · omega
    · omega
    · cases h
  · dsimp only at h
    split at h
    · omega
    · omega
    · cases h

/-- The high half of an RL register reads its shadow (R15). -/
theorem bar0Word_high {x : Ctx} {d : Dev} {off v : Nat} (h : rlValue d off = some v) :
    bar0Word x d (off + 4) = (Store.get 0 d.hif.rlShadow off).toNat := by
  have hlow := rlValue_aligned h
  have hnone : rlValue d (off + 4) = none := by
    by_contra hne
    obtain ⟨w, hw⟩ := Option.ne_none_iff_exists'.mp hne
    have := rlValue_aligned hw
    omega
  have hself : rlValue d (off + 4 - 4) = some v := h
  simp only [bar0Word, hnone, hself]
  exact if_pos ⟨by omega, rfl⟩

/-- A read of an RL register's low half: what the read returned, and the high half in the register's shadow. -/
def latched (off v : Nat) (data : List Byte) (d : Dev) : Dev := { d with readData := some data, hif := latchHigh off v d.hif }

theorem rlLow_eq {off v : Nat} {x : Ctx} {d : Dev} (h : rlValue d off = some v) : rlLow off x d = latched off v (le 4 v) d := by
  simp only [rlLow, h, latched]

theorem rlBoth_eq {off v : Nat} {x : Ctx} {d : Dev} (h : rlValue d off = some v) : rlBoth off x d = latched off v (le 8 v) d := by
  simp only [rlBoth, h, latched]

/-- After the read, the register's high half is that of the value read. -/
theorem bar0Word_latched_same {x : Ctx} {d : Dev} {off v : Nat} (data : List Byte) (h : rlValue d off = some v)
    (hwf : Store.wf 0 d.hif.rlShadow = true) : bar0Word x (latched off v data d) (off + 4) = v / 2 ^ 32 % 2 ^ 32 := by
  rw [bar0Word_high (d := latched off v data d) h]
  simp only [latched, latchHigh]
  rw [Store.get_set_same hwf]
  simp [half]

/-- The high half of every other RL register reads as before. -/
theorem bar0Word_latched_other {x : Ctx} {d : Dev} {off v o w : Nat} (data : List Byte) (hne : o ≠ off) (ho : rlValue d o = some w) :
    bar0Word x (latched off v data d) (o + 4) = bar0Word x d (o + 4) := by
  rw [bar0Word_high (d := latched off v data d) ho, bar0Word_high ho]
  simp only [latched, latchHigh]
  rw [Store.get_set_other hne]

/-! Accesses that R40 does not allow. -/

theorem badAccess_write {off size : Nat} {x : Ctx} {d : Dev} (h : lawfulAccess true off size = false) :
    badAccess true off size x d = accessError off d := if_neg (by simp [h])

theorem badAccess_read {off size : Nat} {x : Ctx} {d : Dev} (h : lawfulAccess false off size = false) :
    badAccess false off size x d =
      accessError off { d with readData := some (List.replicate ((size + 3) / 4 * 4) 0xFF) } := if_neg (by simp [h])

/-! REGISTER_WRITE: which registers a 4-byte write meets. -/

theorem registerWrite_word {off : Nat} {v : BitVec 64} {x : Ctx} {d : Dev} (h : off % 4 = 0) :
    registerWrite off false v x d = writeWord off (v.setWidth 32) x d := if_neg (not_not.mpr h)

theorem registerWrite_misaligned {off : Nat} {v : BitVec 64} {x : Ctx} {d : Dev} (h : off % 4 ≠ 0) :
    registerWrite off false v x d = accessError off d := if_pos h

theorem writeWord_dma {n r : Nat} {v : BitVec 32} {x : Ctx} {d : Dev} (hn : n < 8) (hr : r < 0x40) :
    writeWord (0x400 + 0x40 * n + r) v x d = writeDma n r v x d := by
  unfold writeWord
  rw [if_neg (by omega), if_neg (by omega), if_neg (by omega), if_pos (by omega),
    show (0x400 + 0x40 * n + r - 0x400) / 0x40 = n by omega, show (0x400 + 0x40 * n + r) % 0x40 = r by omega]

theorem writeWord_mb {m r : Nat} {v : BitVec 32} {x : Ctx} {d : Dev} (hm : m < 32) (hr : r < 0x40) :
    writeWord (0x800 + 0x40 * m + r) v x d = writeMb m r v x d := by
  unfold writeWord
  rw [if_neg (by omega), if_neg (by omega), if_neg (by omega), if_neg (by omega), if_pos (by omega),
    show (0x800 + 0x40 * m + r - 0x800) / 0x40 = m by omega, show (0x800 + 0x40 * m + r) % 0x40 = r by omega]

theorem writeWord_evt {off : Nat} {v : BitVec 32} {x : Ctx} {d : Dev} (hlo : 0x1000 ≤ off) (hhi : off < 0x1100) :
    writeWord off v x d = writeEvt off v x d := by
  unfold writeWord
  rw [if_neg (by omega), if_neg (by omega), if_neg (by omega), if_neg (by omega), if_neg (by omega), if_pos ⟨hlo, hhi⟩]

/-- A write to a read-only or unlisted offset is ignored. -/
theorem writeWord_ignored {off : Nat} {v : BitVec 32} {x : Ctx} {d : Dev}
    (h : off < 0x24 ∨ (0x28 ≤ off ∧ off < 0x104) ∨ 0x21000 ≤ off) : writeWord off v x d = d := by
  unfold writeWord
  rw [if_neg (by omega), if_neg (by omega), if_neg (by omega), if_neg (by omega), if_neg (by omega), if_neg (by omega),
    if_neg (by omega), if_neg (by omega)]

theorem registerWrite_bar2Win {v : BitVec 64} {x : Ctx} {d : Dev} :
    registerWrite 0x104 false v x d = { d with hif := { d.hif with bar2Win := v.setWidth 3 } } := by
  rw [← BitVec.setWidth_setWidth_of_le v (show 3 ≤ 32 by decide)]
  rfl

/-- EVT_ENk takes the value written, at its place among the 256 sources. -/
theorem writeEvt_en {k : Nat} {v : BitVec 32} {x : Ctx} {d : Dev} (hk : k < 8) :
    writeEvt (0x1020 + 4 * k) v x d = { d with evt := { d.evt with
      en := (d.evt.en &&& ~~~(pendWord k (BitVec.allOnes 32))) ||| pendWord k v } } := by
  unfold writeEvt
  rw [if_neg (by omega), if_pos (by omega), show 0x1020 + 4 * k - 0x1020 = 4 * k by omega, show 8 * (4 * k) = 32 * k by omega]
  rfl

theorem registerWrite_en {k : Nat} {v : BitVec 64} {x : Ctx} {d : Dev} (hk : k < 8) :
    registerWrite (0x1020 + 4 * k) false v x d = { d with evt := { d.evt with
      en := (d.evt.en &&& ~~~(pendWord k (BitVec.allOnes 32))) ||| pendWord k (v.setWidth 32) } } := by
  rw [registerWrite_word (by omega), writeWord_evt (by omega) (by omega), writeEvt_en hk]

theorem getLsbD_writeEvt_en {k i : Nat} (en : BitVec 256) (v : BitVec 32) (hi : i < 256) :
    ((en &&& ~~~(pendWord k (BitVec.allOnes 32))) ||| pendWord k v).getLsbD i =
      if i / 32 = k then v.getLsbD (i % 32) else en.getLsbD i := by
  have hin : i % 32 < 32 := Nat.mod_lt _ (by decide)
  simp only [BitVec.getLsbD_or, BitVec.getLsbD_and, BitVec.getLsbD_not, getLsbD_pendWord _ hi, hi, BitVec.getLsbD_allOnes, hin]
  by_cases hk : i / 32 = k <;> simp [hk]

/-- Settles O19: both reads latch the register's high half, and each write is the one operation its offset names. -/
theorem registerAccessRules : Obligations.RegisterAccessRules := by
  refine ⟨?_, ?_⟩
  · intro off v s hwr hwf hval others
    refine ⟨⟨_, next_on_eq (rlLow_eq hval) hwr, rfl, bar0Word_latched_same _ hval hwf, ?_, rfl⟩,
      ⟨_, next_on_eq (rlBoth_eq hval) hwr, rfl, bar0Word_latched_same _ hval hwf, ?_, rfl⟩⟩
    · exact fun o w hne ho => bar0Word_latched_other _ hne ho
    · exact fun o w hne ho => bar0Word_latched_other _ hne ho
  · intro off size v k s hwr
    refine ⟨fun h => ?_, fun h => ?_, ?_, ?_, ⟨_, next_on_eq (registerWrite_en k.isLt) hwr, fun i hi => ?_⟩, fun h => ?_, fun h hoff => ?_⟩
    · exact next_on_congr (badAccess_write h)
    · exact next_on_congr (badAccess_read h)
    · exact next_on_eq rfl hwr
    · exact next_on_eq registerWrite_bar2Win hwr
    · rw [getLsbD_writeEvt_en _ _ hi, BitVec.getLsbD_setWidth]
      simp [Nat.mod_lt i (show 0 < 32 by decide)]
    · exact next_on_congr (registerWrite_misaligned h)
    · exact next_on_eq ((registerWrite_word h).trans (writeWord_ignored hoff)) hwr

/-! Bases (R42): the low half is kept, the high half or one 8-byte write makes the whole value take effect. -/

/-- A register offset behaves as a base on the devices of `W`, which is no matter of BAR0's own registers: its low half is kept, and its high
half sets the whole value by `set`, which touches neither those registers nor the write queue. -/
structure BaseRegister (off : Nat) (W : Dev → Prop) (set : BitVec 64 → Dev → Dev) : Prop where
  aligned : off % 8 = 0
  congr : ∀ d h, W d → W { d with hif := h }
  low : ∀ w x d, W d → writeWord off w x d = keepLow off w d
  high : ∀ w x d, W d →
    writeWord (off + 4) w x d = set (BitVec.ofNat 64 (2 ^ 32 * w.toNat + (Store.get 0 d.hif.lowHalf off).toNat)) d
  hif : ∀ b d, (set b d).hif = d.hif
  wr : ∀ b d, (set b d).wr = d.wr

/-- Bits 11 to 0 of a base are reserved (R13), in its low half as in the whole. -/
theorem getLsbD_baseMask : ∀ i : Fin 64, (0xFFFFFFFFFFFFF000 : BitVec 64).getLsbD i = decide (12 ≤ i.val) := by decide

theorem getLsbD_lowMask : ∀ i : Fin 32, (0xFFFFF000 : BitVec 32).getLsbD i = decide (12 ≤ i.val) := by decide

/-- A base written in halves is the base written whole. -/
theorem base_of_halves (v : BitVec 64) :
    BitVec.ofNat 64 (2 ^ 32 * ((v >>> 32).setWidth 32).toNat + (v.setWidth 32 &&& 0xFFFFF000 : BitVec 32).toNat) =
      v &&& 0xFFFFFFFFFFFFF000 := by
  apply BitVec.eq_of_getLsbD_eq
  intro i hi
  have hmask := getLsbD_baseMask ⟨i, hi⟩
  rw [BitVec.getLsbD_ofNat, Nat.testBit_two_pow_mul_add _ (BitVec.isLt _), BitVec.getLsbD_and, hmask]
  by_cases hlow : i < 32
  · rw [if_pos hlow, BitVec.testBit_toNat, BitVec.getLsbD_and, getLsbD_lowMask ⟨i, hlow⟩]
    simp [hi, hlow]
  · have hoff : 32 + (i - 32) = i := by omega
    have hhigh : i - 32 < 32 := by omega
    have h12 : 12 ≤ i := by omega
    rw [if_neg hlow, BitVec.testBit_toNat]
    simp [hi, hhigh, hoff, h12]

section
variable {off : Nat} {W : Dev → Prop} {set : BitVec 64 → Dev → Dev}

/-- The low half alone changes only what is kept of it. -/
theorem BaseRegister.write_low (h : BaseRegister off W set) {v : BitVec 64} {x : Ctx} {d : Dev} (hd : W d) :
    registerWrite off false v x d = keepLow off (v.setWidth 32) d := by
  have := h.aligned
  rw [registerWrite_word (by omega), h.low _ _ _ hd]

/-- With the low half kept, the high half sets the whole value. -/
theorem BaseRegister.write_high (h : BaseRegister off W set) {v : BitVec 64} {x : Ctx} {d : Dev} (hd : W d)
    (hwf : Store.wf 0 d.hif.lowHalf = true) :
    writeWord (off + 4) ((v >>> 32).setWidth 32) x (keepLow off (v.setWidth 32) d) =
      set (v &&& 0xFFFFFFFFFFFFF000) (keepLow off (v.setWidth 32) d) := by
  have hkept : Store.get 0 (keepLow off (v.setWidth 32) d).hif.lowHalf off = v.setWidth 32 &&& 0xFFFFF000 := Store.get_set_same hwf
  have hW : W (keepLow off (v.setWidth 32) d) := h.congr _ _ hd
  rw [h.high _ _ _ hW, hkept, base_of_halves]

/-- An 8-byte write is its two halves: neither is refused. -/
theorem BaseRegister.write_pair (h : BaseRegister off W set) {v : BitVec 64} {x : Ctx} {d : Dev} (hd : W d)
    (hwf : Store.wf 0 d.hif.lowHalf = true) :
    registerWrite off true v x d = set (v &&& 0xFFFFFFFFFFFFF000) (keepLow off (v.setWidth 32) d) := by
  have hlawful : lawfulAccess true off 8 = true := by simp [lawfulAccess, accessOk, h.aligned]
  have hlow : writeWord off (v.setWidth 32) x d = keepLow off (v.setWidth 32) d := h.low _ _ _ hd
  have htaken : refusesWrite off (v.setWidth 32) x d = false := by
    rw [refusesWrite, h.low _ _ _ (h.congr _ _ hd)]
    simp [keepLow]
  simp only [registerWrite, hlawful, if_true, writePair, htaken, hlow, h.write_high hd hwf, Bool.false_and]
  simp [h.hif]

/-- Both ways of writing a base leave the same machine, in which the base is the value written. -/
theorem BaseRegister.whole (h : BaseRegister off W set) {base : Dev → BitVec 64} {v : BitVec 64} {s : State} (hwr : s.dev.wr = [])
    (hd : W s.dev) (hwf : Store.wf 0 s.dev.hif.lowHalf = true)
    (hbase : base (set (v &&& 0xFFFFFFFFFFFFF000) (keepLow off (v.setWidth 32) s.dev)) = v &&& 0xFFFFFFFFFFFFF000) :
    ∃ t u, exec (.registerWrite off false v) s = .next t ∧
      t = { s with dev := { s.dev with hif := { s.dev.hif with lowHalf := t.dev.hif.lowHalf } } } ∧
      exec (.registerWrite (off + 4) false (v >>> 32)) t = .next u ∧ base u.dev = v &&& 0xFFFFFFFFFFFFF000 ∧
      exec (.registerWrite off true v) s = .next u := by
  have hset : (set (v &&& 0xFFFFFFFFFFFFF000) (keepLow off (v.setWidth 32) s.dev)).wr = [] := (h.wr _ _).trans hwr
  have haligned := h.aligned
  refine ⟨_, _, next_on_eq (h.write_low hd) hwr, rfl, next_on_eq ?_ hset, hbase, next_on_eq (h.write_pair hd hwf) hset⟩
  rw [registerWrite_word (by omega)]
  exact h.write_high hd hwf

end

theorem Dev.mb_setMb_same {d : Dev} (h : Store.wf {} d.mbs = true) (m : Nat) (b : Mailbox) : (d.setMb m b).mb m = b :=
  Store.get_set_same h

theorem Dev.mb_setMb_other (d : Dev) {m i : Nat} (b : Mailbox) (h : i ≠ m) : (d.setMb m b).mb i = d.mb i := Store.get_set_other h

theorem baseRegister_mb {m : Nat} (hm : m < 32) : BaseRegister (0x808 + 0x40 * m) (fun d => (d.mb m).enable = false ∧ (d.mb m).busy = [])
    (fun v d => d.setMb m { d.mb m with base := v }) where
  aligned := by omega
  congr _ _ h := h
  low w x d h := by
    rw [show 0x808 + 0x40 * m = 0x800 + 0x40 * m + 8 by omega, writeWord_mb hm (by decide)]
    simp [writeMb, cringConfig, h.1, h.2, cfgWrite, mbOff]
  high w x d h := by
    rw [show 0x808 + 0x40 * m + 4 = 0x800 + 0x40 * m + 0xC by omega, writeWord_mb hm (by decide),
      show 0x808 + 0x40 * m = mbOff m 8 by unfold mbOff; omega]
    simp [writeMb, cringConfig, h.1, h.2, cfgWrite, newBase]
  hif _ _ := rfl
  wr _ _ := rfl

theorem baseRegister_dma {n : Nat} (hn : n < 8) :
    BaseRegister (0x400 + 0x40 * n) (fun d => (d.ring n).stat = .stopped ∨ (d.ring n).stat = .configError)
      (fun v d => d.setRing n { d.ring n with base := v }) where
  aligned := by omega
  congr _ _ h := h
  low w x d h := by
    have hword : writeWord (0x400 + 0x40 * n) w x d = writeDma n 0 w x d := writeWord_dma (r := 0) hn (by decide)
    rw [hword]
    exact dmaConfig_rest (x := x) h
  high w x d h := by
    rw [writeWord_dma hn (by decide)]
    exact dmaConfig_rest (x := x) h
  hif _ _ := rfl
  wr _ _ := rfl

theorem baseRegister_log : BaseRegister 0x1040 (fun d => d.evt.enable = false) (fun v d => { d with evt := { d.evt with base := v } }) where
  aligned := by decide
  congr _ _ h := h
  low w x d h := logConfig_disabled (x := x) h
  high w x d h := logConfig_disabled (x := x) h
  hif _ _ := rfl
  wr _ _ := rfl

/-- Settles O20: each of the three is a `BaseRegister` where its base may be written. -/
theorem baseTakesEffectWithItsHighHalf : Obligations.BaseTakesEffectWithItsHighHalf := by
  intro mb n v s hwr hmbs hdma hlow whole
  refine ⟨fun hoff hidle => ?_, fun hrest => ?_, fun hoff => ?_⟩
  · exact (baseRegister_mb mb.isLt).whole (base := fun d => (d.mb mb).base) (v := v) hwr ⟨hoff, hidle⟩ hlow
      (congrArg Mailbox.base (Dev.mb_setMb_same (d := keepLow (0x808 + 0x40 * mb.val) (v.setWidth 32) s.dev) hmbs _ _))
  · exact (baseRegister_dma n.isLt).whole (base := fun d => (d.ring n).base) (v := v) hwr hrest hlow
      (congrArg DmaRing.base (Dev.ring_setRing_same (d := keepLow (0x400 + 0x40 * n.val) (v.setWidth 32) s.dev) hdma _ _))
  · exact baseRegister_log.whole (base := fun d => d.evt.base) hwr hoff hlow rfl

end Sys2Proof.Machine
end

section
/-! BAR2 onto DDR5 (R58, R59): an access below the firmware-reserved region, and one that is refused whole. -/

namespace Sys2Proof.Machine

/-- The flags of an access within fitted DDR5 below the reserved region. -/
theorem bar2Flags_of_usable {d : Dev} {a n : Nat} (h : a + n ≤ ddrReserved d) : bar2Flags d a n = 0 := by
  have hfit : ddrReserved d ≤ ddrFitted d := Nat.sub_le _ _
  rw [bar2Flags, if_neg (by omega), if_neg (by omega)]
  rfl

/-- An access that reaches into the reserved region, or beyond fitted DDR5, sets a flag. -/
theorem bar2Flags_ne_zero {d : Dev} {a n : Nat} (h : ddrReserved d < a + n) (hor : a < ddrFitted d ∨ ddrFitted d < a + n) :
    bar2Flags d a n ≠ 0 := by
  unfold bar2Flags
  by_cases hout : ddrFitted d < a + n
  · rw [if_pos hout]
    split <;> decide
  · rw [if_neg hout, if_pos ⟨h, hor.resolve_right hout⟩]
    decide

theorem eccFault_none {d : Dev} (h : d.eccLines = []) (a n : Nat) : eccFault d a n = none := by
  rw [eccFault, h]; rfl

theorem bar2Write_taken {off : Nat} {bytes : List Byte} {x : Ctx} {d : Dev} (h : bar2Addr d off + bytes.length ≤ ddrReserved d) :
    bar2Write off bytes x d = ddrWrite (bar2Addr d off) bytes d := if_neg (not_not.mpr (bar2Flags_of_usable h))

theorem bar2Write_refused {off : Nat} {bytes : List Byte} {x : Ctx} {d : Dev} (h : bar2Flags d (bar2Addr d off) bytes.length ≠ 0) :
    bar2Write off bytes x d = bar2Fail off bytes.length d := if_pos h

theorem bar2Read_taken {off n : Nat} {x : Ctx} {d : Dev} (h : bar2Addr d off + n ≤ ddrReserved d) (hecc : d.eccLines = []) :
    bar2Read off n x d = { d with readData := some (Mem.read x.ddr (bar2Addr d off) n) } := by
  have hflags : ¬bar2Flags d (bar2Addr d off) n ≠ 0 := not_not.mpr (bar2Flags_of_usable h)
  simp only [bar2Read, if_neg hflags, eccFault_none hecc]

theorem bar2Read_refused {off n : Nat} {x : Ctx} {d : Dev} (h : bar2Flags d (bar2Addr d off) n ≠ 0) :
    bar2Read off n x d = bar2Fail off n { d with readData := some (zeros n) } := if_pos h

/-- A refused access flags its error and raises source 44. -/
theorem raised_bar2Fail (off n : Nat) (d : Dev) :
    Raised (flagError (bar2Flags d (bar2Addr d off) n) true off d) (bar2Fail off n d) := raised_event _ _ _ _

theorem bar2Fail_err (off n : Nat) (d : Dev) : (bar2Fail off n d).hif.err = d.hif.err ||| bar2Flags d (bar2Addr d off) n := by
  rw [(raised_bar2Fail off n d).hif]; rfl

theorem bar2Fail_readData (off n : Nat) (d : Dev) : (bar2Fail off n d).readData = d.readData := by
  rw [(raised_bar2Fail off n d).frame]; rfl

theorem bar2Fail_pend (off n : Nat) (d : Dev) : (bar2Fail off n d).evt.pend.getLsbD 44 = true := event_pend_self _ _ _ (by decide)

/-- What it sends goes to the host, so DDR5 stays. -/
theorem on_bar2Fail_ddr {s : State} {f : Ctx → Dev → Dev} {off n : Nat} {d : Dev} (h : f s.ctx s.dev = bar2Fail off n d) (hwr : d.wr = []) :
    (s.on f).ddr = s.ddr := by
  change (f s.ctx s.dev).wr.foldl ddrAfter s.ddr = s.ddr
  rw [h, (raised_bar2Fail off n d).ddr]
  change d.wr.foldl ddrAfter s.ddr = s.ddr
  rw [hwr]
  rfl

/-- A row that queues one write to DDR5, and changes nothing else. -/
theorem on_ddrWrite {s : State} {f : Ctx → Dev → Dev} {a : Nat} {bs : List Byte} (h : f s.ctx s.dev = ddrWrite a bs s.dev)
    (hwr : s.dev.wr = []) : s.on f = { s with ddr := Mem.write s.ddr a bs } := by
  have hdev : { s.dev with wr := [] } = s.dev := by rw [← hwr]
  have hone : (ddrWrite a bs s.dev).wr = [.ddr a bs] := by rw [ddrWrite, hwr]; rfl
  unfold State.on
  rw [show f ⟨s.fuse, s.ddr, s.host⟩ s.dev = _ from h]
  simp only [hone]
  exact congrArg (fun d => { s with ddr := Mem.write s.ddr a bs, dev := d }) hdev

/-- Settles O21: the flags of R59 decide between the two clauses. -/
theorem bar2WriteReadsBackOrIsRefusedWhole : Obligations.Bar2WriteReadsBackOrIsRefusedWhole := by
  intro off bytes h s hs a
  obtain ⟨hd, hh, hwr⟩ := hs
  refine ⟨fun hfits hecc => ?_, fun hbeyond hor => ?_⟩
  · have hwrite : s.on (bar2Write off bytes) = { s with ddr := Mem.write s.ddr a bytes } := on_ddrWrite (bar2Write_taken hfits) hwr
    let t : State := { s with ddr := Mem.write s.ddr a bytes }
    refine ⟨t, _, congrArg _ hwrite, rfl, fun j hj => Mem.byte_write_outside hj,
      next_on_eq (s := t.sync h) (bar2Read_taken hfits hecc) hwr, ?_, rfl⟩
    exact congrArg some (Mem.read_write_same hd)
  · have hflags : bar2Flags s.dev a bytes.length ≠ 0 := bar2Flags_ne_zero hbeyond hor
    have hw : bar2Write off bytes s.ctx s.dev = bar2Fail off bytes.length s.dev := bar2Write_refused hflags
    have hr : bar2Read off bytes.length (s.sync h).ctx (s.sync h).dev =
        bar2Fail off bytes.length { (s.sync h).dev with readData := some (zeros bytes.length) } := bar2Read_refused hflags
    have hwdev : (s.on (bar2Write off bytes)).dev = { bar2Fail off bytes.length s.dev with wr := [] } :=
      congrArg (fun d : Dev => { d with wr := [] }) hw
    have hrdev : ((s.sync h).on (bar2Read off bytes.length)).dev =
        { bar2Fail off bytes.length { (s.sync h).dev with readData := some (zeros bytes.length) } with wr := [] } :=
      congrArg (fun d : Dev => { d with wr := [] }) hr
    refine ⟨_, _, rfl, on_bar2Fail_ddr hw hwr, ?_, ?_, rfl, on_bar2Fail_ddr (s := s.sync h) hr hwr, ?_, ?_, hflags⟩
    · rw [hwdev]; exact bar2Fail_err _ _ _
    · rw [hwdev]; exact bar2Fail_pend _ _ _
    · rw [hrdev]; exact bar2Fail_readData _ _ _
    · rw [hrdev]; exact bar2Fail_err _ _ _

end Sys2Proof.Machine
end

section
/-! The PCIe link (R30, R36) and the two resets of the function (R38, R94): what training lets out, mailbox by mailbox and vector by
vector. -/

namespace Sys2Proof.Machine

/-! What leaves the device when the link is trained. -/

/-- From `d` to `e` entries and messages go out: HIF registers and MSI-X entries stay, and no pending event is lost. -/
structure SentOut (d e : Dev) : Prop where
  reports : Reports d e
  hif : e.hif = d.hif
  msix : e.evt.msix = d.evt.msix
  pend : ∀ i, d.evt.pend.getLsbD i = true → e.evt.pend.getLsbD i = true

theorem SentOut.refl (d : Dev) : SentOut d d := ⟨Reports.refl d, rfl, rfl, fun _ h => h⟩

theorem SentOut.trans {d e f : Dev} (h : SentOut d e) (g : SentOut e f) : SentOut d f :=
  ⟨h.reports.trans g.reports, g.hif.trans h.hif, g.msix.trans h.msix, fun i hi => g.pend i (h.pend i hi)⟩

theorem sentOut_foldl {α : Type} (g : Dev → α → Dev) (hg : ∀ d a, SentOut d (g d a)) (xs : List α) (d : Dev) :
    SentOut d (xs.foldl g d) :=
  List.foldlRecOn (motive := SentOut d) xs g (SentOut.refl d) fun _ h a _ => h.trans (hg _ a)

theorem Raised.reports {d e : Dev} (h : Raised d e) : Reports d e := ⟨by unfold OnlyReports; rw [h.frame], h.wr⟩

theorem Raised.sentOut {d e : Dev} (h : Raised d e) : SentOut d e := ⟨h.reports, h.hif, h.msix, h.pend⟩

/-- The registers of a mailbox that has posted a completion (R72). -/
def Mailbox.posts (k : Completion) (b : Mailbox) : Mailbox := { b with head := b.head + 1, done := b.done + 1, busy := b.busy.erase k.slot }

theorem sentOut_hostWrite (a : Nat) (bs : List Byte) (d : Dev) : SentOut d (hostWrite a bs d) :=
  ⟨reports_hostWrite a bs d, rfl, rfl, fun _ h => h⟩

theorem sentOut_setMb (m : Nat) (b : Mailbox) (d : Dev) : SentOut d (d.setMb m b) := ⟨reports_setMb d m b, rfl, rfl, fun _ h => h⟩

/-- A posted completion: its result data and its entry go to the host, then the mailbox's registers change and its source is raised. -/
theorem postNow_raised (m : Nat) (k : Completion) (d : Dev) :
    ∃ e, SentOut d e ∧ e.mbs = d.mbs ∧ Raised (e.setMb m ((d.mb m).posts k)) (postNow m k d) := by
  have hresult : SentOut d (if k.wrote d = 0 then d else hostWrite k.raddr (k.result.take (k.wrote d)) d) := by
    split
    · exact SentOut.refl d
    · exact sentOut_hostWrite _ _ d
  have hmbs : (if k.wrote d = 0 then d else hostWrite k.raddr (k.result.take (k.wrote d)) d).mbs = d.mbs := by split <;> rfl
  exact ⟨_, hresult.trans (sentOut_hostWrite _ _ _), hmbs, raised_raiseQuiet m _⟩

theorem sentOut_postNow (m : Nat) (k : Completion) (d : Dev) : SentOut d (postNow m k d) := by
  obtain ⟨e, he, -, hr⟩ := postNow_raised m k d
  exact (he.trans (sentOut_setMb _ _ e)).trans hr.sentOut

theorem wf_mbs_postNow {m : Nat} {k : Completion} {d : Dev} (hwf : Store.wf {} d.mbs = true) : Store.wf {} (postNow m k d).mbs = true := by
  obtain ⟨e, -, he, hr⟩ := postNow_raised m k d
  rw [hr.mbs]
  exact wf_mbs_setMb _ _ (by rw [he]; exact hwf)

theorem postNow_mb {m : Nat} {k : Completion} {d : Dev} (hwf : Store.wf {} d.mbs = true) : (postNow m k d).mb m = (d.mb m).posts k := by
  obtain ⟨e, -, he, hr⟩ := postNow_raised m k d
  rw [hr.mb, Dev.mb_setMb_same (by rw [he]; exact hwf)]

theorem postNow_mb_other {m i : Nat} {k : Completion} {d : Dev} (h : i ≠ m) : (postNow m k d).mb i = d.mb i := by
  obtain ⟨e, -, he, hr⟩ := postNow_raised m k d
  rw [hr.mb, Dev.mb_setMb_other _ _ h, Dev.mb_congr he]

/-- What posting one held completion does: nothing, or it posts one that waits. -/
theorem postHeld_cases (m : Nat) (d : Dev) :
    postHeld m d = d ∨ ∃ k, postHeld m d = postNow m k (d.setMb m { d.mb m with held := (d.mb m).held.erase k }) := by
  unfold postHeld
  split
  · exact .inl rfl
  · split
    · exact .inr ⟨_, rfl⟩
    · exact .inl rfl

theorem sentOut_postHeld (m : Nat) (d : Dev) : SentOut d (postHeld m d) := by
  rcases postHeld_cases m d with h | ⟨k, h⟩ <;> rw [h]
  · exact SentOut.refl d
  · exact (sentOut_setMb _ _ d).trans (sentOut_postNow _ _ _)

theorem wf_mbs_postHeld {m : Nat} {d : Dev} (hwf : Store.wf {} d.mbs = true) : Store.wf {} (postHeld m d).mbs = true := by
  rcases postHeld_cases m d with h | ⟨k, h⟩ <;> rw [h]
  · exact hwf
  · exact wf_mbs_postNow (wf_mbs_setMb _ _ hwf)

theorem postHeld_mb_other {m i : Nat} {d : Dev} (hi : i ≠ m) : (postHeld m d).mb i = d.mb i := by
  rcases postHeld_cases m d with h | ⟨k, h⟩ <;> rw [h]
  rw [postNow_mb_other hi, Dev.mb_setMb_other _ _ hi]

/-- The first held completion goes out, where nothing holds it back and its ring has room. -/
theorem postHeld_mb {m : Nat} {k : Completion} {ks : List Completion} {d : Dev} (hheld : (d.mb m).held = k :: ks)
    (hepoch : k.waitsEpoch = false) (hafter : k.after = []) (hlink : d.hif.linkUp = true) (hroom : ringRoom (d.mb m) = true)
    (hwf : Store.wf {} d.mbs = true) : (postHeld m d).mb m = { (d.mb m).posts k with held := ks } := by
  have hnext : nextHeld (d.mb m) = some k := by simp [nextHeld, hheld, hepoch]
  have hready : (readyToPost d k && canPost d m) = true := by simp [readyToPost_plain hepoch hafter, canPost, hlink, hroom]
  have hrest : (d.mb m).held.erase k = ks := by rw [hheld, List.erase_cons_head]
  simp only [postHeld, hnext, hready, if_true]
  rw [postNow_mb (wf_mbs_setMb _ _ hwf), Dev.mb_setMb_same hwf, hrest]
  rfl

/-- A mailbox has room for all that it holds, none of it waiting for an epoch or for another entry. -/
def Mailbox.MayPostAll (b : Mailbox) : Prop :=
  (∀ k ∈ b.held, k.waitsEpoch = false ∧ k.after = []) ∧ (b.head - b.tail).toNat + b.held.length ≤ 2 ^ b.log2.toNat

/-- `b` has let everything out: it holds nothing, and has counted what it held. -/
def PostedAll (b b' : Mailbox) : Prop :=
  b'.held = [] ∧ b'.head = b.head + BitVec.ofNat 16 b.held.length ∧ b'.done = b.done + BitVec.ofNat 64 b.held.length

/-- After its first completion a mailbox still has room for the others. -/
theorem Mailbox.MayPostAll.tail {b : Mailbox} {k : Completion} {ks : List Completion} (h : b.MayPostAll) (hheld : b.held = k :: ks) :
    ({ b.posts k with held := ks } : Mailbox).MayPostAll := by
  obtain ⟨hfree, hroom⟩ := h
  rw [hheld, List.length_cons] at hroom
  refine ⟨fun q hq => hfree q (by rw [hheld]; exact List.mem_cons_of_mem k hq), ?_⟩
  have hstep : (b.head + 1 - b.tail).toNat ≤ (b.head - b.tail).toNat + 1 := by bv_omega
  change (b.head + 1 - b.tail).toNat + ks.length ≤ 2 ^ b.log2.toNat
  omega

theorem PostedAll.cons {b b' : Mailbox} {k : Completion} {ks : List Completion} (hheld : b.held = k :: ks)
    (h : PostedAll { b.posts k with held := ks } b') : PostedAll b b' := by
  obtain ⟨hnone, hhead, hdone⟩ := h
  refine ⟨hnone, ?_, ?_⟩
  · rw [hhead, hheld, List.length_cons, Nat.add_comm ks.length 1, BitVec.ofNat_add, ← BitVec.add_assoc]; rfl
  · rw [hdone, hheld, List.length_cons, Nat.add_comm ks.length 1, BitVec.ofNat_add, ← BitVec.add_assoc]; rfl

/-- As many rounds as it holds completions empty a mailbox. -/
theorem postedAll_rounds {m : Nat} (xs : List Nat) (d : Dev) (hlen : xs.length = (d.mb m).held.length) (hmay : (d.mb m).MayPostAll)
    (hlink : d.hif.linkUp = true) (hwf : Store.wf {} d.mbs = true) :
    PostedAll (d.mb m) ((xs.foldl (fun d _ => postHeld m d) d).mb m) := by
  induction xs generalizing d with
  | nil =>
    have hnone : (d.mb m).held = [] := List.eq_nil_of_length_eq_zero hlen.symm
    exact ⟨hnone, by simp [hnone], by simp [hnone]⟩
  | cons x xs ih =>
    obtain ⟨k, ks, hheld⟩ := List.exists_cons_of_length_pos (show 0 < (d.mb m).held.length by rw [← hlen]; exact Nat.succ_pos _)
    obtain ⟨hepoch, hafter⟩ := hmay.1 k (by rw [hheld]; exact List.mem_cons_self)
    have hroom : ringRoom (d.mb m) = true := by
      have := hmay.2
      rw [hheld, List.length_cons] at this
      exact decide_eq_true (by omega)
    have hstep := postHeld_mb hheld hepoch hafter hlink hroom hwf
    refine PostedAll.cons hheld ?_
    rw [← hstep]
    refine ih (postHeld m d) ?_ ?_ ?_ (wf_mbs_postHeld hwf)
    · rw [hstep]
      rw [hheld] at hlen
      exact Nat.succ.inj hlen
    · rw [hstep]; exact hmay.tail hheld
    · rw [(sentOut_postHeld m d).hif]; exact hlink

theorem sentOut_postAllHeld (m : Nat) (d : Dev) : SentOut d (postAllHeld m d) := sentOut_foldl _ (fun d _ => sentOut_postHeld m d) _ d

theorem wf_mbs_postAllHeld {m : Nat} {d : Dev} (hwf : Store.wf {} d.mbs = true) : Store.wf {} (postAllHeld m d).mbs = true :=
  List.foldlRecOn (motive := fun e : Dev => Store.wf {} e.mbs = true) _ _ hwf fun _ h _ _ => wf_mbs_postHeld h

theorem postAllHeld_mb_other {m i : Nat} {d : Dev} (hi : i ≠ m) : (postAllHeld m d).mb i = d.mb i :=
  List.foldlRecOn (motive := fun e : Dev => e.mb i = d.mb i) _ _ rfl fun _ h _ _ => (postHeld_mb_other hi).trans h

/-- Every mailbox that may post all it holds has done so. -/
theorem postedAll_forAll {d : Dev} {m : Nat} (hm : m < 32) (hmay : (d.mb m).MayPostAll) (hlink : d.hif.linkUp = true)
    (hwf : Store.wf {} d.mbs = true) : PostedAll (d.mb m) ((d.forAll (List.range 32) postAllHeld).mb m) :=
  (forAll_range_rel (P := fun d => d.hif.linkUp = true ∧ Store.wf {} d.mbs = true) (get := Dev.mb)
    (R := fun _ b b' => b.MayPostAll → PostedAll b b') (g := postAllHeld)
    (fun m d h => ⟨by rw [(sentOut_postAllHeld m d).hif]; exact h.1, wf_mbs_postAllHeld h.2⟩)
    (fun m d h hmay => postedAll_rounds _ d (List.length_range) hmay h.1 h.2)
    (fun _ _ _ h => postAllHeld_mb_other h) 32 ⟨hlink, hwf⟩).2.1 m hm hmay

/-! Messages. -/

/-- What a held message's turn does: it goes out, or it stays for want of the link or behind its mask. -/
theorem sendHeldMessage_cases (v : Nat) (d : Dev) :
    (¬(d.evt.pba.getLsbD v = true ∧ (Store.get ({} : Msix) d.evt.msix v).mask = false ∧ d.hif.linkUp = true) ∧
      sendHeldMessage v d = d) ∨ ∃ ws, HostOnly ws ∧
      sendHeldMessage v d = { d with evt := { d.evt with pba := d.evt.pba &&& ~~~(srcBit v) }, wr := d.wr ++ ws } := by
  by_cases h : d.evt.pba.getLsbD v = true ∧ (Store.get ({} : Msix) d.evt.msix v).mask = false ∧ d.hif.linkUp = true
  · exact .inr ⟨_, HostOnly.single _ _, sendHeldMessage_sent h.1 h.2.1 h.2.2⟩
  · refine .inl ⟨h, if_neg fun hc => h ?_⟩
    simpa [and_assoc] using hc

theorem sentOut_sendHeldMessage (v : Nat) (d : Dev) : SentOut d (sendHeldMessage v d) := by
  rcases sendHeldMessage_cases v d with ⟨-, h⟩ | ⟨ws, ho, h⟩ <;> rw [h]
  · exact SentOut.refl d
  · exact ⟨⟨rfl, ws, rfl, ho⟩, rfl, rfl, fun _ h => h⟩

/-- With the link up no message of an unmasked vector is held after its turn. -/
theorem sendHeldMessage_pba {v : Nat} {d : Dev} (hlink : d.hif.linkUp = true) (hmask : (Store.get ({} : Msix) d.evt.msix v).mask = false) :
    (sendHeldMessage v d).evt.pba.getLsbD v = false := by
  rcases sendHeldMessage_cases v d with ⟨hnot, h⟩ | ⟨ws, -, h⟩ <;> rw [h]
  · exact Bool.eq_false_iff.mpr fun hheld => hnot ⟨hheld, hmask, hlink⟩
  · simp

theorem sendHeldMessage_pba_other {v u : Nat} {d : Dev} (hu : u ≠ v) :
    (sendHeldMessage v d).evt.pba.getLsbD u = d.evt.pba.getLsbD u := by
  rcases sendHeldMessage_cases v d with ⟨-, h⟩ | ⟨ws, -, h⟩ <;> rw [h]
  by_cases hin : u < 256
  · rw [BitVec.getLsbD_and, BitVec.getLsbD_not, getLsbD_srcBit]
    simp [hin, hu.symm]
  · rw [BitVec.getLsbD_of_ge _ _ (by omega), BitVec.getLsbD_of_ge _ _ (by omega)]

/-- Every unmasked vector has sent its message. -/
theorem pba_forAll_sendHeldMessage {d : Dev} {v : Nat} (hv : v < 256) (hlink : d.hif.linkUp = true)
    (hmask : (Store.get ({} : Msix) d.evt.msix v).mask = false) :
    (d.forAll (List.range 256) sendHeldMessage).evt.pba.getLsbD v = false :=
  (forAll_range_rel (P := fun e => e.hif.linkUp = true ∧ e.evt.msix = d.evt.msix) (get := fun e v => e.evt.pba.getLsbD v)
    (R := fun v _ b => (Store.get ({} : Msix) d.evt.msix v).mask = false → b = false) (g := sendHeldMessage)
    (fun v e h => ⟨by rw [(sentOut_sendHeldMessage v e).hif]; exact h.1, (sentOut_sendHeldMessage v e).msix.trans h.2⟩)
    (fun v e h hmask => sendHeldMessage_pba h.1 (by rw [h.2]; exact hmask))
    (fun _ _ _ h => sendHeldMessage_pba_other h) 256 ⟨hlink, rfl⟩).2.1 v hv hmask

theorem forAll_sendHeldMessage_mbs (vs : List Nat) (d : Dev) : (d.forAll vs sendHeldMessage).mbs = d.mbs := by
  unfold Dev.forAll
  refine List.foldlRecOn (motive := fun e : Dev => e.mbs = d.mbs) vs _ rfl fun e he v _ => ?_
  rcases sendHeldMessage_cases v e with ⟨-, h⟩ | ⟨ws, -, h⟩ <;> rw [h] <;> exact he

/-! Training. -/

/-- HIF_LINK says that the link came up degraded (R36). -/
def degradedLink (speed width : Nat) : Bool := decide (speed < 6) || decide (width < 8)

/-- The device once the link is trained, before anything is reported or sent. -/
def trainedDev (speed width : Nat) (flit : Bool) (set : Option PcieSet) (d : Dev) : Dev :=
  { d with
    hif := { d.hif with linkUp := true, linkSpeed := speed, linkWidth := width, linkFlit := flit, linkDegraded := degradedLink speed width }
    pcie := match set with | none => d.pcie | some v => (hostSets v d).pcie }

/-- A degraded link is reported by source 42. -/
def degradedReport (speed width : Nat) (d : Dev) : Dev :=
  if degradedLink speed width then event 42 0xFFFF (hifLinkWord d.hif) d else d

/-- What the link lets out: held completions, mailbox by mailbox, then held messages. -/
def sendHeld (d : Dev) : Dev := (d.forAll (List.range 32) postAllHeld).forAll (List.range 256) sendHeldMessage

theorem raised_degradedReport (speed width : Nat) (d : Dev) : Raised d (degradedReport speed width d) := by
  unfold degradedReport
  split
  · exact raised_event _ _ _ _
  · exact Raised.refl d

theorem degradedReport_pend {speed width : Nat} (h : speed < 6 ∨ width < 8) (d : Dev) :
    (degradedReport speed width d).evt.pend.getLsbD 42 = true := by
  have hbad : degradedLink speed width = true := by simpa [degradedLink] using h
  rw [degradedReport, if_pos hbad]
  exact event_pend_self _ _ _ (by decide)

theorem sentOut_postAll (d : Dev) : SentOut d (d.forAll (List.range 32) postAllHeld) :=
  sentOut_foldl _ (fun d m => sentOut_postAllHeld m d) _ d

theorem sentOut_sendHeld (d : Dev) : SentOut d (sendHeld d) :=
  (sentOut_postAll d).trans (sentOut_foldl _ (fun d v => sentOut_sendHeldMessage v d) _ _)

theorem sendHeld_mb {d : Dev} {m : Nat} (hm : m < 32) (hmay : (d.mb m).MayPostAll) (hlink : d.hif.linkUp = true)
    (hwf : Store.wf {} d.mbs = true) : PostedAll (d.mb m) ((sendHeld d).mb m) := by
  rw [sendHeld, Dev.mb_congr (forAll_sendHeldMessage_mbs _ _)]
  exact postedAll_forAll hm hmay hlink hwf

theorem sendHeld_pba {d : Dev} {v : Nat} (hv : v < 256) (hlink : d.hif.linkUp = true)
    (hmask : (Store.get ({} : Msix) d.evt.msix v).mask = false) : (sendHeld d).evt.pba.getLsbD v = false :=
  pba_forAll_sendHeldMessage hv (by rw [(sentOut_postAll d).hif]; exact hlink) (by rw [(sentOut_postAll d).msix]; exact hmask)

section
variable {speed width : Nat} {flit : Bool} {set : Option PcieSet} {x : Ctx} {d : Dev}

theorem linkTrained_eq (h : d.images.inReset = false) :
    linkTrained speed width flit set x d = sendHeld (degradedReport speed width (trainedDev speed width flit set d)) := by
  cases set <;> simp only [linkTrained, h, Bool.false_eq_true, if_false] <;> rfl

/-- Training, for a device that is not held in reset. -/
theorem linkTrained_leaves (h : d.images.inReset = false) :
    SentOut (trainedDev speed width flit set d) (linkTrained speed width flit set x d) := by
  rw [linkTrained_eq h]
  exact (raised_degradedReport _ _ _).sentOut.trans (sentOut_sendHeld _)

theorem linkTrained_pend (h : d.images.inReset = false) (hbad : speed < 6 ∨ width < 8) :
    (linkTrained speed width flit set x d).evt.pend.getLsbD 42 = true := by
  rw [linkTrained_eq h]
  exact (sentOut_sendHeld _).pend 42 (degradedReport_pend hbad _)

theorem linkTrained_mb (h : d.images.inReset = false) {m : Nat} (hm : m < 32) (hmay : (d.mb m).MayPostAll)
    (hwf : Store.wf {} d.mbs = true) :
    PostedAll (d.mb m) ((linkTrained speed width flit set x d).mb m) := by
  have hr := raised_degradedReport speed width (trainedDev speed width flit set d)
  have hmb : (degradedReport speed width (trainedDev speed width flit set d)).mb m = d.mb m := hr.mb m
  rw [linkTrained_eq h, ← hmb]
  exact sendHeld_mb hm (by rw [hmb]; exact hmay) (by rw [hr.hif]; rfl) (by rw [hr.mbs]; exact hwf)

theorem linkTrained_pba (h : d.images.inReset = false) {v : Nat} (hv : v < 256)
    (hmask : (Store.get ({} : Msix) d.evt.msix v).mask = false) :
    (linkTrained speed width flit set x d).evt.pba.getLsbD v = false := by
  have hr := raised_degradedReport speed width (trainedDev speed width flit set d)
  rw [linkTrained_eq h]
  exact sendHeld_pba hv (by rw [hr.hif]; rfl) (by rw [hr.msix]; exact hmask)

end

/-- What leaves the device goes to the host: DDR5 does not see it. -/
theorem SentOut.ddr {d e : Dev} (h : SentOut d e) (hwr : d.wr = []) (m : Mem) : e.wr.foldl ddrAfter m = m := by
  obtain ⟨-, ws, hws, ho⟩ := h.reports
  rw [hws, hwr, List.nil_append, foldl_ddrAfter_hostOnly ho]

/-- What a conventional reset does beside a Function Level Reset: configuration space is reset and the link goes down. -/
def conventionalLink (d : Dev) : Dev :=
  { d with
    pcie := {}
    hif := { d.hif with linkUp := false, linkSpeed := 0, linkWidth := 0, linkFlit := false, linkDegraded := false } }

/-- The next state of a row whose operation queued memory writes. -/
theorem next_on_writes {s : State} {f : Ctx → Dev → Dev} {d : Dev} (h : f s.ctx s.dev = d) :
    (Host.Outcome.next (s.on f) : Host.Outcome State Fault Refusal) =
      .next { s with ddr := d.wr.foldl ddrAfter s.ddr, host := d.wr.foldl hostAfter s.host, dev := { d with wr := [] } } := by
  subst h
  rfl

/-- Settles O22. Training lets everything out in two passes, over the mailboxes and over the vectors; a conventional reset is a Function
Level Reset with other link and configuration registers. -/
theorem linkRowsAndFunctionResets : Obligations.LinkRowsAndFunctionResets := by
  unfold Obligations.LinkRowsAndFunctionResets
  refine ⟨?_, ?_⟩
  · intro speed width flit set s hwr _ _ _
    refine ⟨fun hreset => ?_, next_on_eq rfl hwr⟩
    have hsent : SentOut (trainedDev speed width flit set s.dev) (linkTrained speed width flit set s.ctx s.dev) := linkTrained_leaves hreset
    have hpend := @linkTrained_pend speed width flit set s.ctx _ hreset
    have hmb := fun m : Fin 32 => @linkTrained_mb speed width flit set s.ctx _ hreset m m.isLt
    have hpba := fun v : Fin 256 => @linkTrained_pba speed width flit set s.ctx _ hreset v v.isLt
    generalize hd : linkTrained speed width flit set s.ctx s.dev = e at hsent hpend hmb hpba
    refine ⟨_, next_on_writes hd, hsent.ddr hwr s.ddr, ?_, hpend, fun m hwf hfree hroom => hmb m ⟨hfree, hroom⟩ hwf, hpba⟩
    have honly := hsent.reports.1
    unfold OnlyReports at honly
    exact congrArg (fun d : Dev => { d with wr := [] }) honly
  · intro s hwr hdma hmbs after
    have hflr := flrLeaves_functionReset hdma hmbs
    have hconv : conventionalReset s.ctx s.dev = conventionalLink (functionReset s.dev) := rfl
    generalize hd : functionReset s.dev = e at hflr hconv
    obtain ⟨hrings, hboxes, hpend, hen, hpba, henable, hmsix, hhif, hbells, hewr, hframe⟩ := hflr
    have hafter (p : Pcie) (hif : Hif) (hscratch : hif.scratch = 0) (herr : hif.err = 0) (hshadow : hif.rlShadow = [])
        (hstate : hif.state = s.dev.hif.state) : after { s with dev := { e with pcie := p, hif := hif } } := by
      refine ⟨fun n => hrings n n.isLt, fun m => hboxes m m.isLt, hpend, hen, hpba, henable, hmsix, hscratch, herr, hshadow, hstate,
        hbells, rfl, rfl, ?_⟩
      rw [hframe]
      exact ⟨rfl, rfl, rfl, rfl, rfl, rfl, rfl, rfl, rfl⟩
    refine ⟨⟨_, next_on_eq hd (hewr.trans hwr), hafter e.pcie e.hif ?_ ?_ ?_ ?_, ?_⟩,
      ⟨_, next_on_eq hconv (hewr.trans hwr), hafter {} (conventionalLink e).hif ?_ ?_ ?_ ?_, rfl, rfl⟩⟩
    all_goals simp [conventionalLink, hhif]

end Sys2Proof.Machine
end

section
/-! Commands that begin (R77, R83, R90 to R93): which command each kind of row begins, what the system commands do with it, and what a
failed check leaves. -/

namespace Sys2Proof.Machine

/-! Which command a row begins. -/

theorem runCmd_next {sp : CmdSpec} {mb : Nat} {x : Ctx} {d : Dev} {c0 : Cmd} (hnext : nextCmd d mb = some c0) (hop : c0.op = sp.op) :
    runCmd sp mb x d = beginCmd sp c0 x d := by
  simp only [runCmd, hnext, if_pos hop]

theorem runNop_next {mb : Nat} {x : Ctx} {d : Dev} {c0 : Cmd} (hnext : nextCmd d mb = some c0)
    (hop : c0.op = 0x0100 ∨ definedOp c0.op = false) : runNop mb x d = beginCmd sysNopSpec c0 x d := by
  simp only [runNop, hnext, Bool.not_eq_true', if_pos hop]

/-- What a command that a row begins comes from: the mailbox's next command, with the row's opcode and all checks passed. -/
theorem passing_some {sp : CmdSpec} {mb : Nat} {x : Ctx} {d : Dev} {c : Cmd} (h : passing sp mb x d = some c) :
    ∃ c0, nextCmd d mb = some c0 ∧ c0.op = sp.op ∧ checked sp c0 x d = some c := by
  unfold passing at h
  split at h
  · cases h
  · rename_i c0 hnext
    split at h
    · exact ⟨c0, hnext, ‹_›, h⟩
    · cases h

theorem nextCmd_mb {d : Dev} {mb : Nat} {c0 : Cmd} (h : nextCmd d mb = some c0) : c0.mb = mb := by
  obtain ⟨hfind, -⟩ := Option.filter_eq_some_iff.mp h
  simpa using List.find?_some hfind

theorem runNop_passing {mb : Nat} {x : Ctx} {d : Dev} {c : Cmd} (h : passing sysNopSpec mb x d = some c) :
    runNop mb x d = journal c.seq (sysNopSpec.act x c) (putCmd c d) := by
  obtain ⟨c0, hnext, hop, hchecked⟩ := passing_some h
  rw [runNop_next hnext (.inl hop), beginCmd_checked hchecked]

/-! Acceptance (R64). -/

/-- The command that a doorbell accepted now posts. -/
def acceptedCmd (b : Nat × Nat) (d : Dev) : Cmd :=
  { mb := b.1, slot := b.2, seq := d.core.nextSeq, epoch := d.mirror.epochs, bytes := slotBytes d b.1 b.2 }

theorem acceptedCmd_op (b : Nat × Nat) (d : Dev) : (acceptedCmd b d).op = fld (slotBytes d b.1 b.2) 0 2 := rfl

@[simp] theorem lastAccepted_acceptBell (b : Nat × Nat) (d : Dev) : lastAccepted (acceptBell b d) = some (acceptedCmd b d) :=
  List.getLast?_append_cons ..

/-- While firmware runs the oldest doorbell's command is accepted; only an abort begins at its acceptance (R77). -/
theorem acceptNext_bell {b : Nat × Nat} {rest : List (Nat × Nat)} {x : Ctx} {d : Dev} (hbells : d.bells = b :: rest)
    (hfw : firmwareRuns d = true) :
    acceptNext x d =
      if (acceptedCmd b d).op = opAbort then beginAbort (acceptedCmd b d) x (acceptBell b d) else acceptBell b d := by
  simp only [acceptNext, hbells, hfw, lastAccepted_acceptBell, Bool.not_true, Bool.false_eq_true, if_false]

/-! SYS_ABORT (R93). -/

/-- An abort with no bulk payload, or with the host link up, begins. -/
theorem beginAbort_ready {c : Cmd} {x : Ctx} {d : Dev} (h : c.bulk = true → d.hif.linkUp = true) :
    beginAbort c x d = beginCmd sysAbortSpec c x d := by
  refine if_neg fun hwaits => ?_
  simp only [Bool.and_eq_true, Bool.not_eq_true'] at hwaits
  simp [h hwaits.1] at hwaits

theorem runAbort_waiting {mb : Nat} {x : Ctx} {d : Dev} {c0 : Cmd} (hfw : firmwareRuns d = true) (hlink : c0.bulk = true → d.hif.linkUp = true)
    (hwaiting : d.core.cmds.find? (fun q => q.mb = mb && q.op = opAbort && !q.begun) = some c0) :
    runAbort mb x d = beginCmd sysAbortSpec c0 x d := by
  simp only [runAbort, hwaiting, if_pos hfw, beginAbort_ready hlink]

theorem runAbort_doorbelled {mb slot : Nat} {rest : List (Nat × Nat)} {x : Ctx} {d : Dev} {c0 : Cmd} (hfw : firmwareRuns d = true)
    (hlink : c0.bulk = true → d.hif.linkUp = true)
    (hnone : d.core.cmds.find? (fun q => q.mb = mb && q.op = opAbort && !q.begun) = none)
    (hbells : d.bells = (mb, slot) :: rest) (hop : fld (slotBytes d mb slot) 0 2 = opAbort)
    (hlast : lastAccepted (acceptBell (mb, slot) d) = some c0) :
    runAbort mb x d = beginCmd sysAbortSpec c0 x (acceptBell (mb, slot) d) := by
  rw [lastAccepted_acceptBell, Option.some.injEq] at hlast
  subst hlast
  have hrow : runAbort mb x d = acceptNext x d := by
    simp only [runAbort, hnone, hbells, hop, and_self, if_true]
  rw [hrow, acceptNext_bell hbells hfw, acceptedCmd_op, if_pos hop]
  exact beginAbort_ready hlink

/-! A failed check (R83). -/

/-- Committing what the reports queued is a report too. -/
theorem OnlyReports.committed {d e : Dev} (h : OnlyReports d e) : OnlyReports d { e with wr := [] } := by
  unfold OnlyReports at h
  exact congrArg (fun d : Dev => { d with wr := [] }) h

/-- The row of a command that fails a check only reports, and the command has ended. -/
theorem next_on_firstFault {s : State} {g : Ctx → Dev → Dev} {sp : CmdSpec} {c0 : Cmd} {f : Fail} {d : Dev}
    (hrow : g s.ctx s.dev = beginCmd sp c0 s.ctx d) (hfault : firstFault sp c0 s.ctx d = some f) (hwr : d.wr = []) :
    ∃ t, (Host.Outcome.next (s.on g) : Host.Outcome State Fault Refusal) = .next t ∧ OnlyReports d t.dev ∧ t.ddr = s.ddr ∧
      ∀ q ∈ t.dev.core.cmds, q.seq ≠ c0.seq := by
  obtain ⟨c, hseq, -, hfail⟩ := beginCmd_firstFault hfault
  obtain ⟨honly, ws, hws, hhost⟩ := reports_failCmd c f d
  have hcmds := failCmd_cmds c f d
  rw [← hfail, ← hrow] at honly hws hcmds
  refine ⟨s.on g, rfl, honly.committed, ?_, fun q hq => ?_⟩
  · change (g s.ctx s.dev).wr.foldl ddrAfter s.ddr = s.ddr
    rw [hws, hwr, List.nil_append, foldl_ddrAfter_hostOnly hhost]
  · change q ∈ (g s.ctx s.dev).core.cmds at hq
    rw [hcmds, List.mem_filter] at hq
    simpa [hseq] using hq.2

/-- Check 2 of R83: an undefined opcode, at a level that the device knows and the mailbox's pin allows. -/
theorem headerFail_undefinedOp {c : Cmd} {d : Dev} (hop : definedOp c.op = false) (hlo : d.hif.ilLow ≤ c.il) (hhi : c.il ≤ d.hif.ilHigh)
    (hpin : (d.pin c.mb).level = 0 ∨ c.il = (d.pin c.mb).level) : headerFail d c = some (atOffset 0x10 0) := by
  have hlevel : ¬(c.il < d.hif.ilLow ∨ d.hif.ilHigh < c.il ∨ (c.op ≠ 0x0101 ∧ (d.pin c.mb).level ≠ 0 ∧ c.il ≠ (d.pin c.mb).level)) := by
    omega
  simp only [headerFail, if_neg hlevel, hop, Bool.not_false, if_true]

theorem firstFault_of_headerFail {sp : CmdSpec} {c0 : Cmd} {x : Ctx} {d : Dev} {f : Fail} (h : headerFail d c0 = some f) :
    firstFault sp c0 x d = some f := by
  simp only [firstFault, h]

/-- Settles O7: each of the rows begins its command, and a command that fails a check ends as `failCmd` says. -/
theorem failedCheckOnlyReports : Obligations.FailedCheckOnlyReports := by
  intro i sp mb h s c0 f hi hwr reports d0
  have hwr0 : d0.wr = [] := hwr
  refine ⟨fun hnext hop hfault => ?_, fun hnext hop hfault => ?_, fun hop hlo hhi hpin => ?_,
    fun hfw hlink => ⟨fun hwaiting hfault => ?_, fun slot rest hnone hbells hop hlast hfault => ?_⟩⟩
  · simp only [reports, exec_of_commandOf hi]
    exact next_on_firstFault (runCmd_next hnext hop) hfault hwr0
  · exact next_on_firstFault (runNop_next hnext hop) hfault hwr0
  · exact firstFault_of_headerFail (headerFail_undefinedOp hop hlo hhi hpin)
  · exact next_on_firstFault (runAbort_waiting hfw hlink hwaiting) hfault hwr0
  · exact next_on_firstFault (runAbort_doorbelled hfw hlink hnone hbells hop hlast) hfault hwr0

/-- Settles O9: a row whose command passes its checks has that command's effect, which is its chapter's; SYS_HELLO's level depends on the
device's range of levels alone. -/
theorem systemCommandsAnswer : Obligations.SystemCommandsAnswer := by
  intro mb h s c
  refine ⟨fun hb => ?_, fun hb l hl => ?_, cmdRow_begins, cmdRow_begins, cmdRow_begins, cmdRow_begins⟩
  · exact next_on_congr (s := s.sync h) (runNop_passing hb)
  · refine (cmdRow_begins hb).trans (congrArg _ (State.during_congr ?_))
    have hlevel : commonLevel (putCmd c (s.sync h).dev) (c.arg 0 1) (c.arg 1 1) = some l := hl
    simp only [sysHelloSpec, hlevel]

/-- Settles O10: both ways the row begins an abort that passes its checks, whose effect ends what has not begun. -/
theorem abortEndsWhatHasNotBegun : Obligations.AbortEndsWhatHasNotBegun := by
  intro mb h s c0 c effect hfw hlink
  refine ⟨fun hwaiting hchecked => ?_, fun slot rest hnone hbells hop hlast hchecked => ?_⟩
  · have hrow := runAbort_waiting (x := (s.sync h).ctx) (d := (s.sync h).dev) hfw hlink hwaiting
    exact next_on_congr (s := s.sync h) (hrow.trans (beginCmd_checked hchecked))
  · have hrow := runAbort_doorbelled (x := (s.sync h).ctx) (d := (s.sync h).dev) hfw hlink hnone hbells hop hlast
    exact next_on_congr (s := s.sync h) (hrow.trans (beginCmd_checked hchecked))

end Sys2Proof.Machine
end

section
/-! The completion entry (R71, R72): its 32 bytes, field by field, and the one write by which it reaches its ring. -/

namespace Sys2Proof.Machine

/-! Its fields. -/

theorem fld_le (v n : Nat) : fld (le n v) 0 n = v % 2 ^ (8 * n) := by simpa using fld_append_le v n []

/-- FLAGS holds two bits, so its byte holds all of it. -/
theorem flags_lt_byte (staged core : Bool) : flag staged 0 + flag core 1 < 2 ^ 8 := by
  cases staged <;> cases core <;> decide

/-- Each field stands behind those of lower offset, whose lengths are fixed (R71). -/
theorem entryBytes_fields (core : Bool) (k : Completion) (status len : Nat) :
    let b := entryBytes core k status len
    b.length = 32 ∧ fld b 0 4 = k.tag % 2 ^ 32 ∧ fld b 4 2 = k.op % 2 ^ 16 ∧ fld b 6 2 = status % 2 ^ 16 ∧ fld b 8 1 = k.slot % 2 ^ 8 ∧
      fld b 9 1 = flag k.staged 0 + flag core 1 ∧ fld b 10 2 = k.detail % 2 ^ 16 ∧ fld b 12 4 = len % 2 ^ 32 ∧
      fld b 16 4 = k.seq % 2 ^ 32 ∧ fld b 20 4 = k.imm % 2 ^ 32 ∧ fld b 24 8 = k.lt % 2 ^ 64 := by
  intro b
  have hflags := Nat.mod_eq_of_lt (flags_lt_byte k.staged core)
  refine ⟨entryBytes_length core k status len, ?_⟩
  simp only [b, entryBytes, List.append_assoc, fld_append_right, fld_append_le, fld_le, length_le, hflags,
    Nat.reduceLeDiff, Nat.reduceSub, Nat.reduceMul, and_self]

/-! Its way into the ring. -/

/-- The device without command `c`, which has ended (R77). -/
def dropCmd (c : Cmd) (d : Dev) : Dev :=
  { d with core := { d.core with cmds := d.core.cmds.filter (fun q => q.seq ≠ c.seq) } }

/-- A command that completes with no result data posts its entry at once where the link is up, its ring has room and nothing is
held. -/
theorem okCmd_posts {c : Cmd} {d : Dev} (status imm : Nat) (hslot : c.noSlot = false) (hpost : canPost d c.mb = true)
    (hheld : (d.mb c.mb).held = []) :
    okCmd c status imm [] true d = postNow c.mb (c.completion d status 0xFFFF imm [] false) (dropCmd c d) := by
  have hok : okCmd c status imm [] true d = deliver c.mb (c.completion d status 0xFFFF imm [] false) (dropCmd c d) := by
    simp only [okCmd, finishWith, hslot, Bool.not_true, Bool.and_false, Bool.false_eq_true, if_false, dropCmd]
  exact hok.trans (deliver_posts (readyToPost_plain rfl rfl) hpost hheld)

/-- A command of a mailbox's row belongs to that mailbox. -/
theorem begins_mb {sp : CmdSpec} {mb : Nat} {h : HostSide} {s : State} {c : Cmd} (hb : s.begins sp mb h = some c) : c.mb = mb := by
  obtain ⟨c0, hnext, -, hchecked⟩ := passing_some hb
  obtain ⟨rfl, -⟩ := checked_some hchecked
  exact (nextCmd_mb hnext :)

/-- SYS_NOP posts its entry, where nothing holds it back. -/
theorem runNop_posts {mb : Nat} {h : HostSide} {s : State} {c : Cmd} (hb : s.begins sysNopSpec mb h = some c) (hslot : c.noSlot = false)
    (hpost : canPost s.dev mb = true) (hheld : (s.dev.mb mb).held = []) :
    let e := postNow mb (c.completion s.dev 0x0000 0xFFFF 0 [] false) (dropCmd c (putCmd c (s.sync h).dev))
    let f := runNop mb (s.sync h).ctx (s.sync h).dev
    f.wr = e.wr ∧ f.mbs = e.mbs := by
  have hmb := begins_mb hb
  have hact : sysNopSpec.act (s.sync h).ctx c (putCmd c (s.sync h).dev) =
      postNow mb (c.completion s.dev 0x0000 0xFFFF 0 [] false) (dropCmd c (putCmd c (s.sync h).dev)) := by
    rw [← hmb] at hpost hheld ⊢
    exact okCmd_posts 0x0000 0 hslot hpost hheld
  simp only [runNop_passing hb, journal_wr, journal_mbs, hact, and_self]

/-- A completion with no result buffer, of a mailbox whose source is disabled, is one write: its entry. -/
theorem postNow_wr_plain {m : Nat} {k : Completion} {d : Dev} (hraddr : k.raddr = 0) (hen : d.evt.en.getLsbD m = false) :
    (postNow m k d).wr = d.wr ++ [.host ((d.mb m).base.toNat + 32 * ((d.mb m).head.toNat % 2 ^ (d.mb m).log2.toNat))
      (entryBytes d.hif.core k k.status 0)] := by
  rw [postNow_plain hraddr hen]
  rfl

/-- Settles O8: the row is one posting, which with no result buffer and its source disabled is one host write. -/
theorem completionEntryReachesItsRing : Obligations.CompletionEntryReachesItsRing := by
  refine ⟨?_, entryBytes_fields⟩
  intro mb h s c hs hb hwf hslot hraddr hpost hheld hen b slotAt
  obtain ⟨-, hhost, hwr⟩ := hs
  obtain ⟨hewr, hembs⟩ := runNop_posts hb hslot hpost hheld
  have hentry : (runNop mb (s.sync h).ctx (s.sync h).dev).wr =
      [.host slotAt (entryBytes s.dev.hif.core (c.completion s.dev 0x0000 0xFFFF 0 [] false) 0x0000 0)] := by
    refine (hewr.trans (postNow_wr_plain hraddr hen)).trans ?_
    exact congrArg (· ++ _) hwr
  obtain ⟨hddr, hwritten⟩ := State.on_one_host_write (s := s.sync h) (f := runNop mb) hentry
  have hwf' : Store.wf {} (dropCmd c (putCmd c (s.sync h).dev)).mbs = true := hwf
  have hbefore (n : Nat) : (dropCmd c (putCmd c (s.sync h).dev)).mb n = s.dev.mb n := Dev.mb_congr rfl n
  have hafter (n : Nat) : ((s.sync h).on (runNop mb)).dev.mb n = (runNop mb (s.sync h).ctx (s.sync h).dev).mb n := Dev.mb_congr rfl n
  refine ⟨_, rfl, ?_, fun a ha => ?_, hddr, ?_, fun n hn => ?_⟩
  · rw [hwritten]
    exact Mem.read_write_length (State.sync_host_wf h hhost) (entryBytes_length _ _ _ _)
  · rw [hwritten]
    exact Mem.byte_write_outside (by rw [entryBytes_length]; exact ha)
  · rw [hafter, Dev.mb_congr hembs, postNow_mb hwf', hbefore]
    rfl
  · rw [hafter, Dev.mb_congr hembs, postNow_mb_other hn, hbefore]

end Sys2Proof.Machine
end

section
/-! The mailbox registers and command slots (R61 to R64, R73 to R75): what each of their operations does, case by case. -/

namespace Sys2Proof.Machine

/-! Doorbells (R61, R62, R64). -/

theorem doorbell_posts {m : Nat} {v : BitVec 32} {x : Ctx} {d : Dev} (hon : (d.mb m).enable = true)
    (hup : d.hif.state = .ready ∨ d.hif.state = .restricted) (hfree : v.toNat % 16 ∉ (d.mb m).busy) :
    doorbell m v x d = { d.setMb m { d.mb m with busy := (d.mb m).busy ++ [v.toNat % 16] } with
      bells := d.bells ++ [(m, v.toNat % 16)] } := by
  have hstate : (decide (d.hif.state ≠ .ready) && decide (d.hif.state ≠ .restricted)) = false := by
    rcases hup with hready | hrestricted
    · simp [hready]
    · simp [hrestricted]
  have htaken : (d.mb m).busy.contains (v.toNat % 16) = false := by simpa using hfree
  simp only [doorbell, hon, hstate, htaken, Bool.not_true, Bool.or_self, Bool.false_eq_true, if_false]

theorem doorbell_refused {m : Nat} {v : BitVec 32} {x : Ctx} {d : Dev}
    (h : (d.mb m).enable = false ∨ ¬(d.hif.state = .ready ∨ d.hif.state = .restricted) ∨ v.toNat % 16 ∈ (d.mb m).busy) :
    doorbell m v x d = accessError (0x800 + 0x40 * m) d := by
  refine if_pos ?_
  rcases h with hoff | hdown | htaken
  · simp [hoff]
  · simpa using .inl (.inr (not_or.mp hdown))
  · simp [htaken]

/-! Slots (R40, R63). -/

/-- The writes of `putSlot`, as one write to a byte memory. -/
theorem foldl_zipIdx_eq_write (bytes : List Byte) (a k : Nat) (m : Mem) :
    (bytes.zipIdx k).foldl (fun s b => Store.set 0 s (a + b.2) b.1) m = Mem.write m (a + k) bytes := by
  induction bytes generalizing m k with
  | nil => rfl
  | cons b bytes ih => exact ih (k + 1) _

theorem putSlot_eq (a : Nat) (bytes : List Byte) (d : Dev) : putSlot a bytes d = { d with slots := Mem.write d.slots a bytes } := by
  rw [putSlot, foldl_zipIdx_eq_write, Nat.add_zero]

theorem slotWrite_taken {m slot off : Nat} {bytes : List Byte} {x : Ctx} {d : Dev} (hok : slotWriteOk off bytes.length = true)
    (hfree : slot ∉ (d.mb m).busy) :
    slotWrite m slot off bytes x d = { d with slots := Mem.write d.slots (2048 * m + 128 * slot + off) bytes } := by
  rw [← putSlot_eq]
  exact if_neg (by simp [hok, hfree])

theorem slotWrite_refused {m slot off : Nat} {bytes : List Byte} {x : Ctx} {d : Dev} (htaken : slot ∈ (d.mb m).busy) :
    slotWrite m slot off bytes x d = accessError (0x10000 + (2048 * m + 128 * slot + off)) d := if_pos (by simp [htaken])

/-! Acceptance (R64). -/

theorem acceptBell_oldest {b : Nat × Nat} {rest : List (Nat × Nat)} {d : Dev} (hbells : d.bells = b :: rest) :
    acceptBell b d = { d.setMb b.1 { d.mb b.1 with posted := (d.mb b.1).posted + 1 } with
      bells := rest
      core := { d.core with cmds := d.core.cmds ++ [acceptedCmd b d], nextSeq := (d.core.nextSeq + 1) % 2 ^ 32 } } := by
  have hrest : d.bells.erase b = rest := by rw [hbells, List.erase_cons_head]
  rw [← hrest]
  rfl

/-- Settles O11: each row is its operation, in the case the clause names; the slots are a byte memory. -/
theorem slotsAreWrittenPostedAndAccepted : Obligations.SlotsAreWrittenPostedAndAccepted := by
  refine ⟨?_, ?_, ?_⟩
  · intro mb v s hwr b slot up
    exact ⟨fun hon hup hfree => next_on_eq (doorbell_posts hon hup hfree) hwr, fun h => next_on_congr (doorbell_refused h)⟩
  · intro h s m slot rest hwr hfw hbells hop c
    have haccept := acceptNext_bell (x := (s.sync h).ctx) (d := (s.sync h).dev) hbells hfw
    have hnoAbort : (acceptedCmd (m, slot) (s.sync h).dev).op ≠ opAbort := hop
    rw [if_neg hnoAbort, acceptBell_oldest (d := (s.sync h).dev) hbells] at haccept
    exact next_on_eq (s := s.sync h) haccept hwr
  · intro mb slot off bytes s hwr hwf hok a
    refine ⟨fun hfree => ⟨_, next_on_eq (slotWrite_taken hok hfree) hwr, fun i hi => ?_, fun j hj => ?_⟩, fun htaken => ?_⟩
    · exact Mem.byte_write_inside hwf hi
    · exact Mem.byte_write_outside hj
    · exact next_on_congr (slotWrite_refused htaken)

/-! Enabling and disabling (R74, R75). -/

theorem mbEnable_enables {m : Nat} {x : Ctx} {d : Dev} (hidle : (d.mb m).busy = []) (hlo : 4 ≤ (d.mb m).log2.toNat)
    (hhi : (d.mb m).log2.toNat ≤ 12) :
    mbEnable m x d =
      let e := d.setMb m { d.mb m with enable := true, head := (d.mb m).tail }
      { e with core := { e.core with pins := Store.set {} d.core.pins m { d.pin m with level := 0 } } } :=
  if_neg (by simp [hidle]; omega)

theorem mbEnable_refused {m : Nat} {x : Ctx} {d : Dev}
    (h : (d.mb m).busy ≠ [] ∨ (d.mb m).log2.toNat < 4 ∨ 12 < (d.mb m).log2.toNat) :
    mbEnable m x d = accessError (0x81C + 0x40 * m) d := by
  rw [show 0x81C + 0x40 * m = mbOff m 0x1C by unfold mbOff; omega]
  exact if_pos (by simpa [or_assoc] using h)

/-! TAIL, base and size (R73, R74). -/

/-- The mailbox is enabled or has slots in use: what R73 and R74 forbid a write on. -/
theorem mailbox_used_iff (b : Mailbox) : (b.enable || !b.busy.isEmpty) = true ↔ b.enable = true ∨ b.busy ≠ [] := by simp

theorem beyondHead_iff (b : Mailbox) (v : BitVec 16) : beyondHead b v = true ↔ (b.head - b.tail).toNat < (v - b.tail).toNat :=
  decide_eq_true_iff

theorem cringTail_taken {m : Nat} {v : BitVec 32} {x : Ctx} {d : Dev}
    (h : ((d.mb m).enable = false ∧ (d.mb m).busy = []) ∨
      (v.setWidth 16 - (d.mb m).tail).toNat ≤ ((d.mb m).head - (d.mb m).tail).toNat) :
    cringTail m v x d = d.setMb m { d.mb m with tail := v.setWidth 16 } := by
  refine if_neg fun hboth => ?_
  rw [Bool.and_eq_true, mailbox_used_iff, beyondHead_iff] at hboth
  obtain ⟨hused, hbeyond⟩ := hboth
  rcases h with ⟨hoff, hidle⟩ | hwithin
  · simp [hoff, hidle] at hused
  · exact absurd hbeyond (Nat.not_lt.mpr hwithin)

theorem cringTail_refused {m : Nat} {v : BitVec 32} {x : Ctx} {d : Dev} (hused : (d.mb m).enable = true ∨ (d.mb m).busy ≠ [])
    (hbeyond : ((d.mb m).head - (d.mb m).tail).toNat < (v.setWidth 16 - (d.mb m).tail).toNat) :
    cringTail m v x d = accessError (0x818 + 0x40 * m) d := by
  rw [show 0x818 + 0x40 * m = mbOff m 0x18 by unfold mbOff; omega]
  exact if_pos (Bool.and_eq_true_iff.mpr ⟨(mailbox_used_iff _).mpr hused, (beyondHead_iff _ _).mpr hbeyond⟩)

theorem cringConfig_unused {m : Nat} {w : CfgWrite} {x : Ctx} {d : Dev} (hoff : (d.mb m).enable = false) (hidle : (d.mb m).busy = []) :
    cringConfig m w x d = cfgWrite (0x808 + 0x40 * m) (fun v d => d.setMb m { d.mb m with base := v })
      (fun v d => d.setMb m { d.mb m with log2 := v }) w d := by
  rw [show 0x808 + 0x40 * m = mbOff m 8 by unfold mbOff; omega]
  exact if_neg (by simp [hoff, hidle])

theorem cringConfig_refused {m : Nat} {w : CfgWrite} {x : Ctx} {d : Dev} (hused : (d.mb m).enable = true ∨ (d.mb m).busy ≠ []) :
    cringConfig m w x d = accessError (cfgOff (0x808 + 0x40 * m) (0x810 + 0x40 * m) w) d := by
  rw [show 0x808 + 0x40 * m = mbOff m 8 by unfold mbOff; omega, show 0x810 + 0x40 * m = mbOff m 0x10 by unfold mbOff; omega]
  exact if_pos ((mailbox_used_iff _).mpr hused)

/-! Held completions (R73). -/

theorem postHeld_posts {m : Nat} {k : Completion} {d : Dev} (hnext : (d.mb m).held.find? (fun q => !q.waitsEpoch) = some k)
    (hready : readyToPost d k = true) (hpost : canPost d m = true) :
    postHeld m d = postNow m k (d.setMb m { d.mb m with held := (d.mb m).held.erase k }) := by
  simp only [postHeld, nextHeld, hnext, hready, hpost, Bool.and_self, if_true]

/-- Settles O12: each row is its operation, in the case the clause names. -/
theorem mailboxRegisters : Obligations.MailboxRegisters := by
  intro mb v w g k s b
  refine ⟨fun hidle hlo hhi hwr => ?_, rfl, fun hwithin hwr => ?_, fun hoff hidle hwr => ⟨?_, ?_, ?_, ?_⟩, fun hnext hready hpost => ?_,
    fun hoff hidle hwr => ?_, fun hused => ?_, fun hused hbeyond => ?_, fun hforbidden => ?_⟩
  · exact next_on_eq (mbEnable_enables hidle hlo hhi) hwr
  · exact next_on_eq (cringTail_taken (.inr hwithin)) hwr
  · exact next_on_eq (cringConfig_unused hoff hidle) hwr
  · exact next_on_eq (cringConfig_unused hoff hidle) hwr
  · exact next_on_eq (cringConfig_unused hoff hidle) hwr
  · exact next_on_eq (cringConfig_unused hoff hidle) hwr
  · exact next_on_congr (postHeld_posts hnext hready hpost)
  · exact next_on_eq (cringTail_taken (.inl ⟨hoff, hidle⟩)) hwr
  · exact next_on_congr (cringConfig_refused hused)
  · exact next_on_congr (cringTail_refused hused hbeyond)
  · exact next_on_congr (mbEnable_refused hforbidden)

end Sys2Proof.Machine
end

section
/-! The die resets (R94 to R96, R99, R113, R503, R504): what a reset leaves, the directory that it cuts, and the flux levels that stay. -/

namespace Sys2Proof.Machine

/-- Settles O5: nothing is listed in either memory, and every ring reads as after reset. -/
theorem resetStateMeetsTheInvariants : Obligations.ResetStateMeetsTheInvariants :=
  ⟨⟨rfl, rfl, rfl⟩, fun n => (rowHolds_dma_iff _ n).mpr (show ({} : DmaRing).Balanced from ⟨rfl, rfl⟩)⟩

/-- What every die reset leaves of the device: the blocks as after reset, the flash and the calibration store as they were, and the loss
of DDR5 as the only write to memory. -/
structure DieResetLeaves (x : Ctx) (d e : Dev) : Prop where
  wr : e.wr = [.ddrLost]
  core : e.core = {}
  mbs : e.mbs = []
  dma : e.dma = []
  chans : e.chans = []
  links : e.links = []
  evt : e.evt = {}
  time : e.time = {}
  hif : e.hif = { orfWarm := !x.fuse.oven }
  inReset : e.images.inReset = true
  slot0 : e.images.slot0 = d.images.slot0
  slot1 : e.images.slot1 = d.images.slot1
  dirA : e.images.dirA = d.images.dirA
  dirB : e.images.dirB = d.images.dirB
  stores : e.cal.stores = d.cal.stores
  slots : e.cal.slots = d.cal.slots

section
variable {asPowerOn : Bool} {x : Ctx} {d : Dev}

theorem cutWrite_idle (h : d.images.writeSeq = none) : cutWrite d = d := by simp [cutWrite, h]

theorem cutCommit_idle (h : d.cal.committing = none) : cutCommit x d = { d with cal := { d.cal with commitQueue := [] } } := by
  simp [cutCommit, h]

/-- With no IMG_SELECT in hand and no directory write of the ROM's, or with no cut, the directory stands. -/
theorem tearDirectory_idle {tear : Option (Fin 16)} (hsel : selecting x d = none) (h : d.images.romWrote = none ∨ tear = none) :
    tearDirectory tear x d = d := by
  cases tear with
  | none => rfl
  | some n =>
    have hrom : d.images.romWrote = none := by simpa using h
    simp only [tearDirectory, hsel, hrom]

/-- A cut of the ROM's own directory write to copy B (R99). -/
theorem tearDirectory_rom {n : Fin 16} (hsel : selecting x d = none) (h : d.images.romWrote = some true) :
    tearDirectory (some n) x d = { d with images := { d.images with dirB := tornAt n d.images.dirB } } := by
  simp only [tearDirectory, hsel, h, setDir, if_true]

/-- With no image write and no commit in progress. -/
theorem dieReset_leaves (hwr : d.wr = []) (hwrite : d.images.writeSeq = none) (hcommit : d.cal.committing = none) :
    DieResetLeaves x d (dieReset asPowerOn x d) := by
  have hcut : cutWrite (cutCommit x d) = { d with cal := { d.cal with commitQueue := [] } } := by
    rw [cutCommit_idle hcommit]
    exact cutWrite_idle hwrite
  constructor <;> simp [dieReset, hcut, hwr]

/-- A table written in one pass over keys holds at each of them the value written there. -/
theorem get_foldl_set {α : Type} [DecidableEq α] {dflt : α} (v : Nat → α) {is : List Nat} {k : Nat} (hk : k ∈ is) :
    Store.get dflt (is.foldl (fun s i => Store.set dflt s i (v i)) []) k = v k := by
  have hwf (js : List Nat) : Store.wf dflt (js.foldl (fun s i => Store.set dflt s i (v i)) []) = true :=
    List.foldlRecOn (motive := fun s => Store.wf dflt s = true) js _ rfl fun _ h _ _ => Store.wf_set h
  induction is using List.reverseRecOn with
  | nil => cases hk
  | append_singleton is i ih =>
    rw [List.foldl_append]
    by_cases hki : k = i
    · subst hki
      exact Store.get_set_same (hwf is)
    · refine (Store.get_set_other hki).trans (ih ?_)
      simpa [hki] using hk

/-- A flux port is one of the output ports. -/
theorem mem_outputs_of_flux {f : Fuse} {p : Nat} (hp : f.hasPort p = true) (hflux : portKind p = .flux) : p ∈ outputs f := by
  have hlt : p < 72 := by
    by_contra hge
    unfold portKind at hflux
    split_ifs at hflux
  simp [outputs, Fuse.indices, hp, show p < 97 by omega, show p < 84 by omega]

/-- A flux port's DC level is the one that its DAC put out when the reset came (R96). -/
theorem keepDc_dc {p : Nat} (hp : x.fuse.hasPort p = true) (hflux : portKind p = .flux) :
    (Store.get ({} : Port) (keepDc x d) p).dc = dcDac d p := by
  have hmem : p ∈ (outputs x.fuse).filter (fun i => portKind i = .flux) := by simp [mem_outputs_of_flux hp hflux, hflux]
  exact congrArg Port.dc (get_foldl_set _ hmem)

/-- After the directory write that it cuts, a power-on reset is a die reset. -/
theorem powerOnReset_leaves {tear : Option (Fin 16)} {e : Dev} (htear : tearDirectory tear x d = e) (hwr : e.wr = [])
    (hwrite : e.images.writeSeq = none) (hcommit : e.cal.committing = none) : DieResetLeaves x e (powerOnReset tear x d) := by
  subst htear
  exact { dieReset_leaves (asPowerOn := true) hwr hwrite hcommit with }

theorem imgRebootReset_leaves {src : Nat} (hsrc : d.images.rebootSrc = some src) (hwr : d.wr = []) (hwrite : d.images.writeSeq = none)
    (hcommit : d.cal.committing = none) : DieResetLeaves x d (imgRebootReset x d) := by
  have h := dieReset_leaves (asPowerOn := false) (x := x) hwr hwrite hcommit
  simp only [imgRebootReset, hsrc]
  split
  · exact { h with }
  · exact h

theorem imgRebootReset_ports {src : Nat} (hsrc : d.images.rebootSrc = some src) : (imgRebootReset x d).ports = keepDc x d := by
  simp only [imgRebootReset, hsrc]
  split <;> rfl

theorem imgRebootReset_staged (hsrc : d.images.rebootSrc = some 1) :
    (imgRebootReset x d).images.staged = d.images.staged ∧ (imgRebootReset x d).images.bootStaged = true := by
  simp only [imgRebootReset, hsrc, if_true, and_self]

theorem hardwareShutdown_trips {trip : BitVec 4} {tear : Option (Fin 16)}
    (htrip : 2 ≤ ([0, 1, 2, 3].filter (fun i => trip.getLsbD i)).length) (hshut : d.thermal.isShut = false) :
    hardwareShutdown trip tear x d =
      let e := dieReset true x (tearDirectory tear x d)
      { e with thermal := { e.thermal with isShut := true, shutdowns := addW 32 e.thermal.shutdowns 1, shutTrip := trip } } := by
  simp only [hardwareShutdown, hshut, Bool.false_eq_true, or_false, if_neg (Nat.not_lt.mpr htrip)]

theorem thermalRestart_restarts (hshut : d.thermal.isShut = true) :
    thermalRestart x d =
      let e := dieReset true x d
      { e with thermal := { e.thermal with isShut := false }, images := { e.images with thermalBoot := true } } := by
  simp [thermalRestart, hshut]

end

/-- Settles O23: every die reset is `dieReset`, and beside it only the ports, the staged image and the shutdown's counters differ. -/
theorem dieResetsKeepOnlyTheStores : Obligations.DieResetsKeepOnlyTheStores := by
  intro s lowNs src trip tear n p hwr hwrite hcommit hsel hrom after
  have hidle : tearDirectory tear s.ctx s.dev = s.dev := tearDirectory_idle hsel hrom
  have hleaves (b : Bool) : DieResetLeaves s.ctx s.dev (dieReset b s.ctx s.dev) := dieReset_leaves hwr hwrite hcommit
  have hafter (e : Dev) (h : DieResetLeaves s.ctx s.dev e) :
      after { s with ddr := e.wr.foldl ddrAfter s.ddr, host := e.wr.foldl hostAfter s.host, dev := { e with wr := [] } } := by
    obtain ⟨hw, hcore, hmbs, hdma, hchans, hlinks, hevt, htime, hhif, hin, h0, h1, hA, hB, hstores, hslots⟩ := h
    rw [hw]
    exact ⟨rfl, rfl, hcore, hmbs, hdma, hchans, hlinks, hevt, htime, hhif, hin, h0, h1, hA, hB, hstores, hslots⟩
  have hkept (e : Dev) (hports : e.ports = keepDc s.ctx s.dev) (hp : s.fuse.hasPort p = true) (hflux : portKind p = .flux) :
      (e.port p).dc = dcDac s.dev p := by
    rw [Dev.port, hports]
    exact keepDc_dc (x := s.ctx) hp hflux
  refine ⟨?_, fun hb => ?_, fun hlow => ?_, fun hlow => ?_, fun hsrc => ?_, fun htrip hshut => ?_, fun hshut => ?_⟩
  · exact ⟨_, next_on_writes rfl, hafter _ (powerOnReset_leaves hidle hwr hwrite hcommit), rfl⟩
  · have hcut := powerOnReset_leaves (tearDirectory_rom (n := n) hsel hb) hwr hwrite hcommit
    exact ⟨_, next_on_writes rfl, hcut.dirA, hcut.dirB⟩
  · have hrow : resetN lowNs tear s.ctx s.dev = dieReset false s.ctx s.dev := by
      rw [resetN, if_neg (by omega), if_pos hlow, hidle]
    exact ⟨_, next_on_writes hrow, hafter _ (hleaves false), hkept _ rfl⟩
  · exact next_on_eq (if_pos hlow) hwr
  · exact ⟨_, next_on_writes rfl, hafter _ (imgRebootReset_leaves hsrc hwr hwrite hcommit),
      fun h1 => imgRebootReset_staged (h1 ▸ hsrc), hkept _ (imgRebootReset_ports hsrc)⟩
  · have hrow := hardwareShutdown_trips (x := s.ctx) (tear := tear) htrip hshut
    rw [hidle] at hrow
    exact ⟨_, next_on_writes hrow, hafter _ { hleaves true with }, rfl, rfl, rfl, rfl⟩
  · exact ⟨_, next_on_writes (thermalRestart_restarts (x := s.ctx) hshut), hafter _ { hleaves true with }, rfl, rfl⟩

end Sys2Proof.Machine
end

section
/-! The image commands (R107 to R115): the directory copy that IMG_SELECT writes, the end of a slot write, and what IMG_REBOOT leaves of
the mailboxes and of the commands. -/

namespace Sys2Proof.Machine

/-! What an ending command keeps of the mailboxes. -/

/-- From `d` to `e` no program starts or ends, the table of mailboxes stays canonical, and a disabled mailbox stays disabled. -/
structure KeepsDisabled (d e : Dev) : Prop where
  run : e.core.run = d.core.run
  wf : Store.wf {} d.mbs = true → Store.wf {} e.mbs = true
  off : Store.wf {} d.mbs = true → ∀ m, (d.mb m).enable = false → (e.mb m).enable = false

section
variable {d e f : Dev}

theorem KeepsDisabled.refl (d : Dev) : KeepsDisabled d d := ⟨rfl, id, fun _ _ h => h⟩

theorem KeepsDisabled.trans (h : KeepsDisabled d e) (g : KeepsDisabled e f) : KeepsDisabled d f :=
  ⟨g.run.trans h.run, fun hwf => g.wf (h.wf hwf), fun hwf m hm => g.off (h.wf hwf) m (h.off hwf m hm)⟩

theorem KeepsDisabled.of_mbs (hrun : e.core.run = d.core.run) (hmbs : e.mbs = d.mbs) : KeepsDisabled d e :=
  ⟨hrun, fun hwf => by rw [hmbs]; exact hwf, fun _ m hm => by rw [Dev.mb_congr hmbs]; exact hm⟩

theorem Raised.keepsDisabled (h : Raised d e) : KeepsDisabled d e := .of_mbs (by rw [h.frame]) h.mbs

/-- A write to one mailbox that does not enable it. -/
theorem KeepsDisabled.setMb {m : Nat} {b : Mailbox} (h : (d.mb m).enable = false → b.enable = false) : KeepsDisabled d (d.setMb m b) :=
  ⟨rfl, wf_mbs_setMb m b, fun hwf i hi => by
    by_cases him : i = m
    · subst him
      rw [Dev.mb_setMb_same hwf]
      exact h hi
    · rwa [Dev.mb_setMb_other d b him]⟩

theorem keepsDisabled_foldl {α : Type} (g : Dev → α → Dev) (hg : ∀ d a, KeepsDisabled d (g d a)) (xs : List α) (d : Dev) :
    KeepsDisabled d (xs.foldl g d) :=
  List.foldlRecOn (motive := KeepsDisabled d) xs g (.refl d) fun _ h a _ => h.trans (hg _ a)

end

theorem keepsDisabled_publish (r : Report) (d : Dev) : KeepsDisabled d (publish r d) :=
  (KeepsDisabled.of_mbs (by rfl) (by rfl)).trans (raised_event _ _ _ _).keepsDisabled

theorem keepsDisabled_flrEnded (k : Completion) (d : Dev) : KeepsDisabled d (flrEnded k d) :=
  (KeepsDisabled.of_mbs (by rfl) (by rfl)).trans (keepsDisabled_foldl _ (fun d _ => keepsDisabled_publish _ d) _ _)

theorem keepsDisabled_postNow (m : Nat) (k : Completion) (d : Dev) : KeepsDisabled d (postNow m k d) := by
  obtain ⟨e, he, hmbs, hr⟩ := postNow_raised m k d
  have hrun : e.core.run = d.core.run := by rw [he.reports.1]
  refine (KeepsDisabled.of_mbs hrun hmbs).trans (KeepsDisabled.trans (.setMb fun h => ?_) hr.keepsDisabled)
  rwa [Dev.mb_congr hmbs] at h

theorem keepsDisabled_deliver (m : Nat) (k : Completion) (d : Dev) : KeepsDisabled d (deliver m k d) := by
  unfold deliver
  split
  · exact keepsDisabled_postNow m k d
  · refine .setMb fun h => ?_
    unfold Mailbox.hold
    split <;> exact h

/-- The end of a command: it leaves the list, and its entry is delivered or, after a Function Level Reset, only counted. -/
theorem finishWith_eq (c : Cmd) (k : Completion) (d : Dev) : finishWith c k d =
    if c.noSlot then flrEnded k ((dropCmd c d).setMb c.mb { (dropCmd c d).mb c.mb with done := ((dropCmd c d).mb c.mb).done + 1 })
    else deliver c.mb k (dropCmd c d) := rfl

theorem keepsDisabled_dropCmd (c : Cmd) (d : Dev) : KeepsDisabled d (dropCmd c d) := .of_mbs rfl rfl

theorem keepsDisabled_finishWith (c : Cmd) (k : Completion) (d : Dev) : KeepsDisabled d (finishWith c k d) := by
  rw [finishWith_eq]
  refine (keepsDisabled_dropCmd c d).trans ?_
  generalize dropCmd c d = e
  split
  · refine KeepsDisabled.trans ?_ (keepsDisabled_flrEnded _ _)
    exact .setMb fun h => h
  · exact keepsDisabled_deliver _ _ _

theorem keepsDisabled_acceptDisabled (b : Nat × Nat) (d : Dev) : KeepsDisabled d (acceptDisabled b d) := by
  have hmb : KeepsDisabled d (d.setMb b.1 { d.mb b.1 with posted := (d.mb b.1).posted + 1 }) := .setMb fun h => h
  have haccept : KeepsDisabled d (acceptBell b d) := hmb.trans (.of_mbs rfl rfl)
  unfold acceptDisabled
  dsimp only
  split
  · exact haccept
  · exact haccept.trans (keepsDisabled_finishWith _ _ _)

/-! IMG_REBOOT (R113). -/

/-- A mailbox that has been disabled is (R75). -/
theorem mbDisable_off {m : Nat} {x : Ctx} {d : Dev} (hwf : Store.wf {} d.mbs = true) : ((mbDisable m x d).mb m).enable = false := by
  have hrest := keepsDisabled_foldl (fun d b => acceptDisabled b d) (fun d b => keepsDisabled_acceptDisabled b d)
    (d.bells.filter (fun b => b.1 = m)) (d.setMb m { d.mb m with enable := false })
  exact hrest.off (wf_mbs_setMb _ _ hwf) m (by rw [Dev.mb_setMb_same hwf])

theorem keepsDisabled_mbDisable (m : Nat) (x : Ctx) (d : Dev) : KeepsDisabled d (mbDisable m x d) :=
  (KeepsDisabled.setMb fun _ => rfl).trans (keepsDisabled_foldl _ (fun d b => keepsDisabled_acceptDisabled b d) _ _)

theorem forAll_mbDisable_off {ms : List Nat} {x : Ctx} {d : Dev} (hwf : Store.wf {} d.mbs = true) {m : Nat} (hm : m ∈ ms) :
    ((d.forAll ms (fun m => mbDisable m x)).mb m).enable = false := by
  induction ms generalizing d with
  | nil => cases hm
  | cons i ms ih =>
    have hfirst := keepsDisabled_mbDisable i x d
    have hrest := keepsDisabled_foldl (fun d m => mbDisable m x d) (fun d m => keepsDisabled_mbDisable m x d) ms (mbDisable i x d)
    rcases List.mem_cons.mp hm with rfl | hlater
    · exact hrest.off (hfirst.wf hwf) m (mbDisable_off hwf)
    · exact ih (hfirst.wf hwf) hlater

theorem keepsDisabled_disableAll (x : Ctx) (d : Dev) : KeepsDisabled d (disableAll x d) :=
  (keepsDisabled_foldl (fun d b => acceptDisabled b d) (fun d b => keepsDisabled_acceptDisabled b d) d.bells d).trans
    (keepsDisabled_foldl (fun d m => mbDisable m x d) (fun d m => keepsDisabled_mbDisable m x d) (List.range 32) _)

theorem disableAll_off {x : Ctx} {d : Dev} (hwf : Store.wf {} d.mbs = true) {m : Nat} (hm : m < 32) :
    ((disableAll x d).mb m).enable = false :=
  forAll_mbDisable_off ((keepsDisabled_foldl (fun d b => acceptDisabled b d) (fun d b => keepsDisabled_acceptDisabled b d) _ _).wf hwf)
    (List.mem_range.mpr hm)

/-- Every command of a list ends with one failure. -/
def failAll (f : Fail) (qs : List Cmd) (d : Dev) : Dev := qs.foldl (fun d q => failCmd q f d) d

theorem keepsDisabled_failAll (f : Fail) (qs : List Cmd) (d : Dev) : KeepsDisabled d (failAll f qs d) :=
  keepsDisabled_foldl _ (fun d q => keepsDisabled_finishWith q _ d) qs d

/-- Commands that have all ended have left the list of unfinished ones. -/
theorem mem_failAll_cmds {f : Fail} {qs : List Cmd} {d : Dev} {c : Cmd} (hc : c ∈ (failAll f qs d).core.cmds) :
    c ∈ d.core.cmds ∧ ∀ q ∈ qs, c.seq ≠ q.seq := by
  induction qs generalizing d with
  | nil => exact ⟨hc, fun q hq => by cases hq⟩
  | cons q qs ih =>
    obtain ⟨hfirst, hlater⟩ := ih (d := failCmd q f d) hc
    rw [failCmd_cmds, List.mem_filter] at hfirst
    obtain ⟨hin, hne⟩ := hfirst
    exact ⟨hin, List.forall_mem_cons.mpr ⟨by simpa using hne, hlater⟩⟩

/-- What an IMG_REBOOT does before its own completion, with no program running: every mailbox is disabled, and what has not begun ends. -/
def rebootEnds (x : Ctx) (d : Dev) : Dev :=
  failAll { status := 0x0E1A } ((disableAll x d).core.cmds.filter (fun q => !q.begun)) (disableAll x d)

theorem keepsDisabled_rebootEnds (x : Ctx) (d : Dev) : KeepsDisabled d (rebootEnds x d) :=
  (keepsDisabled_disableAll x d).trans (keepsDisabled_failAll _ _ _)

theorem rebootEnds_off {x : Ctx} {d : Dev} (hwf : Store.wf {} d.mbs = true) {m : Nat} (hm : m < 32) : ((rebootEnds x d).mb m).enable = false :=
  (keepsDisabled_failAll _ _ _).off ((keepsDisabled_disableAll x d).wf hwf) m (disableAll_off hwf hm)

theorem rebootEnds_begun {x : Ctx} {d : Dev} {q : Cmd} (hq : q ∈ (rebootEnds x d).core.cmds) : q.begun = true := by
  rw [rebootEnds] at hq
  obtain ⟨hin, hne⟩ := mem_failAll_cmds hq
  by_contra hnot
  exact hne q (List.mem_filter.mpr ⟨hin, by simpa using hnot⟩) rfl

/-- The reset that an IMG_REBOOT schedules. -/
def scheduleReboot (src : Nat) (d : Dev) : Dev :=
  { d with images := { d.images with rebootSrc := some src, stagedInEnv := d.images.stagedInEnv || src = 1 } }

/-- IMG_REBOOT: commands end, a program halts, the reset is scheduled, and the completion is posted. -/
theorem imgReboot_act_eq (x : Ctx) (c : Cmd) (d : Dev) : imgRebootSpec.act x c d =
    okCmd c 0x0E00 0 [] true (scheduleReboot (c.arg 0 1) (haltAndApply Cause.unlock 5 x (rebootEnds x d))) := by
  simp only [imgRebootSpec, scheduleReboot, rebootEnds, failAll]

theorem haltAndApply_idle {cause reason : Nat} {x : Ctx} {d : Dev} (h : running d = false) : haltAndApply cause reason x d = d :=
  if_neg (by simp [h])

/-- What IMG_REBOOT leaves, with no program to halt. -/
theorem imgReboot_act_leaves {x : Ctx} {c : Cmd} {d : Dev} (hidle : running d = false) (hwf : Store.wf {} d.mbs = true) :
    (imgRebootSpec.act x c d).images.rebootSrc = some (c.arg 0 1) ∧ (∀ m < 32, ((imgRebootSpec.act x c d).mb m).enable = false) ∧
      ∀ q ∈ (imgRebootSpec.act x c d).core.cmds, q.begun = true ∧ q.seq ≠ c.seq := by
  have hends := keepsDisabled_rebootEnds x d
  have hoff (m : Nat) (hm : m < 32) := rebootEnds_off (x := x) hwf hm
  have hbegun := @rebootEnds_begun x d
  rw [imgReboot_act_eq]
  generalize rebootEnds x d = e at hends hoff hbegun
  rw [haltAndApply_idle (by rw [running, hends.run]; exact hidle)]
  refine ⟨?_, fun m hm => ?_, fun q hq => ?_⟩
  · rw [(reports_okCmd c 0x0E00 0 [] true _).1]
    rfl
  · exact (keepsDisabled_finishWith c _ (scheduleReboot (c.arg 0 1) e)).off (hends.wf hwf) m (hoff m hm)
  · rw [okCmd, finishWith_cmds, List.mem_filter] at hq
    exact ⟨hbegun hq.1, by simpa using hq.2⟩

/-! The other image commands. -/

/-- The directory write of each action of IMG_SELECT (R112). -/
theorem imgSelect_act_eq (x : Ctx) (c : Cmd) (d : Dev) : imgSelectSpec.act x c d =
    let images :=
      if c.arg 1 1 = 0 then writeDir (c.arg 0 1) (dirNow d.images).nextOnce d.images
      else if c.arg 1 1 = 1 then writeDir (dirNow d.images).preferred (c.arg 0 1) d.images
      else writeDir (dirNow d.images).preferred 0xFF d.images
    doneCmd c 0x0E00 { d with images := images } := by
  rcases h : c.arg 1 1 with _ | _ | n <;> simp [imgSelectSpec, h]

/-- An image that passes the checks of R101 is staged, whatever was before. -/
theorem imgStage_act_eq {x : Ctx} {c : Cmd} {d : Dev} (h : stageFail c.payload = none) : imgStageSpec.act x c d =
    doneCmd c (if stepListed c.payload then 0x0E00 else 0x0E01)
      { d with images := { d.images with staged := some (imageOf c.payload), stagedInEnv := stagesInEnv d } } := by
  simp only [imgStageSpec, h]
  cases stagesInEnv d <;> rfl

section
variable {ok : Bool} {x : Ctx} {d : Dev} {n : Nat}

/-- A write whose command still runs: the read-back decides (R111). -/
theorem slotWriteEnd_of_running {c : Cmd} (hseq : d.images.writeSeq = some n) (hcmd : cmdOf d n = some c) (hlive : c.dead = false) :
    slotWriteEnd ok x d =
      let i := if ok then d.images.staged.getD {} else {}
      let d1 := { d with images := setSlotImage d.images.writeSlot i { d.images with writeSeq := none } }
      if ok then doneCmd c 0x0E00 d1 else failCmd c { status := 0x0E15, detail := 32 } d1 := by
  have hfilter : (cmdOf d n).filter (fun c => !c.dead) = some c := by simp [hcmd, hlive]
  simp only [slotWriteEnd, hseq, hfilter]
  rfl

/-- A write whose command is gone leaves its slot invalid (log entry 34). -/
theorem slotWriteEnd_of_gone (hseq : d.images.writeSeq = some n) (hcmd : cmdOf d n = none) :
    slotWriteEnd ok x d = { d with images := setSlotImage d.images.writeSlot {} { d.images with writeSeq := none } } := by
  have hfilter : (cmdOf d n).filter (fun c => !c.dead) = none := by simp [hcmd]
  simp [slotWriteEnd, cutWrite, hseq, hfilter]

end

/-- The device after an effect of a command: the effect's own, but for the journal and the writes it has queued. -/
theorem State.during_dev (s : State) (h : HostSide) (c : Cmd) (f : Ctx → Dev → Dev) :
    ∃ us, (s.during h c f).dev =
      let e := f (s.sync h).ctx (putCmd c (s.sync h).dev)
      { e with mirror := { e.mirror with undo := us }, wr := [] } := by
  obtain ⟨us, hus⟩ := journal_frame c.seq (f (s.sync h).ctx) (putCmd c (s.sync h).dev)
  exact ⟨us, congrArg (fun d : Dev => { d with wr := [] }) hus⟩

/-- Settles O26: a command that passes its checks has its own effect; the end of a slot write goes by its command. -/
theorem imageCommands : Obligations.ImageCommands := by
  intro mb h s c n ok
  refine ⟨cmdRow_begins, fun hb hstage => ?_, fun hb => ?_, cmdRow_begins, fun hseq hcmd hlive => ?_, fun hseq hcmd hwr => ?_,
    fun hb hidle hwf => ?_, cmdRow_begins, cmdRow_begins⟩
  · exact (cmdRow_begins hb).trans (congrArg _ (State.during_congr (imgStage_act_eq hstage)))
  · exact (cmdRow_begins hb).trans (congrArg _ (State.during_congr (imgSelect_act_eq _ _ _)))
  · exact next_on_congr (slotWriteEnd_of_running hseq hcmd hlive)
  · exact next_on_eq (slotWriteEnd_of_gone hseq hcmd) hwr
  · obtain ⟨hsrc, hoff, hcmds⟩ := imgReboot_act_leaves (x := (s.sync h).ctx) (c := c) (d := putCmd c (s.sync h).dev) hidle hwf
    obtain ⟨us, hdev⟩ := s.during_dev h c fun x d => imgRebootSpec.act x c d
    refine ⟨_, cmdRow_begins hb, ?_⟩
    rw [hdev]
    exact ⟨hsrc, fun m => hoff m m.isLt, hcmds⟩

end Sys2Proof.Machine
end

section
/-! What the device does inside leaves the host interface's registers and the running of a program alone: one lemma for each operation of
items, ports, marker pins, frames, links and calibration. -/

namespace Sys2Proof.Machine

/-- From `d` to `e` the registers of the host interface (HIF_STATE among them), and whether a program runs, are as they were. -/
structure Steady (d e : Dev) : Prop where
  hif : e.hif = d.hif
  active : e.core.run.active = d.core.run.active

section
variable {d e f : Dev}

theorem Steady.refl (d : Dev) : Steady d d := ⟨rfl, rfl⟩

theorem Steady.trans (h : Steady d e) (g : Steady e f) : Steady d f := ⟨g.hif.trans h.hif, g.active.trans h.active⟩

/-- Such a step after an update of other fields. -/
theorem Steady.after (h : Steady e f) (hhif : e.hif = d.hif) (hactive : e.core.run.active = d.core.run.active) : Steady d f :=
  .trans ⟨hhif, hactive⟩ h

theorem Steady.ite {p : Prop} [Decidable p] (he : Steady d e) (hf : Steady d f) : Steady d (if p then e else f) := by
  split
  · exact he
  · exact hf

theorem steady_foldl {α : Type} (g : Dev → α → Dev) (hg : ∀ d a, Steady d (g d a)) (xs : List α) (d : Dev) : Steady d (xs.foldl g d) :=
  List.foldlRecOn (motive := Steady d) xs g (.refl d) fun _ h a _ => h.trans (hg _ a)

theorem steady_forAll (g : Nat → Dev → Dev) (hg : ∀ n d, Steady d (g n d)) (ns : List Nat) (d : Dev) : Steady d (d.forAll ns g) :=
  steady_foldl _ (fun d n => hg n d) ns d

theorem Raised.steady (h : Raised d e) : Steady d e := ⟨h.hif, by rw [h.frame]⟩

theorem Reports.steady (h : Reports d e) : Steady d e := ⟨by rw [h.1], by rw [h.1]⟩

end

/-! Events and the ends of commands. -/

theorem steady_event (src inst arg : Nat) (d : Dev) : Steady d (event src inst arg d) := (raised_event src inst arg d).steady

theorem steady_eventShot (src inst arg shot : Nat) (d : Dev) : Steady d (eventShot src inst arg shot d) := (raised_raise _ d).steady

theorem steady_eventCause (src inst arg cause : Nat) (d : Dev) : Steady d (eventCause src inst arg cause d) := (raised_raise _ d).steady

theorem steady_endSeq (seq : Option Nat) {g : Cmd → Dev → Dev} (hg : ∀ c d, Steady d (g c d)) (d : Dev) : Steady d (endSeq seq g d) := by
  unfold endSeq
  split
  · exact .refl d
  · split
    · exact .refl d
    · exact .ite (.refl d) (hg _ d)

theorem steady_doneCmd (status : Nat) (c : Cmd) (d : Dev) : Steady d (doneCmd c status d) := (reports_doneCmd c status d).steady

theorem steady_okCmd (status imm : Nat) (result : List Byte) (reads : Bool) (c : Cmd) (d : Dev) :
    Steady d (okCmd c status imm result reads d) := (reports_okCmd c status imm result reads d).steady

/-! Items (R135, R136, R262, R264, R309 to R313). -/

theorem steady_failShot (k : Nat) (f : ShotFail) (items : Nat) (d : Dev) : Steady d (failShot k f items d) := ⟨rfl, rfl⟩

theorem steady_offerResult (ring : Nat) (o : Offer) (d : Dev) : Steady d (offerResult ring o d) := by
  unfold offerResult
  split
  · exact ⟨rfl, rfl⟩
  · split
    · exact steady_event _ _ _ d
    · extract_lets r d1
      have h1 : Steady d d1 := steady_failShot _ _ _ d
      exact .ite h1 (h1.trans ((steady_event _ _ _ _).after rfl rfl))

theorem steady_exportChord (c : Chord) (d : Dev) : Steady d (exportChord c d) := by
  refine steady_forAll _ (fun l d => ?_) _ d
  split
  · exact ⟨rfl, rfl⟩
  · exact .refl d

theorem steady_sendChord (slow : Bool) (chan ord shot : Nat) (st : Option (BitVec 2)) (d : Dev) :
    Steady d (sendChord slow chan ord shot st d) := by
  unfold sendChord
  refine .ite (.refl d) ?_
  extract_lets c n d1
  exact (steady_exportChord c _).after rfl rfl

theorem steady_discardedWindow (t : Tok) (cause : Nat) (d : Dev) : Steady d (discardedWindow t cause d) := by
  unfold discardedWindow
  extract_lets c cfg v fine flags o p d1
  have h1 : Steady d d1 := ⟨rfl, rfl⟩
  exact (h1.trans (steady_offerResult _ _ _)).trans (steady_sendChord _ _ _ _ _ _)

theorem steady_discardItem (cause : Nat) (t : Tok) (d : Dev) : Steady d (discardItem cause t d) := by
  unfold discardItem
  extract_lets noPort v fine came arg inst failInst d1 f d2
  have h1 : Steady d d1 := (raised_raise _ d).steady
  have h2 : Steady d1 d2 := ⟨rfl, rfl⟩
  exact .ite ((h1.trans h2).trans (steady_discardedWindow _ _ _)) (h1.trans h2)

theorem steady_discardAll (cause : Nat) (ts : List Tok) (d : Dev) : Steady d (discardAll cause ts d) :=
  steady_foldl _ (fun d t => steady_discardItem cause t d) ts d

/-! A port brought up to now (R155, R168, R170, R366). -/

theorem steady_countClip (i at16 : Nat) (d : Dev) : Steady d (countClip i at16 d) := by
  unfold countClip
  refine .ite (.refl d) ?_
  dsimp only
  split
  · exact ⟨rfl, rfl⟩
  · exact ⟨rfl, rfl⟩

theorem steady_countClipsTo (to16 i : Nat) (d : Dev) : Steady d (countClipsTo to16 i d) := by
  unfold countClipsTo
  extract_lets spans from16 until16 d1
  have h1 : Steady d d1 := .ite (steady_foldl _ (fun d n => steady_countClip i n d) _ d) (.refl d)
  exact h1.trans ⟨rfl, rfl⟩

theorem steady_putTrim (p : Nat) (t : Trim) (d : Dev) : Steady d (putTrim p t d) := by
  unfold putTrim
  extract_lets wide t1 d1
  have h1 : Steady d d1 := .ite ⟨rfl, rfl⟩ (.refl d)
  exact h1.trans ⟨rfl, rfl⟩

theorem steady_takeTrims (p : Nat) (d : Dev) : Steady d (takeTrims p d) := by
  unfold takeTrims
  split
  · exact .refl d
  · extract_lets at16 d1
    have h1 : Steady d d1 := .ite (steady_countClipsTo _ _ d) (.refl d)
    refine .ite (.refl d) (h1.trans ((steady_putTrim _ _ _).after rfl rfl))

theorem steady_countClips (i : Nat) (d : Dev) : Steady d (countClips i d) := (steady_takeTrims i d).trans (steady_countClipsTo _ _ _)

theorem steady_countUnderrun (i : Nat) (t : Tok) (d : Dev) : Steady d (countUnderrun i t d) := by
  unfold countUnderrun
  dsimp only
  split
  · exact .refl d
  · exact ⟨rfl, rfl⟩

theorem steady_noteBusy (i : Nat) (d : Dev) : Steady d (noteBusy i d) := .ite (.refl d) ⟨rfl, rfl⟩

theorem steady_settlePort (i : Nat) (d : Dev) : Steady d (settlePort i d) := by
  unfold settlePort
  refine .ite ((steady_noteBusy i d).trans (steady_takeTrims i _)) ?_
  extract_lets d1 stage1 d2 s ended
  have h1 : Steady d d1 := (steady_noteBusy i d).trans (steady_foldl _ (fun d t => steady_countUnderrun i t d) _ _)
  have h2 : Steady d1 d2 := (steady_countClips i _).after rfl rfl
  exact (h1.trans h2).trans ⟨rfl, rfl⟩

theorem steady_settlePorts (d : Dev) : Steady d (settlePorts d) := steady_forAll _ steady_settlePort _ d

theorem steady_flushStage (cause : Nat) (playing : Bool) (stage : Nat) (d : Dev) : Steady d (flushStage cause playing stage d) := by
  unfold flushStage
  extract_lets d1 s out
  exact (steady_settlePort stage d).trans ((steady_discardAll _ _ _).after rfl rfl)

/-! The safe condition (R172, R173, R431) and the marker pins (R424, R425). -/

theorem steady_leaveRamp (p : Port) (d : Dev) : Steady d (leaveRamp p d) := by
  unfold leaveRamp
  split
  · exact .refl d
  · exact .ite (steady_endSeq _ (steady_doneCmd _) d) (steady_endSeq _ (fun c d => steady_okCmd _ _ _ _ c d) d)

theorem steady_safeDc (i : Nat) (d : Dev) : Steady d (safeDc i d) := by
  unfold safeDc
  dsimp only
  split
  · exact (steady_leaveRamp _ _).after rfl rfl
  · exact .refl d

theorem steady_enterSafe (cause : SafeCause) (i : Nat) (d : Dev) : Steady d (enterSafe cause i d) := by
  unfold enterSafe
  extract_lets d1 p d2 d3
  have h1 : Steady d d1 := steady_settlePort i d
  have h2 : Steady d1 d2 := ⟨rfl, rfl⟩
  have h3 : Steady d2 d3 := steady_flushStage _ _ _ _
  exact .ite ((h1.trans h2).trans h3) (((h1.trans h2).trans h3).trans (steady_safeDc i d3))

theorem steady_drivePins (d : Dev) : Steady d (drivePins d) := by
  unfold drivePins drivePinsTo
  split
  · exact .refl d
  · exact ⟨rfl, rfl⟩

theorem steady_finishMark (d : Dev) : Steady d (finishMark d) := by
  unfold finishMark
  split
  · exact .refl d
  · exact .ite ⟨rfl, rfl⟩ ((steady_event _ _ _ _).after rfl rfl)

theorem steady_settleMark (d : Dev) : Steady d (settleMark d) := by
  unfold settleMark
  split
  · exact .refl d
  · exact .ite ((steady_drivePins d).trans (steady_finishMark _)) (steady_drivePins d)

theorem steady_enterSafeMarker (cause : SafeCause) (d : Dev) : Steady d (enterSafeMarker cause d) := by
  unfold enterSafeMarker
  extract_lets d1 d2 m
  have h1 : Steady d d1 := steady_settleMark d
  have h2 : Steady d1 d2 := by
    change Steady d1 (match d1.marker.play with | none => d1 | some p => discardItem cause.code p.item d1)
    split
    · exact .refl d1
    · exact steady_discardItem _ _ d1
  exact (h1.trans h2).trans ((steady_flushStage _ _ _ _).after rfl rfl)

theorem steady_allSafe (f : Fuse) (cause : SafeCause) (d : Dev) : Steady d (allSafe f cause d) :=
  (steady_forAll _ (fun i d => steady_enterSafe cause i d) _ d).trans (steady_enterSafeMarker cause _)

theorem steady_endCauseAll (cause : SafeCause) (d : Dev) : Steady d (endCauseAll cause d) := ⟨rfl, rfl⟩

theorem steady_causeEnded (d : Dev) : Steady d (causeEnded d) := .ite (.refl d) ⟨rfl, rfl⟩

theorem steady_followTap (x : Ctx) (d : Dev) : Steady d (followTap x d) := by
  unfold followTap
  refine .ite (.refl d) (.ite ?_ ((steady_endCauseAll .tap d).trans (steady_causeEnded _)))
  exact (steady_allSafe _ _ d).trans (steady_forAll _ (fun k d => steady_failShot k _ 0 d) _ _)

theorem steady_endHold (d : Dev) : Steady d (endHold d) := ⟨rfl, rfl⟩

theorem steady_takeHold (x : Ctx) (d : Dev) : Steady d (takeHold x d) := (steady_allSafe x.fuse .hold _).after rfl rfl

theorem steady_holdAtMeridian (x : Ctx) (d : Dev) : Steady d (holdAtMeridian x d) := by
  unfold holdAtMeridian
  dsimp only
  split
  · exact .refl d
  · exact .ite (steady_endHold d) (steady_takeHold x d)
  · exact .ite (.refl d) (steady_endHold d)
  · exact .ite (steady_endHold d) (.refl d)

theorem steady_holdNow (x : Ctx) (d : Dev) : Steady d (holdNow x d) :=
  .ite (.refl d) ((steady_holdAtMeridian x d).trans (steady_causeEnded _))

/-! Calibration (R366, R378, R380, R382, R386). -/

theorem steady_loopOut (ports : List Nat) (d : Dev) : Steady d (loopOut ports d) :=
  steady_forAll (fun p d => d.setPort p _) (fun _ _ => ⟨rfl, rfl⟩) _ d

theorem steady_endCalRun (cause : Nat) (d : Dev) : Steady d (endCalRun cause d) := by
  unfold endCalRun
  exact .ite (.refl d) ((steady_loopOut _ d).trans ((steady_eventCause _ _ _ _ _).after rfl rfl))

theorem steady_cutCommit (x : Ctx) (d : Dev) : Steady d (cutCommit x d) := by
  unfold cutCommit
  split
  · exact ⟨rfl, rfl⟩
  · exact ⟨rfl, rfl⟩

theorem steady_recomputeTrim (p : Nat) (d : Dev) : Steady d (recomputeTrim p d) := by
  unfold recomputeTrim
  extract_lets t t1 k waiting d1
  exact .ite ⟨rfl, rfl⟩ ((steady_putTrim _ _ _).after rfl rfl)

theorem steady_recomputeTrims (x : Ctx) (d : Dev) : Steady d (recomputeTrims x d) :=
  (steady_settlePorts d).trans (steady_forAll _ steady_recomputeTrim _ _)

theorem steady_readStore (x : Ctx) (d : Dev) : Steady d (readStore x d) := by
  unfold readStore
  extract_lets g v0 v1 torn d1 newer pick
  have htorn (s : Nat) (ok : Bool) (d : Dev) : Steady d (torn s ok d) := .ite (steady_event _ _ _ d) (.refl d)
  have h1 : Steady d d1 := (htorn 0 v0 d).trans (htorn 1 v1 _)
  clear_value pick
  cases pick with
  | none => exact h1.trans ((steady_event _ _ _ _).after rfl rfl)
  | some s => exact h1.trans ⟨rfl, rfl⟩

theorem steady_startPorts (restricted : Bool) (x : Ctx) (d : Dev) : Steady d (startPorts restricted x d) :=
  steady_forAll (fun i d => d.setPort i _) (fun _ _ => ⟨rfl, rfl⟩) _ d

/-! Links (R446, R448, R452, R453, R457). -/

/-- Between `d` and `e` only reports, links, the domain's state and chords differ: the marker pins, the host interface's registers and the
program stand. -/
def LinksOnly (d e : Dev) : Prop :=
  e = { d with links := e.links, domain := e.domain, chords := e.chords, mbs := e.mbs, evt := e.evt, ledger := e.ledger, wr := e.wr,
               core := { d.core with cmds := e.core.cmds } }

section
variable {d e f : Dev}

theorem LinksOnly.refl (d : Dev) : LinksOnly d d := rfl

theorem LinksOnly.trans (h : LinksOnly d e) (g : LinksOnly e f) : LinksOnly d f := by
  unfold LinksOnly at *
  rw [g, h]

theorem LinksOnly.after (h : LinksOnly e f) (g : LinksOnly d e) : LinksOnly d f := g.trans h

theorem LinksOnly.ite {p : Prop} [Decidable p] (he : LinksOnly d e) (hf : LinksOnly d f) : LinksOnly d (if p then e else f) := by
  split
  · exact he
  · exact hf

theorem Reports.linksOnly (h : Reports d e) : LinksOnly d e := by
  have h1 := h.1
  unfold OnlyReports at h1
  unfold LinksOnly
  rw [h1]

theorem Raised.linksOnly (h : Raised d e) : LinksOnly d e := h.reports.linksOnly

theorem linksOnly_foldl {α : Type} (g : Dev → α → Dev) (hg : ∀ d a, LinksOnly d (g d a)) (xs : List α) (d : Dev) : LinksOnly d (xs.foldl g d) :=
  List.foldlRecOn (motive := LinksOnly d) xs g (.refl d) fun _ h a _ => h.trans (hg _ a)

theorem LinksOnly.marker (h : LinksOnly d e) : e.marker = d.marker := by rw [h]

theorem LinksOnly.steady (h : LinksOnly d e) : Steady d e := ⟨by rw [h], by rw [h]⟩

end

theorem linksOnly_setLink (l : Nat) (k : Link) (d : Dev) : LinksOnly d (d.setLink l k) := rfl

theorem linksOnly_endSeq (seq : Option Nat) {g : Cmd → Dev → Dev} (hg : ∀ c d, LinksOnly d (g c d)) (d : Dev) : LinksOnly d (endSeq seq g d) := by
  unfold endSeq
  split
  · exact .refl d
  · split
    · exact .refl d
    · exact .ite (.refl d) (hg _ d)

theorem linksOnly_flushCrc (l : Nat) (d : Dev) : LinksOnly d (flushCrc l d) :=
  .ite (.refl d) ((raised_event _ _ _ _).linksOnly.after (linksOnly_setLink _ _ d))

theorem linksOnly_enterStage (l stage : Nat) (d : Dev) : LinksOnly d (enterStage l stage d) := by
  unfold enterStage
  extract_lets d1 k
  have h1 : LinksOnly d d1 := .ite (linksOnly_flushCrc l d) (.refl d)
  exact h1.trans (linksOnly_setLink _ _ d1)

theorem linksOnly_markOne (l s k : Nat) (d : Dev) : LinksOnly d (markOne l s k d) := .ite (.refl d) rfl

theorem linksOnly_markMissing (l : Nat) (d : Dev) : LinksOnly d (markMissing l d) :=
  .ite (.refl d) (linksOnly_foldl _ (fun d (k : Shot) => linksOnly_foldl _ (fun d s => linksOnly_markOne l s k.num d) _ d) _ d)

theorem linksOnly_stopTimed (l : Nat) (d : Dev) : LinksOnly d (stopTimed l d) := (linksOnly_markMissing l _).after (linksOnly_setLink _ _ d)

theorem linksOnly_endAlign (d : Dev) : LinksOnly d (endAlign d) :=
  (linksOnly_endSeq _ (fun c d => (reports_failCmd c _ d).linksOnly) _).after rfl

theorem linksOnly_loseParent (l : Nat) (d : Dev) : LinksOnly d (loseParent l d) := .ite ((linksOnly_endAlign _).after rfl) (.refl d)

theorem linksOnly_leaveActive (l : Nat) (d : Dev) : LinksOnly d (leaveActive l d) := by
  unfold leaveActive
  refine .ite (.refl d) ?_
  extract_lets d1
  have h1 : LinksOnly d d1 := (linksOnly_stopTimed l d).trans (linksOnly_loseParent l _)
  exact h1.trans ((raised_event _ _ _ _).linksOnly.after (linksOnly_setLink _ _ d1))

theorem linksOnly_openRetrain (l : Nat) (d : Dev) : LinksOnly d (openRetrain l d) := .ite (.refl d) (linksOnly_setLink _ _ d)

theorem linksOnly_startRetrain (l : Nat) (d : Dev) : LinksOnly d (startRetrain l d) := by
  unfold startRetrain
  extract_lets d1 k
  have h1 : LinksOnly d d1 := (linksOnly_openRetrain l d).trans (linksOnly_leaveActive l _)
  exact h1.trans ((linksOnly_enterStage l 2 _).after (linksOnly_setLink _ _ d1))

theorem linksOnly_retrainActive (d : Dev) : LinksOnly d (retrainActive d) :=
  linksOnly_foldl _ (fun d l => .ite (linksOnly_startRetrain l d) (.refl d)) _ d

theorem linksOnly_endTrains (l : Nat) {g : Cmd → Dev → Dev} (hg : ∀ c d, LinksOnly d (g c d)) (d : Dev) : LinksOnly d (endTrains l g d) :=
  (linksOnly_foldl _ (fun d n => linksOnly_endSeq (some n) hg d) _ _).after (linksOnly_setLink _ _ d)

/-- The one operation of links that moves time on. -/
theorem steady_goIdle (l : Nat) (d : Dev) : Steady d (goIdle l d) := by
  unfold goIdle
  extract_lets d1
  have hlink : LinksOnly (advanceTo (frameBoundary d) d) d1 :=
    ((linksOnly_stopTimed l _).trans (linksOnly_loseParent l _)).trans (linksOnly_flushCrc l _)
  exact ((hlink.trans (linksOnly_setLink _ _ d1)).steady).after rfl rfl

theorem steady_configLink (l : Nat) (en idle : Bool) (codes : List Nat) (d : Dev) : Steady d (configLink l en idle codes d) := by
  unfold configLink
  extract_lets link d1 k
  have h1 : Steady d d1 := ⟨rfl, rfl⟩
  refine h1.trans (.ite ?_ (.ite ?_ (.ite (.refl d1) (.ite (.ite ⟨rfl, rfl⟩ (steady_goIdle l d1)) (.ite ⟨rfl, rfl⟩ (.refl d1))))))
  · exact (((linksOnly_leaveActive l d1).trans (linksOnly_enterStage l 0 _)).trans
      (linksOnly_endTrains l (fun c d => (reports_failCmd c _ d).linksOnly) _)).steady
  · exact ((linksOnly_enterStage l 1 _).after (linksOnly_setLink _ _ d1)).steady

/-! What a core's loss undoes (R80, R85, R89). -/

theorem steady_endMeas (cause : Nat) (d : Dev) : Steady d (endMeas cause d) := by
  unfold endMeas
  split
  · exact .refl d
  · exact (steady_eventCause _ _ _ _ _).after rfl rfl

theorem steady_loadLattice (value : Nat) (d : Dev) : Steady d (loadLattice value d) := by
  unfold loadLattice
  have h1 : Steady d (settleMark (settlePorts (endMeas Cause.loaded d))) :=
    ((steady_endMeas _ d).trans (steady_settlePorts _)).trans (steady_settleMark _)
  generalize settleMark (settlePorts (endMeas Cause.loaded d)) = e at h1 ⊢
  exact h1.trans ((steady_event 63 0xFFFF 0 _).after rfl rfl)

theorem steady_setExtension (d : Dev) : Steady d (setExtension d) := ⟨rfl, rfl⟩

theorem steady_useTargets (n k : Nat) (d : Dev) : Steady d (useTargets n k d) := by
  unfold useTargets
  exact .ite ⟨rfl, rfl⟩ (.ite ⟨rfl, rfl⟩ ⟨rfl, rfl⟩)

theorem steady_skipTargets (w n : Nat) (d : Dev) : Steady d (skipTargets w n d) := .ite (.refl d) ((steady_useTargets _ _ _).after rfl rfl)

theorem steady_forChanged {α : Type} [DecidableEq α] (dflt : α) (b a : Store α) {put : Nat → α → α → Dev → Dev}
    (hput : ∀ k b a d, Steady d (put k b a d)) (d : Dev) : Steady d (forChanged dflt b a put d) :=
  steady_forAll _ (fun k d => hput k _ _ d) _ d

theorem steady_undoRef (b a : Bool × Bool) (d : Dev) : Steady d (undoRef b a d) :=
  .ite ⟨rfl, rfl⟩ ((steady_event _ _ _ _).after rfl rfl)

theorem steady_undoLoad (b a : Nat × Nat) (d : Dev) : Steady d (undoLoad b a d) := by
  unfold undoLoad
  refine .ite (.refl d) ?_
  extract_lets d1
  have h1 : Steady d d1 := steady_loadLattice _ d
  clear_value d1
  exact h1.trans ⟨rfl, rfl⟩

theorem steady_undoGen (n : Nat) (b a : WallGen) (d : Dev) : Steady d (undoGen n b a d) :=
  .ite ((steady_skipTargets _ _ _).after rfl rfl) (.refl d)

theorem steady_undoPort (i : Nat) (b a : PortSet) (d : Dev) : Steady d (undoPort i b a d) := ⟨rfl, rfl⟩

theorem steady_undoChan (i : Nat) (b a : ChanSet) (d : Dev) : Steady d (undoChan i b a d) := ⟨rfl, rfl⟩

theorem steady_undoUnit (n : Nat) (b a : UnitSet) (d : Dev) : Steady d (undoUnit n b a d) := ⟨rfl, rfl⟩

theorem steady_undoInput (n : Nat) (b a : Nat × Nat × Nat) (d : Dev) : Steady d (undoInput n b a d) := ⟨rfl, rfl⟩

theorem steady_undoDiode (n : Nat) (b a : Int × Nat) (d : Dev) : Steady d (undoDiode n b a d) := ⟨rfl, rfl⟩

theorem steady_undoFields (b a : Shared) (d : Dev) : Steady d (undoFields b a d) := ⟨rfl, rfl⟩

theorem steady_undoRing (n : Nat) (b a : AcqRing) (d : Dev) : Steady d (undoRing n b a d) :=
  .ite (.refl d) (.ite ⟨rfl, rfl⟩ ⟨rfl, rfl⟩)

theorem steady_undoLink (l : Nat) (b a : LinkSet) (d : Dev) : Steady d (undoLink l b a d) :=
  .ite ((steady_configLink _ _ _ _ _).after rfl rfl) ⟨rfl, rfl⟩

theorem steady_undoDomain (b a : Domain) (d : Dev) : Steady d (undoDomain b a d) := by
  unfold undoDomain
  exact .ite (.refl d) (.ite ⟨rfl, rfl⟩ ((linksOnly_retrainActive _).steady.after rfl rfl))

theorem steady_undoRail (n : Nat) (b a : Int × Int) (d : Dev) : Steady d (undoRail n b a d) := .ite (.refl d) ⟨rfl, rfl⟩

theorem steady_undoOne (u : Undo) (d : Dev) : Steady d (undoOne u d) := by
  unfold undoOne
  extract_lets b a d1 d2 d3 d4 d5
  have h1 : Steady d d1 := ((steady_undoFields b a d).trans (steady_undoLoad _ _ _)).trans (steady_undoRef _ _ _)
  have h2 : Steady d1 d2 := (steady_forChanged _ _ _ steady_undoChan _).trans (steady_forChanged _ _ _ steady_undoPort _)
  have h3 : Steady d2 d3 := (steady_forChanged _ _ _ steady_undoUnit _).trans (steady_forChanged _ _ _ steady_undoRing _)
  have h4 : Steady d3 d4 := (steady_undoDomain _ _ _).trans (steady_forChanged _ _ _ steady_undoLink _)
  have h5 : Steady d4 d5 := (steady_forChanged _ _ _ steady_undoGen _).trans (steady_forChanged _ _ _ steady_undoInput _)
  have h6 := (steady_forChanged (0, 0) b.rails a.rails steady_undoRail d5).trans
    (steady_forChanged (1360, 10080) b.diodes a.diodes steady_undoDiode _)
  exact ((((h1.trans h2).trans h3).trans h4).trans h5).trans (h6.trans (steady_setExtension _))

theorem steady_forget (gone : Nat → Bool) (d : Dev) : Steady d (forget gone d) := ⟨rfl, rfl⟩

theorem steady_undoCommands (gone : Nat → Bool) (d : Dev) : Steady d (undoCommands gone d) := by
  unfold undoCommands
  extract_lets out
  refine Steady.trans ?_ (steady_forget gone _)
  exact (steady_foldl _ (fun d u => steady_undoOne u d) out _).after rfl rfl

end Sys2Proof.Machine
end

section
/-! The loss of a core (R97, R106, R472): a program that halts is over, and stays so through the reload of the core and the fault halt. -/

namespace Sys2Proof.Machine

/-! A program that halts (R30, R209). -/

/-- The end of a program. -/
theorem endProgram_over (reason : Nat) (last : Option Nat) (d : Dev) : (endProgram reason last d).core.run.active = false := by
  unfold endProgram
  extract_lets run seqs d1 core d2 d3
  have h2 : d2.core.run.active = false := rfl
  have h3 : Steady d2 d3 := by
    cases last with
    | none => exact steady_event _ _ _ d2
    | some k => exact steady_eventShot _ _ _ _ d2
  exact (h3.trans (steady_foldl _ (fun d n => steady_endSeq (some n) (steady_doneCmd _) d) seqs d3)).active.trans h2

theorem haltProgram_over (cause reason : Nat) (x : Ctx) (d : Dev) : (haltProgram cause reason x d).core.run.active = false := by
  unfold haltProgram
  split
  · rename_i hidle
    simpa [running] using hidle
  · exact endProgram_over _ _ _

/-- A core that is lost runs no program. -/
theorem loseCore_over (x : Ctx) (d : Dev) : (loseCore x d).core.run.active = false := by
  unfold loseCore
  extract_lets mirror d1
  have hhalt := haltProgram_over Cause.coreFault 6 x (allSafe x.fuse .coreFault (abandonSlice d1))
  generalize haltProgram Cause.coreFault 6 x (allSafe x.fuse .coreFault (abandonSlice d1)) = e at hhalt ⊢
  exact ((steady_holdNow x e).trans (steady_endCalRun Cause.coreFault _)).active.trans hhalt

/-! The reload and the fault halt. -/

/-- What a core that reloads leaves (R97). -/
structure Reloading (e : Dev) : Prop where
  state : e.hif.state = .imageLoading
  idle : e.core.run.active = false
  progs : e.core.progs = []
  loci : e.core.loci = []
  progMem : e.core.progMem = []

theorem Raised.reloading {d e : Dev} (h : Raised d e) (hd : Reloading d) : Reloading e := by
  obtain ⟨hstate, hidle, hprogs, hloci, hmem⟩ := hd
  exact ⟨(congrArg Hif.state h.hif).trans hstate, h.steady.active.trans hidle,
    (congrArg (fun q : Dev => q.core.progs) h.frame).trans hprogs, (congrArg (fun q : Dev => q.core.loci) h.frame).trans hloci,
    (congrArg (fun q : Dev => q.core.progMem) h.frame).trans hmem⟩

theorem reloadCore_reloading (x : Ctx) (d : Dev) : Reloading (reloadCore x d) := by
  unfold reloadCore
  extract_lets d0 d1 src core
  have h0 : Steady (loseCore x d) d0 := steady_cutCommit x (loseCore x d)
  have h1 : Steady (loseCore x d) d1 := h0.trans (steady_undoCommands _ d0)
  have hidle : d1.core.run.active = false := h1.active.trans (loseCore_over x d)
  clear_value d1
  exact (raised_event _ _ _ _).reloading ⟨rfl, hidle, rfl, rfl, rfl⟩

theorem linksOnly_leaveLinks (ls : List Nat) (d : Dev) : LinksOnly d (d.forAll ls fun l d => enterStage l 0 (leaveActive l d)) :=
  linksOnly_foldl _ (fun d l => (linksOnly_leaveActive l d).trans (linksOnly_enterStage l 0 _)) ls d

theorem stopConverters_frame (x : Ctx) (d : Dev) : ∃ ps, stopConverters x d = { d with ports := ps } := by
  unfold stopConverters Dev.forAll
  refine List.foldlRecOn (motive := fun e : Dev => ∃ ps, e = { d with ports := ps }) _ _ ⟨d.ports, rfl⟩ fun e he i _ => ?_
  obtain ⟨ps, rfl⟩ := he
  exact ⟨_, rfl⟩

/-- Letting the pins and the converters go starts no program. -/
theorem stopConverters_releasePins (x : Ctx) {d : Dev} (h : d.core.run.active = false) :
    (stopConverters x (releasePins d)).core.run.active = false ∧ (stopConverters x (releasePins d)).marker.pins = [] := by
  obtain ⟨ps, hps⟩ := stopConverters_frame x (releasePins d)
  rw [hps]
  exact ⟨h, rfl⟩

/-- The fault-halted state: no program runs, and the marker pins are let go (R106, R472). -/
theorem faultHalted_leaves (x : Ctx) (d : Dev) :
    (faultHalted x d).hif.state = .faultHalted ∧ (faultHalted x d).core.run.active = false ∧ (faultHalted x d).marker.pins = [] := by
  unfold faultHalted
  extract_lets d1 d2
  have h1 : d1.core.run.active = false ∧ d1.marker.pins = [] := stopConverters_releasePins x (loseCore_over x (startPorts true x (cutWrite d)))
  clear_value d1
  obtain ⟨hidle, hpins⟩ := h1
  have hlinks : LinksOnly d1 d2 := linksOnly_leaveLinks [0, 1, 2, 3] d1
  clear_value d2
  have hraised : Raised { d2 with hif := { d2.hif with state := .faultHalted } } (eventState { d2 with hif := { d2.hif with state := .faultHalted } }) :=
    raised_event _ _ _ _
  exact ⟨congrArg Hif.state hraised.hif, hraised.steady.active.trans (hlinks.steady.active.trans hidle),
    (congrArg (fun q : Dev => q.marker.pins) hraised.frame).trans ((congrArg Marker.pins hlinks.marker).trans hpins)⟩

/-! The rows. -/

section
variable {x : Ctx} {d : Dev} {tear : Option (Fin 16)}

/-- A cut directory write is a matter of the flash alone. -/
theorem tearDirectory_frame (tear : Option (Fin 16)) (x : Ctx) (d : Dev) : ∃ is, tearDirectory tear x d = { d with images := is } := by
  unfold tearDirectory
  split
  · exact ⟨d.images, rfl⟩
  · dsimp only
    split
    · exact ⟨_, rfl⟩
    · split
      · exact ⟨d.images, rfl⟩
      · exact ⟨_, rfl⟩

/-- A core whose firmware runs, or that has failed while the device is ready. -/
def CoreUp (d : Dev) : Prop := firmwareRuns d = true ∨ (d.mirror.failed = true ∧ d.hif.state = .ready)

theorem CoreUp.runs_or_failed (h : CoreUp d) : (firmwareRuns d || d.mirror.failed) = true := by
  rcases h with h | ⟨h, -⟩ <;> simp [h]

theorem CoreUp.state (h : CoreUp d) : d.hif.state = .ready ∨ d.hif.state = .restricted := by
  rcases h with h | ⟨-, h⟩
  · simp only [firmwareRuns, Bool.and_eq_true, Bool.or_eq_true, decide_eq_true_eq] at h
    exact h.1.1
  · exact .inl h

/-- The loss of a core that is up: takeover or reload (R97, R472). -/
theorem activeLost_of_up (h : CoreUp d) : activeLost x d = if mayTakeOver d then takeOver 2 x d else reloadCore x d := by
  have hup := h.runs_or_failed
  rw [Bool.or_eq_true] at hup
  exact if_neg (by rcases hup with hup | hup <;> simp [hup])

/-- The reset of the active core. -/
theorem coreReset_active (h : CoreUp d) : coreReset d.hif.core tear x d =
    if mayTakeOver d then takeOver 2 x (tearDirectory tear x d) else reloadCore x (tearDirectory tear x d) := by
  obtain ⟨is, hframe⟩ := tearDirectory_frame tear x d
  rw [coreReset, if_pos rfl, hframe]
  exact activeLost_of_up (d := { d with images := is }) h

theorem coreReset_standby (h : x.fuse.duplex = true) : coreReset (!d.hif.core) tear x d = resetStandby d := by
  rw [coreReset, if_neg (by simp), if_pos h]

/-- A fault halt of a core that is up (R472; log entry 65). -/
theorem faultHalt_of_up (h : CoreUp d) (hin : d.images.inReset = false) :
    faultHalt x d = if mayTakeOver d then takeOver 2 x d else faultHalted x d := by
  have hstate : ¬(d.images.inReset ∨ d.hif.state = .bootRom ∨ d.hif.state = .faultHalted) := by
    rcases h.state with hs | hs <;> simp [hin, hs]
  rw [faultHalt, if_neg hstate, h.runs_or_failed, Bool.true_and]

end

/-- Settles O24: an eligible standby decides between takeover and loss; the standby's own reset is `resetStandby`. -/
theorem coreLossRows : Obligations.CoreLossRows := by
  intro s tear up
  refine ⟨fun hup htake => ⟨?_, fun hin => ?_⟩, fun hup htake => ⟨?_, fun hin => ?_⟩, fun hduplex => ?_⟩
  · exact next_on_congr ((coreReset_active hup).trans (if_pos htake))
  · exact next_on_congr ((faultHalt_of_up hup hin).trans (if_pos htake))
  · have hrow := (coreReset_active (x := s.ctx) (tear := tear) hup).trans (if_neg (by simp [htake]))
    have hleft := reloadCore_reloading s.ctx (tearDirectory tear s.ctx s.dev)
    generalize reloadCore s.ctx (tearDirectory tear s.ctx s.dev) = e at hrow hleft
    obtain ⟨hstate, hidle, hprogs, hloci, hmem⟩ := hleft
    exact ⟨_, next_on_writes hrow, hstate, hidle, hprogs, hloci, hmem⟩
  · have hrow := (faultHalt_of_up (x := s.ctx) hup hin).trans (if_neg (by simp [htake]))
    have hleft := faultHalted_leaves s.ctx s.dev
    generalize faultHalted s.ctx s.dev = e at hrow hleft
    exact ⟨_, next_on_writes hrow, hleft⟩
  · exact next_on_congr (coreReset_standby hduplex)

end Sys2Proof.Machine
end

section
/-! Start-up (R102 to R104): the release of a die reset, the choice of a slot, the load, and what firmware declares. -/

namespace Sys2Proof.Machine

/-! The standby's state (R479). -/

/-- What a change of the standby's state leaves alone: the images, the bench, the image that the active core runs, and of the host
interface's registers all but REDUND. -/
structure StandbyOnly (d e : Dev) : Prop where
  hif : e.hif = { d.hif with redund := e.hif.redund }
  images : e.images = d.images
  bench : e.bench = d.bench
  imgActive : e.mirror.imgActive = d.mirror.imgActive

section
variable {d e f : Dev}

theorem StandbyOnly.refl (d : Dev) : StandbyOnly d d := ⟨rfl, rfl, rfl, rfl⟩

theorem StandbyOnly.trans (h : StandbyOnly d e) (g : StandbyOnly e f) : StandbyOnly d f :=
  ⟨by rw [g.hif, h.hif], g.images.trans h.images, g.bench.trans h.bench, g.imgActive.trans h.imgActive⟩

theorem StandbyOnly.ite {p : Prop} [Decidable p] (he : StandbyOnly d e) (hf : StandbyOnly d f) : StandbyOnly d (if p then e else f) := by
  split
  · exact he
  · exact hf

theorem Reports.standbyOnly (h : Reports d e) : StandbyOnly d e := by
  have h1 := h.1
  unfold OnlyReports at h1
  exact ⟨by rw [h1], by rw [h1], by rw [h1], by rw [h1]⟩

theorem Raised.standbyOnly (h : Raised d e) : StandbyOnly d e := h.reports.standbyOnly

theorem StandbyOnly.restrict (h : StandbyOnly d e) : e.hif.restrict = d.hif.restrict := by rw [h.hif]

theorem StandbyOnly.state (h : StandbyOnly d e) : e.hif.state = d.hif.state := by rw [h.hif]

end

theorem standbyOnly_setRedund (d : Dev) : StandbyOnly d (setRedund d) := by
  unfold setRedund
  refine .ite (.refl d) ?_
  have h1 : StandbyOnly d { d with hif := { d.hif with redund := redundOf d.mirror.standby (d.mirror.onDieFault || d.mirror.offDieFault) } } :=
    ⟨rfl, rfl, rfl, rfl⟩
  exact h1.trans (raised_event _ _ _ _).standbyOnly

theorem standbyOnly_releaseWaiting (d : Dev) : StandbyOnly d (releaseWaiting d) := by
  unfold releaseWaiting Dev.forAll
  refine .ite (.refl d) (List.foldlRecOn (motive := StandbyOnly d) _ _ (.refl d) fun e he m _ => ?_)
  exact he.trans ((sentOut_setMb m _ e).trans (sentOut_postAllHeld m _)).reports.standbyOnly

theorem standbyOnly_settleBist (d : Dev) : StandbyOnly d (settleBist d) := .ite (.refl d) ⟨rfl, rfl, rfl, rfl⟩

theorem standbyOnly_startBist (was : Nat) (d : Dev) : StandbyOnly d (startBist was d) := .ite ⟨rfl, rfl, rfl, rfl⟩ (.refl d)

theorem standbyOnly_setStandby (n : Nat) (d : Dev) : StandbyOnly d (setStandby n d) := by
  unfold setStandby
  refine .ite (standbyOnly_setRedund d) ?_
  extract_lets d1 mirror d2
  have h1 : StandbyOnly d d1 := .ite (standbyOnly_settleBist d) (.refl d)
  have hn : StandbyOnly d1 { d1 with mirror := { d1.mirror with standby := n } } := ⟨rfl, rfl, rfl, rfl⟩
  have h2 : StandbyOnly d d2 := (((h1.trans hn).trans (raised_event 155 0xFFFF n _).standbyOnly).trans (standbyOnly_setRedund _)).trans
    (standbyOnly_startBist _ _)
  exact .ite (h2.trans (standbyOnly_releaseWaiting d2)) h2

theorem standbyOnly_startResync (d : Dev) : StandbyOnly d (startResync d) := by
  unfold startResync
  extract_lets t seen
  have h1 : StandbyOnly d { d with mirror := { d.mirror with seen := seen, heardFrom := seen } } := ⟨rfl, rfl, rfl, rfl⟩
  exact h1.trans (standbyOnly_setStandby 3 _)

/-! The ROM's steps (R102, R103). -/

section
variable {d e : Dev}

theorem Raised.images (h : Raised d e) : e.images = d.images := by rw [h.frame]

theorem Raised.bench (h : Raised d e) : e.bench = d.bench := by rw [h.frame]

theorem Raised.mirror (h : Raised d e) : e.mirror = d.mirror := by rw [h.frame]

end

theorem raised_enterLoading (d : Dev) : Raised { d with hif := { d.hif with state := .imageLoading } } (enterLoading d) := by
  unfold enterLoading
  split
  · rename_i h
    rw [show ({ d with hif := { d.hif with state := .imageLoading } } : Dev) = d by rw [← h]]
    exact .refl d
  · exact raised_event _ _ _ _

/-- What the start of the recovery firmware leaves (R103, step 4). -/
structure Recovering (reason : Nat) (d e : Dev) : Prop where
  restrict : e.hif.restrict = reason
  state : e.hif.state = .imageLoading
  imgActive : e.mirror.imgActive = recoveryImage
  images : e.images = { d.images with bootSrc := none }

theorem startRecovery_recovering (reason : Nat) (d : Dev) : Recovering reason d (startRecovery reason d) := by
  have h : Raised _ (startRecovery reason d) := raised_enterLoading _
  exact ⟨congrArg Hif.restrict h.hif, congrArg Hif.state h.hif, congrArg Mirror.imgActive h.mirror, h.images⟩

/-- What the load of an image from a source begins with. -/
structure Loads (src : Nat) (d e : Dev) : Prop where
  images : e.images = { d.images with bootSrc := some src }
  state : e.hif.state = .imageLoading
  bench : e.bench = d.bench

theorem loadFrom_loads (src : Nat) (d : Dev) : Loads src d (loadFrom src d) := by
  have h : Raised _ (loadFrom src d) := raised_enterLoading _
  exact ⟨h.images, congrArg Hif.state h.hif, h.bench⟩

theorem Loads.of_raised {src : Nat} {c d e : Dev} (hd : Raised c d) (h : Loads src d e) : Loads src c e := by
  exact ⟨by rw [h.images, hd.images], h.state, h.bench.trans hd.bench⟩

section
variable {d : Dev}

/-- With NEXT_ONCE empty and PREFERRED 0 slot 0 is considered first, then slot 1. -/
theorem bootOrder_of_directory {dir : DirCopy} (honce : dir.nextOnce = 0xFF) (hpref : dir.preferred = 0) : bootOrder dir = [0, 1] := by
  simp only [bootOrder, honce, hpref]
  decide

theorem fits_iff (i : Image) : fits i = true ↔ i.valid = 3 ∧ i.stepOk = true := by simp [fits]

/-- The first slot fits. -/
theorem chooseSlot_first (h : fits d.images.slot0 = true) : chooseSlot [0, 1] d = loadFrom 0 d := by
  have hvalid := ((fits_iff _).mp h).1
  simp [chooseSlot, considered, slotImage, h, hvalid]

/-- The first slot has been rejected in this boot, and the second one fits. -/
theorem chooseSlot_second (hrejected : 0 ∈ d.images.rejected) (h0 : fits d.images.slot0 = false) (h1 : fits d.images.slot1 = true) :
    chooseSlot [0, 1] d = loadFrom 1 d := by
  have hvalid := ((fits_iff _).mp h1).1
  simp [chooseSlot, considered, slotImage, h0, h1, hvalid, hrejected]

/-- The directory selects slot 0, whose image fits (R102). -/
theorem selectSlot_loads (honce : (dirNow d.images).nextOnce = 0xFF) (hpref : (dirNow d.images).preferred = 0)
    (hfits : fits d.images.slot0 = true) : Loads 0 d (selectSlot d) := by
  unfold selectSlot
  extract_lets i dir d1 images d2
  have h1 : Raised d d1 := by
    change Raised d (if _ then _ else _)
    split
    · exact raised_event _ _ _ d
    · exact .refl d
  have h2 : d2 = d1 := if_pos honce
  rw [bootOrder_of_directory honce hpref, h2, chooseSlot_first (by rw [h1.images]; exact hfits)]
  exact (loadFrom_loads 0 d1).of_raised h1

end

/-! DIE_RESET_RELEASE (R95, R102). -/

/-- The die as its release finds it: straps sampled, the default reference selected. -/
def releasedDie (flashOk : Bool) (straps : BitVec 2) (x : Ctx) (d : Dev) : Dev :=
  { d with
    images := { d.images with inReset := false, bootStaged := false, flashOk := flashOk }
    hif := { d.hif with orfWarm := d.hif.orfWarm || !x.fuse.oven }
    lattice := { d.lattice with refPN := !x.fuse.oven }
    bench := { d.bench with smbAddr := 0x58 + straps.toNat } }

/-- The standby's state as the ROM's choice leaves it. -/
def standbyAtRelease (x : Ctx) (d : Dev) : Dev :=
  if !x.fuse.duplex then { d with mirror := { d.mirror with standby := 0 } } else setStandby (if d.hif.restrict = 0 then 2 else 1) d

theorem standbyOnly_standbyAtRelease (x : Ctx) (d : Dev) : StandbyOnly d (standbyAtRelease x d) :=
  .ite ⟨rfl, rfl, rfl, rfl⟩ (standbyOnly_setStandby _ d)

section
variable {flashOk : Bool} {straps : BitVec 2} {x : Ctx} {d : Dev}

/-- With BOOT_RECOV low the ROM starts its recovery firmware. -/
theorem dieResetRelease_recovers (hin : d.images.inReset = true) (hshut : d.thermal.isShut = false) :
    dieResetRelease true flashOk straps x d = standbyAtRelease x (startRecovery 4 (releasedDie flashOk straps x d)) := by
  simp only [dieResetRelease, hin, hshut, Bool.not_true, Bool.or_self, Bool.false_eq_true, if_false, if_true]
  rfl

/-- With no image staged for this boot and a readable flash the directory selects. -/
theorem dieResetRelease_selects (hin : d.images.inReset = true) (hshut : d.thermal.isShut = false) (hstaged : d.images.bootStaged = false) :
    dieResetRelease false true straps x d = standbyAtRelease x (selectSlot (releasedDie true straps x d)) := by
  simp only [dieResetRelease, hin, hshut, hstaged, Bool.not_true, Bool.or_self, Bool.false_and, Bool.false_eq_true, if_false, if_true]
  rfl

end

/-! IMAGE_LOAD_COMPLETE (R103). -/

section
variable {x : Ctx} {d : Dev} {src n : Nat}

/-- The end of a load in a boot. -/
theorem imageLoadComplete_boot (hsrc : d.images.bootSrc = some src) (hstate : d.hif.state = .imageLoading)
    (hboot : d.images.reloading = false) :
    imageLoadComplete d.hif.core n x d = if n = 0 then activeLoaded src x d else bootLoadFailed src n d := by
  simp only [imageLoadComplete, hsrc, hstate, hboot, ne_eq, not_true_eq_false, Bool.false_eq_true, or_false, if_true, if_false]

/-- Both cores of a D part run the image that the boot has loaded. -/
theorem activeLoaded_boot (hboot : d.images.reloading = false) : activeLoaded src x d =
    let other := if x.fuse.duplex then sourceImage d src else d.mirror.imgStandby
    { d with images := { d.images with bootSrc := none, romWrote := none }
             mirror := { d.mirror with imgActive := sourceImage d src, imgStandby := other } } := by
  simp only [activeLoaded, hboot, Bool.false_eq_true, if_false]

/-- A load that fails with a flash that does not answer. -/
theorem bootLoadFailed_recovers (hflash : d.images.flashOk = false) :
    bootLoadFailed src n d = startRecovery 2 { d with images := { d.images with bootSrc := none } } := by
  simp only [bootLoadFailed, hflash, Bool.not_false, if_true]

/-- The device on which the other slot is chosen after slot 0's image has failed check `n`. -/
def slot0Failed (n : Nat) (d : Dev) : Dev :=
  rejectSlot 0 { d with images := { d.images with bootSrc := none, slot0 := { d.images.slot0 with valid := n - 1 } } }

theorem slot0Failed_images (n : Nat) (d : Dev) : (slot0Failed n d).images = { d.images with
    bootSrc := none, slot0 := { d.images.slot0 with valid := n - 1 }, rejected := d.images.rejected ++ [0] } :=
  (raised_event _ _ _ _).images

theorem bootLoadFailed_slot0 (hflash : d.images.flashOk = true) (honce : (dirNow d.images).nextOnce = 0xFF)
    (hpref : (dirNow d.images).preferred = 0) : bootLoadFailed 0 n d = chooseSlot [0, 1] (slot0Failed n d) := by
  have hdir : dirNow { d.images with bootSrc := none } = dirNow d.images := rfl
  unfold bootLoadFailed
  dsimp only
  rw [if_neg (by simp [hflash]), if_neg (by omega), hdir, bootOrder_of_directory honce hpref]
  rfl

/-- Slot 0's image fails a check, and slot 1's fits (log entry 108). -/
theorem bootLoadFailed_loads (hn : n < 4) (hflash : d.images.flashOk = true) (honce : (dirNow d.images).nextOnce = 0xFF)
    (hpref : (dirNow d.images).preferred = 0) (hfits : fits d.images.slot1 = true) :
    Loads 1 (slot0Failed n d) (bootLoadFailed 0 n d) := by
  have himages := slot0Failed_images n d
  have hrejected : 0 ∈ (slot0Failed n d).images.rejected := by simp [himages]
  have h0 : fits (slot0Failed n d).images.slot0 = false := by
    have hvalid : n - 1 ≠ 3 := by omega
    simp [himages, fits, hvalid]
  have h1 : fits (slot0Failed n d).images.slot1 = true := by rw [himages]; exact hfits
  rw [bootLoadFailed_slot0 hflash honce hpref, chooseSlot_second hrejected h0 h1]
  exact loadFrom_loads 1 _

end

/-! FIRMWARE_READY (R103, R104). -/

/-- The registers in which firmware declares the device: HIF_STATE, RESTRICT and DDR_SIZE. -/
structure Declared (st : DevState) (reason : Nat) (gib : BitVec 16) (e : Dev) : Prop where
  state : e.hif.state = st
  restrict : e.hif.restrict = reason
  ddrGib : e.hif.ddrGib = gib

section
variable {st : DevState} {reason : Nat} {gib : BitVec 16} {x : Ctx} {d e : Dev}

theorem Steady.declared (h : Steady d e) (hd : Declared st reason gib d) : Declared st reason gib e := by
  obtain ⟨hstate, hrestrict, hgib⟩ := hd
  exact ⟨by rw [h.hif]; exact hstate, by rw [h.hif]; exact hrestrict, by rw [h.hif]; exact hgib⟩

theorem StandbyOnly.declared (h : StandbyOnly d e) (hd : Declared st reason gib d) : Declared st reason gib e := by
  obtain ⟨hstate, hrestrict, hgib⟩ := hd
  exact ⟨by rw [h.hif]; exact hstate, by rw [h.hif]; exact hrestrict, by rw [h.hif]; exact hgib⟩

/-- What firmware finds stands in the registers before it declares the device. -/
theorem firmwareUp_declared (trained : Bool) :
    Declared d.hif.state reason (if trained then gib else 0) (firmwareUp gib reason trained x d) := by
  unfold firmwareUp
  extract_lets d1 hif h d2
  have h2 : Steady { d1 with hif := h } d2 := (steady_readStore x _).trans (steady_recomputeTrims x _)
  have hd2 : Declared d.hif.state reason (if trained then gib else 0) d2 := h2.declared ⟨rfl, rfl, rfl⟩
  clear_value d2
  exact Steady.declared (d := d2) ⟨rfl, rfl⟩ hd2

/-- The register HIF_STATE with the device's declaration, and the row of the event log that says so. -/
theorem declare_declared (st st' : DevState) (lt : Nat) (hd : Declared st' reason gib d) :
    Declared st reason gib (eventState { d with hif := { d.hif with state := st }, mirror := { d.mirror with epochLt := lt } }) := by
  obtain ⟨-, hrestrict, hgib⟩ := hd
  exact (raised_event _ _ _ _).steady.declared ⟨rfl, hrestrict, hgib⟩

/-- A boot ends with the device ready, or restricted for its reason. -/
theorem bootReady_declared (trained : Bool) :
    Declared (if restrictReason d trained = 0 then .ready else .restricted) (restrictReason d trained) (if trained then gib else 0)
      (bootReady gib trained x d) := by
  unfold bootReady
  extract_lets r d1 images d2 st hif mirror d3 d4 d5
  have h1 : Declared d.hif.state r (if trained then gib else 0) d1 := (steady_startPorts _ x _).declared (firmwareUp_declared trained)
  clear_value d1
  have h12 : Steady d1 d2 := .ite ((steady_event _ _ _ _).after rfl rfl) (.refl d1)
  have h2 : Declared d.hif.state r (if trained then gib else 0) d2 := h12.declared h1
  clear_value d2
  have h3 : Declared st r (if trained then gib else 0) d3 := declare_declared st _ _ h2
  clear_value d3
  have h35 : Steady d3 d5 := (Steady.ite (.refl d3) (steady_allSafe _ _ d3)).trans (steady_followTap x _)
  have h5 : Declared st r (if trained then gib else 0) d5 := h35.declared h3
  clear_value d5
  exact (StandbyOnly.ite (.refl d5) (.ite (standbyOnly_startResync d5) (standbyOnly_setStandby 1 d5))).declared h5

/-- After a boot's load firmware declares the device, and a HOLD_N that is low is noted. -/
theorem firmwareReady_boot (trained low : Bool) (hsrc : d.images.bootSrc = none) (hstate : d.hif.state = .imageLoading)
    (hin : d.images.inReset = false) (hboot : d.images.reloading = false) :
    firmwareReady gib trained low x d = noteHold low (bootReady gib trained x d) := by
  simp [firmwareReady, hsrc, hstate, hin, hboot]

theorem noteHold_hif (low : Bool) (d : Dev) : (noteHold low d).hif = d.hif := by
  unfold noteHold
  split <;> rfl

/-- A HOLD_N that is low at ready is noted (R436). -/
theorem noteHold_low (h : d.hif.state = .ready) : noteHold true d = { d with bench := { d.bench with lowSince := some d.time.raw } } := by
  simp [noteHold, h]

/-! The reason for restricted mode (R104): the lowest that applies. -/

variable {trained : Bool}

theorem restrictReason_unlisted (h : d.mirror.imgActive.stepOk = false) : restrictReason d trained = 1 := by simp [restrictReason, h]

theorem restrictReason_two (h : d.mirror.imgActive.stepOk = true) (h2 : d.hif.restrict = 2) : restrictReason d trained = 2 := by
  simp [restrictReason, h, h2]

theorem restrictReason_untrained (h : d.mirror.imgActive.stepOk = true) (h2 : d.hif.restrict ≠ 2) : restrictReason d false = 3 := by
  simp [restrictReason, h, h2]

theorem restrictReason_trained (h : d.mirror.imgActive.stepOk = true) : restrictReason d true = d.hif.restrict := by
  simp +contextual [restrictReason, h]

end

section
variable {s : State} {gib : BitVec 16} {trained low : Bool}

/-- The row FIRMWARE_READY after a boot. -/
theorem firmwareReady_row {reason : Nat} (hsrc : s.dev.images.bootSrc = none) (hstate : s.dev.hif.state = .imageLoading)
    (hin : s.dev.images.inReset = false) (hboot : s.dev.images.reloading = false) (hreason : restrictReason s.dev trained = reason) :
    ∃ t, exec (.firmwareReady gib trained low) s = .next t ∧
      Declared (if reason = 0 then .ready else .restricted) reason (if trained then gib else 0) t.dev ∧
      (low = true → reason = 0 → t.dev.bench.lowSince = some t.dev.time.raw) := by
  have hrow := firmwareReady_boot (gib := gib) (x := s.ctx) trained low hsrc hstate hin hboot
  have hready := bootReady_declared (gib := gib) (x := s.ctx) (d := s.dev) trained
  rw [hreason] at hready
  generalize bootReady gib trained s.ctx s.dev = e at hrow hready
  obtain ⟨hst, hrestrict, hgib⟩ := hready
  have hhif := noteHold_hif low e
  refine ⟨_, next_on_writes hrow, ⟨?_, ?_, ?_⟩, fun hlow hzero => ?_⟩
  · exact (congrArg Hif.state hhif).trans hst
  · exact (congrArg Hif.restrict hhif).trans hrestrict
  · exact (congrArg Hif.ddrGib hhif).trans hgib
  · rw [if_pos hzero] at hst
    subst hlow
    rw [noteHold_low hst]

theorem firmwareReady_restricted {reason : Nat} (hsrc : s.dev.images.bootSrc = none) (hstate : s.dev.hif.state = .imageLoading)
    (hin : s.dev.images.inReset = false) (hboot : s.dev.images.reloading = false) (hreason : restrictReason s.dev trained = reason)
    (hne : reason ≠ 0) :
    ∃ t, exec (.firmwareReady gib trained low) s = .next t ∧ t.dev.hif.state = .restricted ∧ t.dev.hif.restrict = reason ∧
      t.dev.hif.ddrGib = if trained then gib else 0 := by
  obtain ⟨t, ht, ⟨hst, hrestrict, hgib⟩, -⟩ := firmwareReady_row hsrc hstate hin hboot hreason
  exact ⟨t, ht, hst.trans (if_neg hne), hrestrict, hgib⟩

end

/-- Settles O25: each row's operation is brought to the ROM's own step, and `Recovering`, `Loads` and `Declared` say what that step leaves. -/
theorem startUpRows : Obligations.StartUpRows := by
  intro s gib low src failed straps
  refine ⟨fun hin hshut => ?_, fun hin hshut hstaged honce hpref hfits => ?_, fun hsrc hstate hboot hwr => ?_,
    fun hsrc hstate hboot hfailed hflash => ?_, fun hsrc hstate hboot hfailed hflash honce hpref hfits => ?_,
    fun hsrc hstate hin hboot => ⟨fun hstep h0 => ?_, fun hstep h2 => ?_, fun trained hstep => ?_, fun trained hstep h2 => ?_,
      fun hstep h4 => ?_⟩⟩
  · have hrow := dieResetRelease_recovers (flashOk := true) (straps := straps) (x := s.ctx) hin hshut
    have hrec := startRecovery_recovering 4 (releasedDie true straps s.ctx s.dev)
    generalize startRecovery 4 (releasedDie true straps s.ctx s.dev) = e at hrow hrec
    have hstandby := standbyOnly_standbyAtRelease s.ctx e
    generalize standbyAtRelease s.ctx e = e' at hrow hstandby
    obtain ⟨hrestrict, hstate, himg, himages⟩ := hrec
    exact ⟨_, next_on_writes hrow, congrArg Images.inReset (hstandby.images.trans himages), hstandby.restrict.trans hrestrict,
      hstandby.imgActive.trans himg, hstandby.state.trans hstate⟩
  · have hrow := dieResetRelease_selects (straps := straps) (x := s.ctx) hin hshut hstaged
    have hload := selectSlot_loads (d := releasedDie true straps s.ctx s.dev) honce hpref hfits
    generalize selectSlot (releasedDie true straps s.ctx s.dev) = e at hrow hload
    have hstandby := standbyOnly_standbyAtRelease s.ctx e
    generalize standbyAtRelease s.ctx e = e' at hrow hstandby
    have himages := hstandby.images.trans hload.images
    exact ⟨_, next_on_writes hrow, congrArg Images.inReset himages, congrArg Images.bootSrc himages, hstandby.state.trans hload.state,
      congrArg Bench.smbAddr (hstandby.bench.trans hload.bench)⟩
  · exact next_on_eq ((imageLoadComplete_boot (n := 0) hsrc hstate hboot).trans (activeLoaded_boot hboot)) hwr
  · have hn : (failed : Nat) ≠ 0 := fun h => hfailed (Fin.ext h)
    have hrow := ((imageLoadComplete_boot (x := s.ctx) hsrc hstate hboot).trans (if_neg hn)).trans (bootLoadFailed_recovers hflash)
    have hrec := startRecovery_recovering 2 { s.dev with images := { s.dev.images with bootSrc := none } }
    generalize startRecovery 2 { s.dev with images := { s.dev.images with bootSrc := none } } = e at hrow hrec
    obtain ⟨hrestrict, hloading, himg, himages⟩ := hrec
    exact ⟨_, next_on_writes hrow, congrArg Images.bootSrc himages, hrestrict, himg, hloading⟩
  · have hn : (failed : Nat) ≠ 0 := fun h => hfailed (Fin.ext h)
    have hrow := (imageLoadComplete_boot (x := s.ctx) hsrc hstate hboot).trans (if_neg hn)
    have hload := bootLoadFailed_loads failed.isLt hflash honce hpref hfits
    generalize bootLoadFailed 0 failed s.dev = e at hrow hload
    have himages := hload.images.trans (congrArg (fun i : Images => { i with bootSrc := some 1 }) (slot0Failed_images failed s.dev))
    exact ⟨_, next_on_writes hrow, congrArg Images.bootSrc himages, congrArg Images.slot0 himages, hload.state⟩
  · obtain ⟨t, ht, ⟨hst, hrestrict, hgib⟩, hlow⟩ :=
      firmwareReady_row (gib := gib) (low := low) hsrc hstate hin hboot ((restrictReason_trained hstep).trans h0)
    exact ⟨t, ht, hst, hrestrict, hgib, fun h => hlow h rfl⟩
  · exact firmwareReady_restricted hsrc hstate hin hboot (restrictReason_untrained hstep h2) (by decide)
  · exact firmwareReady_restricted hsrc hstate hin hboot (restrictReason_unlisted hstep) (by decide)
  · exact firmwareReady_restricted hsrc hstate hin hboot (restrictReason_two hstep h2) (by decide)
  · exact firmwareReady_restricted hsrc hstate hin hboot ((restrictReason_trained hstep).trans h4) (by decide)

end Sys2Proof.Machine
end

section
/-! Slack readings (R138, R140, R142): what a reading leaves of each canary ring of the core read. -/

namespace Sys2Proof.Machine

theorem Raised.slack {d e : Dev} (h : Raised d e) : e.slack = d.slack := by rw [h.frame]

theorem Dev.slackOf_congr {d e : Dev} (h : e.slack = d.slack) (m : Bool) : e.slackOf m = d.slackOf m :=
  congrArg (fun t => Store.get ({} : Slack) t (if m then 1 else 0)) h

theorem Dev.slackOf_setSlack {d : Dev} (h : Store.wf {} d.slack = true) (m : Bool) (v : Slack) : (d.setSlack m v).slackOf m = v :=
  Store.get_set_same h

/-- A ring after one reading of `count`, plausible or not (R142). -/
def nextCanary (count : Nat) (ok : Bool) (q : Canary) : Canary :=
  if q.failed then
    if ok then (if 999 ≤ q.good then { slack := count, failed := false, good := 0 } else { q with slack := count, good := q.good + 1 })
    else { q with slack := count, good := 0 }
  else { slack := count, failed := !ok, good := 0 }

/-- A core's slack after one reading of ring `i`. -/
def Slack.readOne (counts : List Nat) (i : Nat) (s : Slack) : Slack :=
  { s with rings := Store.set {} s.rings i (nextCanary (counts.getD i 0) (plausible counts i) (s.ring i)) }

/-- The slack table and the rings of one of its cores are in canonical form. -/
def SlackWf (m : Bool) (d : Dev) : Prop := Store.wf {} d.slack = true ∧ Store.wf {} (d.slackOf m).rings = true

/-- A reading of ring `i` writes that ring of the core, whatever it raises. -/
theorem readRing_slack (counts : List Nat) (m : Bool) (i : Nat) (d : Dev) :
    (readRing counts m i d).slack = (d.setSlack m ((d.slackOf m).readOne counts i)).slack := by
  unfold readRing
  extract_lets s q ok q1 d1
  change (if q1.failed && !q.failed then event 68 i (flag m 0) d1 else d1).slack = d1.slack
  split
  · exact (raised_event _ _ _ d1).slack
  · rfl

theorem readRing_slackOf {m : Bool} {d : Dev} (h : SlackWf m d) (counts : List Nat) (i : Nat) :
    (readRing counts m i d).slackOf m = (d.slackOf m).readOne counts i :=
  (Dev.slackOf_congr (readRing_slack counts m i d) m).trans (Dev.slackOf_setSlack h.1 m _)

theorem slackWf_readRing {m : Bool} {d : Dev} (h : SlackWf m d) (counts : List Nat) (i : Nat) : SlackWf m (readRing counts m i d) := by
  constructor
  · rw [readRing_slack]
    exact Store.wf_set h.1
  · rw [readRing_slackOf h]
    exact Store.wf_set h.2

theorem ring_readRing_same {m : Bool} {d : Dev} (h : SlackWf m d) (counts : List Nat) (i : Nat) :
    ((readRing counts m i d).slackOf m).ring i = nextCanary (counts.getD i 0) (plausible counts i) ((d.slackOf m).ring i) := by
  rw [readRing_slackOf h]
  exact Store.get_set_same h.2

theorem ring_readRing_other {m : Bool} {d : Dev} (h : SlackWf m d) (counts : List Nat) {i j : Nat} (hne : j ≠ i) :
    ((readRing counts m i d).slackOf m).ring j = ((d.slackOf m).ring j) := by
  rw [readRing_slackOf h]
  exact Store.get_set_other hne

/-- Readings of other rings leave a ring alone. -/
theorem ring_forAll_readRing_other {m : Bool} {counts : List Nat} {i : Nat} {ks : List Nat} (hi : i ∉ ks) {d : Dev} (h : SlackWf m d) :
    ((d.forAll ks (readRing counts m)).slackOf m).ring i = (d.slackOf m).ring i := by
  induction ks generalizing d with
  | nil => rfl
  | cons k ks ih =>
    obtain ⟨hk, hks⟩ := not_or.mp (mt List.mem_cons.mpr hi)
    exact (ih hks (slackWf_readRing h counts k)).trans (ring_readRing_other h counts hk)

/-- A reading of several rings, each once, reads each of them. -/
theorem ring_forAll_readRing {m : Bool} {counts : List Nat} {i : Nat} {ks : List Nat} (hnd : ks.Nodup) (hi : i ∈ ks) {d : Dev}
    (h : SlackWf m d) :
    ((d.forAll ks (readRing counts m)).slackOf m).ring i =
      nextCanary (counts.getD i 0) (plausible counts i) ((d.slackOf m).ring i) := by
  induction ks generalizing d with
  | nil => simp at hi
  | cons k ks ih =>
    obtain ⟨hk, hnd⟩ := List.nodup_cons.mp hnd
    have hwf := slackWf_readRing h counts k
    change (((readRing counts m k d).forAll ks (readRing counts m)).slackOf m).ring i = _
    by_cases hik : i = k
    · subst hik
      rw [ring_forAll_readRing_other hk hwf, ring_readRing_same h]
    · rw [ih hnd (List.mem_of_ne_of_mem hik hi) hwf, ring_readRing_other h counts hik]

theorem slackWf_forAll_readRing {m : Bool} (counts ks : List Nat) {d : Dev} (h : SlackWf m d) :
    SlackWf m (d.forAll ks (readRing counts m)) :=
  List.foldlRecOn (motive := SlackWf m) ks _ h fun _ h k _ => slackWf_readRing h counts k

theorem event_or_event_slack (a b : Bool) (p q inst arg : Nat) (d : Dev) :
    (if a then event p inst arg d else if b then event q inst arg d else d).slack = d.slack := by
  split
  · exact (raised_event _ _ _ d).slack
  · split
    · exact (raised_event _ _ _ d).slack
    · rfl

/-- The alarms of a core's slack as a reading leaves them (R140). -/
def Slack.alarmed (band : Nat) (s : Slack) : Slack :=
  let lo := alarmRun s.low s.lowRun (slackLowAt band) s.value
  let cr := alarmRun s.critical s.critRun slackCriticalAt s.value
  { s with low := lo.1, lowRun := lo.2, critical := cr.1, critRun := cr.2 }

theorem readAlarms_slack (m : Bool) (d : Dev) :
    (readAlarms m d).slack = (d.setSlack m ((d.slackOf m).alarmed d.thermal.band)).slack :=
  (event_or_event_slack _ _ 65 66 _ _ _).trans (event_or_event_slack _ _ 64 66 _ _ _)

/-- The alarms leave the rings alone. -/
theorem ring_readAlarms {m : Bool} {d : Dev} (h : Store.wf {} d.slack = true) (i : Nat) :
    ((readAlarms m d).slackOf m).ring i = (d.slackOf m).ring i := by
  rw [Dev.slackOf_congr (readAlarms_slack m d) m, Dev.slackOf_setSlack h]
  rfl

/-- A whole reading of a core the part has reads each of its rings. -/
theorem ring_slackReading {m : Bool} {counts : List (BitVec 16)} {x : Ctx} {d : Dev} (hlen : counts.length = 24)
    (hcore : m = true → x.fuse.duplex = true) (h : SlackWf m d) {i : Nat} (hi : i < 24) :
    ((slackReading m counts x d).slackOf m).ring i =
      nextCanary ((counts.map (·.toNat)).getD i 0) (plausible (counts.map (·.toNat)) i) ((d.slackOf m).ring i) := by
  have hread : ¬(counts.length ≠ 24 ∨ (m ∧ !x.fuse.duplex)) := by
    rintro (hne | ⟨hm, hx⟩)
    · exact hne hlen
    · simp [hcore hm] at hx
  have hpaced : SlackWf m (paced (.slack m) d) := h
  unfold slackReading
  rw [if_neg hread, ring_readAlarms (slackWf_forAll_readRing _ _ hpaced).1, ring_forAll_readRing List.nodup_range (List.mem_range.mpr hi) hpaced]
  rfl

/-- Settles O31: a reading takes each ring to its `nextCanary`, whose branches are the clauses. -/
theorem slackReadingRow : Obligations.SlackReadingRow := by
  intro m counts i s hlen hcore hslack hrings q ok
  refine ⟨_, rfl, ?_⟩
  have hring : ((s.on (slackReading m counts)).dev.slackOf m).ring i = nextCanary ((counts.map (·.toNat)).getD i 0) ok q :=
    ring_slackReading (x := s.ctx) hlen hcore ⟨hslack, hrings⟩ i.isLt
  rw [hring]
  refine ⟨?_, fun hf => ?_, fun hf hok => ?_, fun hf hok hgood => ?_, fun hf hok hgood => ?_⟩
  · unfold nextCanary
    split_ifs <;> rfl
  · simp [nextCanary, hf]
  · simp [nextCanary, hf, hok]
  · simp [nextCanary, hf, hok, Nat.not_le.mpr hgood]
  · simp [nextCanary, hf, hok, hgood]

end Sys2Proof.Machine
end

section
/-! Items at their release stages (R24, R133, R134, R166, R169, R207, R333). -/

namespace Sys2Proof.Machine

/-! Vertex order (R133). -/

theorem notAfter_of_vertices {d : Dev} {a b : Tok} {u v : Nat × Bool} (ha : vertexOf d a = some u) (hb : vertexOf d b = some v) :
    notAfter d a b = decide (u.1 ≤ v.1) := by
  simp only [notAfter, ha, hb]

/-- The queue holds the item and what it held before. -/
theorem insertItem_perm (d : Dev) (t : Tok) (queue : List Tok) : (insertItem d t queue).Perm (t :: queue) := by
  induction queue with
  | nil => exact .refl _
  | cons q rest ih =>
    simp only [insertItem]
    split
    · exact (ih.cons q).trans (.swap t q rest)
    · exact .refl _

/-- Where every vertex is known, an item put into an ordered queue leaves it ordered. -/
theorem insertItem_ordered {d : Dev} {t : Tok} {queue : List Tok} (hknown : ∀ q ∈ t :: queue, ∃ v, vertexOf d q = some v)
    (hord : queue.Pairwise (fun a b => notAfter d a b = true)) : (insertItem d t queue).Pairwise (fun a b => notAfter d a b = true) := by
  induction queue with
  | nil => exact List.pairwise_singleton _ t
  | cons q rest ih =>
    obtain ⟨hq, hrest⟩ := List.pairwise_cons.mp hord
    obtain ⟨vt, ht⟩ := hknown t (by simp)
    obtain ⟨vq, hvq⟩ := hknown q (by simp)
    have hknown' : ∀ p ∈ t :: rest, ∃ v, vertexOf d p = some v := fun p hp => by
      refine hknown p ?_
      simp only [List.mem_cons] at hp ⊢
      tauto
    simp only [insertItem]
    split
    · rename_i hqt
      refine List.pairwise_cons.mpr ⟨fun p hp => ?_, ih hknown' hrest⟩
      rcases List.mem_cons.mp ((insertItem_perm d t rest).mem_iff.mp hp) with rfl | hp
      · exact hqt
      · exact hq p hp
    · rename_i hqt
      rw [notAfter_of_vertices hvq ht, decide_eq_true_eq, Nat.not_le] at hqt
      refine List.pairwise_cons.mpr ⟨fun p hp => ?_, hord⟩
      obtain ⟨vp, hvp⟩ := hknown p (List.mem_cons_of_mem t hp)
      have hqp : vq.1 ≤ vp.1 := by
        rcases List.mem_cons.mp hp with rfl | hp
        · rw [hvq] at hvp
          cases hvp
          exact Nat.le_refl _
        · simpa only [notAfter_of_vertices hvq hvp, decide_eq_true_eq] using hq p hp
      rw [notAfter_of_vertices ht hvp, decide_eq_true_eq]
      omega

/-! Arrival (R24, R134, R166, R333). -/

@[simp] theorem passGate_run (t : Tok) (d : Dev) : (passGate t d).core.run = d.core.run := by
  unfold passGate
  dsimp only
  split_ifs <;> rfl

@[simp] theorem passGate_wr (t : Tok) (d : Dev) : (passGate t d).wr = d.wr := by
  unfold passGate
  dsimp only
  split_ifs <;> rfl

@[simp] theorem noteShadow_wr (t : Tok) (d : Dev) : (noteShadow t d).wr = d.wr := by
  unfold noteShadow
  split_ifs <;> rfl

section
variable {n : Nat} {x : Ctx} {d : Dev} {t : Tok}

/-- The window that passes its gate takes its place among those of equal vertex (R133, R310). -/
def arrivalPlace (t : Tok) (d : Dev) : Run × Tok := if t.kind = .window then placeWindow t d.core.run else (d.core.run, t)

/-- The token as it reaches its stage. -/
def arrivedTok (f : Fuse) (t : Tok) (d : Dev) : Tok :=
  { (arrivalPlace t d).2 with arrival := some d.time.lat, held := false, data := if readsStore t then template f d t else t.data }

/-- The fabric, the gate and the release stream once token `n` has left the fabric. -/
def leftFabric (f : Fuse) (n : Nat) (t : Tok) (d : Dev) : Dev :=
  let d1 := passGate t { d with core := { d.core with fabric := d.core.fabric.eraseIdx n } }
  noteShadow (arrivedTok f t d) { d1 with core := { d1.core with run := (arrivalPlace t d).1 } }

@[simp] theorem leftFabric_wr (f : Fuse) : (leftFabric f n t d).wr = d.wr := by simp [leftFabric]

/-- What an arrival does: nothing where the token is held up; else it is discarded or queued. -/
theorem itemArrival_eq (ht : d.core.fabric[n]? = some t) : itemArrival n x d =
    if !t.kind.isItem || !t.framed || stageFull d t.stage || gateClosed d t || readHeld d t || !tokensRun d then d
    else match arrivalDiscard (leftFabric x.fuse n t d) (arrivedTok x.fuse t d) with
      | some c => discardItem c (arrivedTok x.fuse t d) (noteCut t.stage (leftFabric x.fuse n t d))
      | none => (leftFabric x.fuse n t d).setStage t.stage { (leftFabric x.fuse n t d).stage t.stage with
          queue := insertItem (leftFabric x.fuse n t d) (arrivedTok x.fuse t d) ((leftFabric x.fuse n t d).stage t.stage).queue } := by
  unfold itemArrival
  rw [ht]
  dsimp only
  rw [passGate_run]
  rfl

theorem itemArrival_held_up (ht : d.core.fabric[n]? = some t)
    (hup : t.kind = .window ∧ gateClosed d t = true ∨ 64 ≤ (d.stage t.stage).queue.length ∨ t.framed = false ∨ readHeld d t = true) :
    itemArrival n x d = d := by
  rw [itemArrival_eq ht, if_pos]
  rcases hup with ⟨_, hgate⟩ | hfull | hframed | hread
  · simp [hgate]
  · simp [stageFull, hfull]
  · simp [hframed]
  · simp [hread]

section
variable (ht : d.core.fabric[n]? = some t) (hitem : t.kind.isItem = true) (hframed : t.framed = true)
  (hroom : (d.stage t.stage).queue.length < 64) (hgate : gateClosed d t = false) (hread : readHeld d t = false)
  (hrun : tokensRun d = true)
include ht hitem hframed hroom hgate hread hrun

theorem itemArrival_moves : itemArrival n x d =
    match arrivalDiscard (leftFabric x.fuse n t d) (arrivedTok x.fuse t d) with
    | some c => discardItem c (arrivedTok x.fuse t d) (noteCut t.stage (leftFabric x.fuse n t d))
    | none => (leftFabric x.fuse n t d).setStage t.stage { (leftFabric x.fuse n t d).stage t.stage with
        queue := insertItem (leftFabric x.fuse n t d) (arrivedTok x.fuse t d) ((leftFabric x.fuse n t d).stage t.stage).queue } := by
  rw [itemArrival_eq ht, if_neg (by simp [stageFull, hitem, hframed, Nat.not_le.mpr hroom, hgate, hread, hrun])]

theorem itemArrival_queues (hkept : arrivalDiscard (leftFabric x.fuse n t d) (arrivedTok x.fuse t d) = none) : itemArrival n x d =
    (leftFabric x.fuse n t d).setStage t.stage { (leftFabric x.fuse n t d).stage t.stage with
      queue := insertItem (leftFabric x.fuse n t d) (arrivedTok x.fuse t d) ((leftFabric x.fuse n t d).stage t.stage).queue } := by
  rw [itemArrival_moves ht hitem hframed hroom hgate hread hrun, hkept]

theorem itemArrival_discards {cause : Nat} (hgone : arrivalDiscard (leftFabric x.fuse n t d) (arrivedTok x.fuse t d) = some cause) :
    itemArrival n x d = discardItem cause (arrivedTok x.fuse t d) (noteCut t.stage (leftFabric x.fuse n t d)) := by
  rw [itemArrival_moves ht hitem hframed hroom hgate hread hrun, hgone]

end

end

/-! Release (R28, R30, R133, R134). -/

/-- The head of a queue whose meridian has passed, no jump still to be compared, is released. -/
theorem itemRelease_head {i v : Nat} {x : Ctx} {d : Dev} {t : Tok} {rest : List Tok} (hqueue : (d.stage i).queue = t :: rest)
    (hlock : d.hif.lock = true) (hjump : jumpWaiting d i ≠ some t) (hfixed : vertexOf d t = some (v, false))
    (hpassed : running d = true → meridianPassed d t.shot = true) : itemRelease i x d = settleOutput i (releaseHead t d) := by
  have hmay : ¬((running d && !meridianPassed d t.shot) = true) := by
    cases hrun : running d
    · simp
    · simp [hpassed hrun]
  simp only [itemRelease, hlock, hqueue, if_neg hjump, hfixed, if_neg hmay]
  rfl

theorem itemRelease_unlocked {i : Nat} {x : Ctx} {d : Dev} (h : d.hif.lock = false) : itemRelease i x d = d := by
  simp [itemRelease, h]

/-- With the PLL unlocked the whole row releases nothing (R30). -/
theorem itemReleaseRow_unlocked {i more : Nat} {x : Ctx} {d : Dev} (h : d.hif.lock = false) : itemReleaseRow i more x d = d := by
  have hequal (v : Option (Nat × Bool)) (n : Nat) : releaseEqual i v x n d = d := by
    induction n with
    | zero => rfl
    | succ n ih =>
      simp only [releaseEqual, itemRelease_unlocked h, ih]
      split <;> rfl
  rw [itemReleaseRow, itemRelease_unlocked h, hequal]

theorem jumpCommitCheck_waiting {i : Nat} {x : Ctx} {d : Dev} {t : Tok} (h : jumpWaiting d i = some t) :
    jumpCommitCheck i x d = jumpCheck t d := by
  rw [jumpCommitCheck, h]

/-! A port brought up to now (R155, R168, R170, R366). -/

/-- Between `d` and `e` only what bringing ports up to now counts differs: ports, stages, trims in force, free values and what open shots
have collected. -/
def SettledOnly (d e : Dev) : Prop :=
  e = { d with ports := e.ports, stages := e.stages, cal := e.cal, freeCtr := e.freeCtr, core := { d.core with shots := e.core.shots } }

section
variable {d e f : Dev}

theorem SettledOnly.refl (d : Dev) : SettledOnly d d := rfl

theorem SettledOnly.trans (h : SettledOnly d e) (g : SettledOnly e f) : SettledOnly d f := by
  unfold SettledOnly at *
  rw [g, h]

theorem SettledOnly.ite {p : Prop} [Decidable p] (he : SettledOnly d e) (hf : SettledOnly d f) : SettledOnly d (if p then e else f) := by
  split
  · exact he
  · exact hf

theorem settledOnly_foldl {α : Type} (g : Dev → α → Dev) (hg : ∀ d a, SettledOnly d (g d a)) (xs : List α) (d : Dev) :
    SettledOnly d (xs.foldl g d) :=
  List.foldlRecOn (motive := SettledOnly d) xs g (.refl d) fun _ h a _ => h.trans (hg _ a)

theorem SettledOnly.hif (h : SettledOnly d e) : e.hif = d.hif := by rw [h]
theorem SettledOnly.time (h : SettledOnly d e) : e.time = d.time := by rw [h]
theorem SettledOnly.run (h : SettledOnly d e) : e.core.run = d.core.run := by rw [h]
theorem SettledOnly.fabric (h : SettledOnly d e) : e.core.fabric = d.core.fabric := by rw [h]
theorem SettledOnly.cmds (h : SettledOnly d e) : e.core.cmds = d.core.cmds := by rw [h]
theorem SettledOnly.eccLines (h : SettledOnly d e) : e.eccLines = d.eccLines := by rw [h]
theorem SettledOnly.marker (h : SettledOnly d e) : e.marker = d.marker := by rw [h]
theorem SettledOnly.lattice (h : SettledOnly d e) : e.lattice = d.lattice := by rw [h]

end

/-- Counts alone: the stages stand as well. -/
def CountsOnly (d e : Dev) : Prop := SettledOnly d e ∧ e.stages = d.stages

theorem CountsOnly.refl (d : Dev) : CountsOnly d d := ⟨rfl, rfl⟩

theorem CountsOnly.trans {d e f : Dev} (h : CountsOnly d e) (g : CountsOnly e f) : CountsOnly d f := ⟨h.1.trans g.1, g.2.trans h.2⟩

theorem CountsOnly.ite {d e f : Dev} {p : Prop} [Decidable p] (he : CountsOnly d e) (hf : CountsOnly d f) :
    CountsOnly d (if p then e else f) := by
  split
  · exact he
  · exact hf

theorem countsOnly_foldl {α : Type} (g : Dev → α → Dev) (hg : ∀ d a, CountsOnly d (g d a)) (xs : List α) (d : Dev) :
    CountsOnly d (xs.foldl g d) :=
  List.foldlRecOn (motive := CountsOnly d) xs g (.refl d) fun _ h a _ => h.trans (hg _ a)

theorem countsOnly_countClip (i at16 : Nat) (d : Dev) : CountsOnly d (countClip i at16 d) := by
  unfold countClip
  refine .ite (.refl d) ?_
  dsimp only
  split
  · exact ⟨rfl, rfl⟩
  · exact ⟨rfl, rfl⟩

theorem countsOnly_countClipsTo (to16 i : Nat) (d : Dev) : CountsOnly d (countClipsTo to16 i d) := by
  unfold countClipsTo
  extract_lets spans from16 until16 d1
  have h1 : CountsOnly d d1 := .ite (countsOnly_foldl _ (fun d n => countsOnly_countClip i n d) _ d) (.refl d)
  exact h1.trans ⟨rfl, rfl⟩

theorem countsOnly_putTrim (p : Nat) (t : Trim) (d : Dev) : CountsOnly d (putTrim p t d) := by
  unfold putTrim
  extract_lets wide t1 d1
  have h1 : CountsOnly d d1 := .ite ⟨rfl, rfl⟩ (.refl d)
  exact h1.trans ⟨rfl, rfl⟩

theorem countsOnly_takeTrims (p : Nat) (d : Dev) : CountsOnly d (takeTrims p d) := by
  unfold takeTrims
  split
  · exact .refl d
  · extract_lets at16 d1
    have h1 : CountsOnly d d1 := .ite (countsOnly_countClipsTo _ _ d) (.refl d)
    have h2 : CountsOnly d1 { d1 with cal := { d1.cal with trimsWaiting := d1.cal.trimsWaiting.filter (fun q => q.1 ≠ p) } } := ⟨rfl, rfl⟩
    exact .ite (.refl d) ((h1.trans h2).trans (countsOnly_putTrim _ _ _))

theorem countsOnly_countClips (i : Nat) (d : Dev) : CountsOnly d (countClips i d) :=
  (countsOnly_takeTrims i d).trans (countsOnly_countClipsTo _ _ _)

theorem countsOnly_countUnderrun (i : Nat) (t : Tok) (d : Dev) : CountsOnly d (countUnderrun i t d) := by
  unfold countUnderrun
  dsimp only
  split
  · exact .refl d
  · exact ⟨rfl, rfl⟩

theorem countsOnly_noteBusy (i : Nat) (d : Dev) : CountsOnly d (noteBusy i d) := .ite (.refl d) ⟨rfl, rfl⟩

theorem settledOnly_settlePort (i : Nat) (d : Dev) : SettledOnly d (settlePort i d) := by
  unfold settlePort
  refine .ite ((countsOnly_noteBusy i d).trans (countsOnly_takeTrims i _)).1 ?_
  extract_lets d1 stage1 d2 s ended
  have h1 : SettledOnly d d1 := ((countsOnly_noteBusy i d).trans (countsOnly_foldl _ (fun d t => countsOnly_countUnderrun i t d) _ _)).1
  have hset : SettledOnly d1 (d1.setStage i { stage1 with playing := stage1.playing.map (playOn d1) }) := rfl
  have h2 : SettledOnly d1 d2 := hset.trans (countsOnly_countClips i _).1
  exact (h1.trans h2).trans rfl

theorem Dev.stage_congr {d e : Dev} (h : e.stages = d.stages) (i : Nat) : e.stage i = d.stage i :=
  congrArg (fun t => Store.get ({} : Stage) t i) h

theorem Dev.stage_setStage_same {d : Dev} (h : Store.wf {} d.stages = true) (i : Nat) (s : Stage) : (d.setStage i s).stage i = s :=
  Store.get_set_same h

/-- A port that plays nothing keeps its queue, and goes on playing nothing. -/
structure StageIdle (i : Nat) (d e : Dev) : Prop where
  wf : Store.wf {} e.stages = true
  playing : (e.stage i).playing = []
  queue : (e.stage i).queue = (d.stage i).queue

theorem stageIdle_settlePort {i : Nat} {d : Dev} (hwf : Store.wf {} d.stages = true) (hidle : (d.stage i).playing = []) :
    StageIdle i d (settlePort i d) := by
  have hbusy := (countsOnly_noteBusy i d).2
  unfold settlePort
  split
  · have h : (takeTrims i (noteBusy i d)).stages = d.stages := ((countsOnly_noteBusy i d).trans (countsOnly_takeTrims i _)).2
    exact ⟨by rw [h]; exact hwf, by rw [Dev.stage_congr h, hidle], by rw [Dev.stage_congr h]⟩
  · rw [hidle]
    extract_lets d1 stage0 d2 s ended
    have hwf1 : Store.wf {} d1.stages = true := (congrArg (Store.wf {}) hbusy).trans hwf
    have hstage0 : stage0 = d.stage i := Dev.stage_congr hbusy i
    have h2 : d2.stages = (d1.setStage i { stage0 with playing := stage0.playing.map (playOn d1) }).stages := (countsOnly_countClips i _).2
    have hwf2 : Store.wf {} d2.stages = true := by
      rw [h2]
      exact Store.wf_set hwf1
    have hs : s = { stage0 with playing := stage0.playing.map (playOn d1) } :=
      (Dev.stage_congr h2 i).trans (Dev.stage_setStage_same hwf1 i _)
    have hplaying : s.playing = [] := by simp [hs, hstage0, hidle]
    have hqueue : s.queue = (d.stage i).queue := by simp [hs, hstage0]
    refine ⟨Store.wf_set hwf2, ?_, ?_⟩
    · rw [Dev.stage_setStage_same hwf2]
      simp [hplaying]
    · rw [Dev.stage_setStage_same hwf2]
      exact hqueue

/-! Stream refills (R169, R171). -/

theorem buffered_congr {d e : Dev} (htime : e.time = d.time) (hrun : e.core.run = d.core.run) (t : Tok) : buffered e t = buffered d t := by
  have hmer (k : Nat) : merOf e k = merOf d k := by unfold merOf; rw [hrun]
  have hvertex : vertexOf e t = vertexOf d t := by unfold vertexOf; rw [hmer]
  have hnow : nowFine e = nowFine d := by unfold nowFine; rw [htime]
  unfold buffered playedNow vertexFine
  rw [hvertex, hnow]

theorem needsFill_kind {t : Tok} (h : needsFill t = true) : t.kind = .play := by
  simp only [needsFill, Bool.and_eq_true, decide_eq_true_eq] at h
  exact h.1.1.1.1

/-- A block of data that reaches an item where no DDR5 line fails. -/
theorem filled_eq {x : Ctx} {d : Dev} {i : Nat} {t : Tok} (hecc : d.eccLines = []) : filled x d i t =
    { t with got := t.got + min 1024 (t.len - t.got),
             data := t.data ++ (List.range (min 1024 (t.len - t.got))).map fun j => streamSample x i t (t.got + j) } := by
  simp [filled, badLines, hecc]

/-- The head of a queue on a port that plays nothing is the one to fill, and takes its block where the buffer has room. -/
theorem streamRefill_queue {i : Nat} {x : Ctx} {d : Dev} {t : Tok} {rest : List Tok} (hqueue : (d.stage i).queue = t :: rest)
    (hidle : (d.stage i).playing = []) (hwf : Store.wf {} d.stages = true) (hfabric : ∀ u ∈ d.core.fabric, u.stage ≠ i)
    (hecc : d.eccLines = []) (hneeds : needsFill t = true)
    (hroom : (((d.stage i).queue.filter (fun u => u.kind = .play)).map (buffered d)).sum + min 1024 (t.len - t.got) ≤ 8192) :
    ((streamRefill i x d).stage i).queue = (d.stage i).queue.map fun p => if p = t then filled x d i t else p := by
  have hsettled := settledOnly_settlePort i d
  have hstage := stageIdle_settlePort hwf hidle
  unfold streamRefill
  generalize settlePort i d = e at hsettled hstage
  extract_lets e' s inFabric all held
  have hall : all = (d.stage i).queue.filter (fun u => u.kind = .play) := by
    have hnone : inFabric = [] := List.filter_eq_nil_iff.mpr fun u hu => by
      rw [hsettled.fabric] at hu
      simpa using hfabric u hu
    change (s.playing ++ s.queue ++ inFabric).filter _ = _
    rw [hstage.playing, hstage.queue, hnone, List.nil_append, List.append_nil]
  have hfind : all.find? needsFill = some t := by
    rw [hall, hqueue, List.filter_cons_of_pos (by simp [needsFill_kind hneeds]), List.find?_cons_of_pos hneeds]
  have hheld : held = (((d.stage i).queue.filter (fun u => u.kind = .play)).map (buffered d)).sum := by
    change (all.map (buffered e)).sum = _
    rw [hall, funext (buffered_congr hsettled.time hsettled.run)]
  have hecc' : e.eccLines = [] := hsettled.eccLines.trans hecc
  have hbad : badLines e i t (min 1024 (t.len - t.got)) = [] := by simp [badLines, hecc']
  rw [hfind, hheld]
  dsimp only
  change ((ite (8192 < _) e _).stage i).queue = _
  rw [if_neg (Nat.not_lt.mpr hroom), hbad, List.foldl_nil, filled_eq hecc', filled_eq hecc]
  refine (congrArg Stage.queue (Dev.stage_setStage_same hstage.wf i _)).trans ?_
  exact congrArg (List.map _) hstage.queue

/-- Settles O42: each row is its operation, in the case the clause names; vertex order is kept by `insertItem`. -/
theorem itemRows : Obligations.ItemRows := by
  refine ⟨?_, fun d t queue hknown hord => ⟨insertItem_ordered hknown hord, insertItem_perm d t queue⟩⟩
  intro n more port h t rest s hwr placed t1 gone stage q
  refine ⟨fun ht hitem hframed hroom hgate hread hrun => ⟨fun hkept => ?_, fun cause hgone => ?_⟩, fun ht hup => ?_,
    fun hqueue hlock hjump hfixed hpassed => ?_, fun hlock => ?_, fun hjump => ?_,
    fun hqueue hidle hwf hfabric hecc hneeds hroom => ⟨_, rfl, ?_⟩⟩
  · exact next_on_eq (itemArrival_queues (x := s.ctx) ht hitem hframed hroom hgate hread hrun hkept) ((leftFabric_wr s.fuse).trans hwr)
  · exact next_on_congr (itemArrival_discards ht hitem hframed hroom hgate hread hrun hgone)
  · exact next_on_eq (itemArrival_held_up ht hup) hwr
  · obtain ⟨v, hv⟩ := hfixed
    refine next_on_congr ?_
    rw [itemReleaseRow, itemRelease_head hqueue hlock hjump hv hpassed]
  · exact next_on_eq (itemReleaseRow_unlocked hlock) hwr
  · exact next_on_congr (jumpCommitCheck_waiting hjump)
  · refine (streamRefill_queue (x := (s.sync h).ctx) (d := (s.sync h).dev) hqueue hidle hwf hfabric hecc hneeds ?_).trans ?_
    · exact hroom
    · rw [filled_eq (d := (s.sync h).dev) hecc]
      rfl

end Sys2Proof.Machine
end

section
/-! Lattice time on an empty queue (R123, R503), and the lattice commands (R145 to R151). -/

namespace Sys2Proof.Machine

/-- A tick of lattice time counts while the PLL has locked, and not before (R123, R408). -/
theorem advance_one_time (d : Dev) : (advance 1 d).time = if d.time.counting then
    { d.time with lat := (d.time.lat + 1) % 2 ^ 64, raw := (d.time.raw + 1) % 2 ^ 64 } else d.time := by
  unfold advance
  cases d.time.counting <;> rfl

/-- A shut die's always-on logic counts 1 ns with the tick (R503). -/
theorem shutTick_thermal (d : Dev) : (shutTick d).thermal =
    if d.thermal.isShut then { d.thermal with shutNs := d.thermal.shutNs + 1 } else d.thermal := by
  unfold shutTick
  split <;> rfl

theorem shutTick_eq (d : Dev) : shutTick d = { d with thermal := (shutTick d).thermal } := by
  unfold shutTick
  split <;> rfl

theorem step_of_empty {s : State} (h : s.pending = []) : step s = .next { s with dev := shutTick (advance 1 s.dev) } := by
  unfold step
  split
  · rfl
  · rename_i hcons
    cases hcons.symm.trans h

/-- Settles O2: the idle tick is `advance` by one and `shutTick`, which change `time` and `thermal` alone. -/
theorem emptyQueueStepIsOneTick : Obligations.EmptyQueueStepIsOneTick := by
  intro s hempty time thermal
  have htime : (advance 1 s.dev).time = time := advance_one_time s.dev
  have hthermal : (shutTick (advance 1 s.dev)).thermal = thermal := shutTick_thermal (advance 1 s.dev)
  rw [step_of_empty hempty, shutTick_eq, hthermal, ← htime]
  rfl

theorem cancelArmed_unarmed {status detail : Nat} {d : Dev} (h : d.lattice.armed = none) : cancelArmed status detail d = d := by
  rw [cancelArmed, h]

section
variable {x : Ctx} {c : Cmd} {d : Dev}

theorem latLoad_now (h : c.arg 8 1 = 0) : latLoadSpec.act x c d = doneCmd c 0x0200
    ((loadLattice (c.arg 0 8) (advance 1 (cancelArmed 0x0216 0xFFFF d))).forAll (x.fuse.indices.filter (· < 96)) (markDue true)) := by
  simp only [latLoadSpec, h]

theorem latLoad_arms (h : c.arg 8 1 = 1) (hfree : d.lattice.armed = none) : latLoadSpec.act x c d = { d with lattice := { d.lattice with
    armed := some ⟨c.arg 0 8, bitOf (c.arg 9 1) 0, (d.time.raw + 1000000 * c.arg 12 4) % 2 ^ 64, c.seq⟩ } } := by
  simp only [latLoadSpec, h, cancelArmed_unarmed hfree]
  rfl

theorem latLoad_cancels (h : c.arg 8 1 = 2) : latLoadSpec.act x c d =
    if d.lattice.armed.isSome then doneCmd c 0x0200 (cancelArmed 0x0216 0xFFFF d) else okCmd c 0x0002 0 [] true d := by
  simp only [latLoadSpec, h]
  cases harmed : d.lattice.armed with
  | none => rw [cancelArmed_unarmed harmed]
  | some a => rfl

end

/-- Applied with no program running, LAT_SET_PERIOD sets the period and the extension anew, and completes (R147, R499). -/
theorem applyNow_setPeriod {x : Ctx} {c : Cmd} {d : Dev} (hop : c.op = 0x0202) : applyNow x c d =
    doneCmd c 0x0200 (setExtension { d with lattice := { d.lattice with period := c.arg 0 8 } }) := by
  simp [applyNow, stagedEffect, goesOn, groupDone, hop, applySetPeriod]

theorem applyNow_sync {x : Ctx} {c : Cmd} {d : Dev} (hop : c.op = 0x0203) : applyNow x c d =
    doneCmd c 0x0200 { d with lattice := { d.lattice with follow := c.arg 0 1 = 1, falling := bitOf (c.arg 1 1) 0, lead := c.arg 4 4 } } := by
  simp [applyNow, stagedEffect, goesOn, groupDone, hop, applySync]

/-- The row of a command that passes its checks, from what its effect is on the device it begins on. -/
theorem cmdRow_effect {sp : CmdSpec} {mb : Nat} {h : HostSide} {s : State} {c : Cmd} {f : Ctx → Dev → Dev} (hb : s.begins sp mb h = some c)
    (heffect : sp.act (s.sync h).ctx c (putCmd c (s.sync h).dev) = f (s.sync h).ctx (putCmd c (s.sync h).dev)) :
    cmdRow sp mb h s = .next (s.during h c f) := by
  rw [cmdRow_begins hb, State.during_congr (f := fun x d => sp.act x c d) heffect]

section
variable {x : Ctx} {c : Cmd} {d : Dev}

theorem latSetPeriod_idle (hop : c.op = 0x0202) (h : running d = false) : latSetPeriodSpec.act x c d =
    doneCmd c 0x0200 (setExtension { d with lattice := { d.lattice with period := c.arg 0 8 } }) :=
  (stageOrApply_of_idle h).trans (applyNow_setPeriod hop)

theorem latSync_idle (hop : c.op = 0x0203) (h : running d = false) : latSyncSpec.act x c d =
    doneCmd c 0x0200 { d with lattice := { d.lattice with follow := c.arg 0 1 = 1, falling := bitOf (c.arg 1 1) 0, lead := c.arg 4 4 } } :=
  (stageOrApply_of_idle h).trans (applyNow_sync hop)

end

/-- Settles O27: a row whose command passes its checks has that command's effect, that of the two staged ones by `stageOrApply`. -/
theorem latticeCommands : Obligations.LatticeCommands := by
  intro mb h s c l
  refine ⟨fun hb => ?_, fun hb => ?_, fun hb => ?_, fun hb => ?_, fun hb => ?_, fun hb => ?_, fun hb => ?_⟩
  · exact cmdRow_effect hb rfl
  · exact cmdRow_effect hb rfl
  · have hop : c.op = 0x0202 := begins_op hb
    refine ⟨fun hrun => ?_, fun hidle => ?_⟩
    · exact cmdRow_effect hb (stageOrApply_of_running hrun)
    · exact cmdRow_effect hb (latSetPeriod_idle hop hidle)
  · have hop : c.op = 0x0203 := begins_op hb
    refine ⟨fun hrun => ?_, fun hidle => ?_⟩
    · exact cmdRow_effect hb (stageOrApply_of_running hrun)
    · exact cmdRow_effect hb (latSync_idle hop hidle)
  · refine ⟨fun h0 => ?_, fun h1 hfree => ?_, fun h2 => ?_⟩
    · exact cmdRow_effect hb (latLoad_now h0)
    · exact cmdRow_effect hb (latLoad_arms h1 hfree)
    · exact cmdRow_effect hb (latLoad_cancels h2)
  · exact cmdRow_effect hb rfl
  · exact cmdRow_effect hb rfl

end Sys2Proof.Machine
end

section
/-! SYNC edges (R130, R131, R149): what an edge does to the units that it triggers, to the next meridian and to an armed LAT_LOAD. -/

namespace Sys2Proof.Machine

/-! Triggers (R344 to R346, R351, R352). -/

/-- Between `d` and `e` only the acquisition engine, messages on links, event registers, host messages and what open shots have collected
differ. -/
def CapturesOnly (d e : Dev) : Prop :=
  e = { d with acq := e.acq, links := e.links, evt := e.evt, wr := e.wr, core := { d.core with shots := e.core.shots } }

section
variable {d e f : Dev}

theorem CapturesOnly.refl (d : Dev) : CapturesOnly d d := rfl

theorem CapturesOnly.trans (h : CapturesOnly d e) (g : CapturesOnly e f) : CapturesOnly d f := by
  unfold CapturesOnly at *
  rw [g, h]

theorem CapturesOnly.after (h : CapturesOnly e f) (g : CapturesOnly d e) : CapturesOnly d f := g.trans h

theorem CapturesOnly.ite {p : Prop} [Decidable p] (he : CapturesOnly d e) (hf : CapturesOnly d f) :
    CapturesOnly d (if p then e else f) := by
  split
  · exact he
  · exact hf

theorem capturesOnly_forAll (g : Nat → Dev → Dev) (hg : ∀ n d, CapturesOnly d (g n d)) (ns : List Nat) (d : Dev) :
    CapturesOnly d (d.forAll ns g) :=
  List.foldlRecOn (motive := CapturesOnly d) ns _ (.refl d) fun _ h n _ => h.trans (hg n _)

theorem Raised.capturesOnly (h : Raised d e) : CapturesOnly d e := by
  unfold CapturesOnly
  rw [h.frame]

end

theorem capturesOnly_event (src inst arg : Nat) (d : Dev) : CapturesOnly d (event src inst arg d) := (raised_event src inst arg d).capturesOnly

theorem capturesOnly_countRecord (u : Nat) (ok : Bool) (d : Dev) : CapturesOnly d (countRecord u ok d) := rfl

theorem capturesOnly_entryFails (o : Offer) (cause : Nat) (d : Dev) : CapturesOnly d (entryFails o cause d) := by
  unfold entryFails
  split <;> rfl

theorem capturesOnly_unitLost (o : Offer) (d : Dev) : CapturesOnly d (unitLost o d) := by
  unfold unitLost
  split
  · exact .refl d
  · extract_lets d1 q
    have h1 : CapturesOnly d d1 := .ite (capturesOnly_countRecord _ _ d) (.refl d)
    exact h1.trans rfl

/-- A unit's record that no ring takes (R336). -/
theorem capturesOnly_noRing {o : Offer} {u : Nat} (ho : o.unit = some u) (ring : Nat) (d : Dev) : CapturesOnly d (noRing ring o d) := by
  unfold noRing
  rw [ho]
  extract_lets d1
  have h1 : CapturesOnly d d1 := (capturesOnly_entryFails _ _ d).trans (capturesOnly_unitLost o _)
  exact .ite h1 (h1.trans ((capturesOnly_event _ _ _ _).after rfl))

theorem capturesOnly_offerRecord (u : Nat) (ws : List (BitVec 32)) (viol : List Nat) (cause : Nat) (d : Dev) :
    CapturesOnly d (offerRecord u ws viol cause d) := by
  unfold offerRecord
  extract_lets q o d1
  have h1 : CapturesOnly d d1 := .ite (.refl d) (.trans (by split <;> rfl) (capturesOnly_countRecord _ _ _))
  exact .ite (h1.trans rfl) (h1.trans (capturesOnly_noRing rfl _ _))

theorem capturesOnly_beginCapture (u t8 shot origin : Nat) (d : Dev) : CapturesOnly d (beginCapture u t8 shot origin d) := rfl

theorem capturesOnly_missTrigger (u : Nat) (d : Dev) : CapturesOnly d (missTrigger u d) := by
  unfold missTrigger
  dsimp only
  split <;> rfl

theorem capturesOnly_sendFire (m : FireMsg) (d : Dev) : CapturesOnly d (sendFire m d) := by
  refine capturesOnly_forAll _ (fun l e => ?_) _ d
  exact .ite rfl (.refl e)

theorem capturesOnly_missFire (d : Dev) : CapturesOnly d (missFire d) := by
  refine capturesOnly_forAll _ (fun u e => ?_) _ d
  exact .ite (.refl e) rfl

theorem capturesOnly_lateFire (origin t8 : Nat) (d : Dev) : CapturesOnly d (lateFire origin t8 d) := by
  refine capturesOnly_forAll _ (fun u e => ?_) _ d
  extract_lets q d1 q1 shown d2
  have h1 : CapturesOnly e d1 := (capturesOnly_event _ _ _ _).after rfl
  have h2 : CapturesOnly d1 d2 := (capturesOnly_offerRecord u [] [] Cause.fireLate _).after rfl
  exact .ite (.refl e) (.ite ((h1.trans h2).trans rfl) h1)

theorem capturesOnly_takeFire (origin t8 : Nat) (d : Dev) : CapturesOnly d (takeFire origin t8 d) := by
  unfold takeFire
  exact .ite (.refl d) (.ite (capturesOnly_lateFire _ _ d) (.ite (capturesOnly_missFire d) rfl))

theorem capturesOnly_unitTrigger (u t8 shot : Nat) (d : Dev) : CapturesOnly d (unitTrigger u t8 shot d) := by
  unfold unitTrigger
  extract_lets q dev fire
  have hfire (e : Dev) : CapturesOnly e (fire e) := .ite ((capturesOnly_sendFire _ e).trans (capturesOnly_takeFire _ _ _)) (.refl e)
  split
  · exact .refl d
  · exact .refl d
  · exact .ite (hfire d) ((capturesOnly_beginCapture _ _ _ _ d).trans (hfire _))
  · exact .ite (hfire d) ((capturesOnly_missTrigger _ d).trans (hfire _))

theorem capturesOnly_eventTriggers (n : Nat) (falling : Bool) (d : Dev) : CapturesOnly d (eventTriggers n falling d) :=
  capturesOnly_forAll _ (fun u d => .ite (capturesOnly_unitTrigger u _ _ d) (.refl d)) _ d

/-! A captured edge (R397, R398). -/

/-- What an edge of SYNC leaves for the lattice: its input conditioned, and the units that watch it triggered. -/
def syncTaken (falling : Bool) (b : Nat) (d : Dev) : Dev := eventTriggers 8 falling (conditionEdge 8 falling b d).2

/-- Conditioning an edge writes its input's counts. -/
theorem conditionEdge_captured {src : Nat} {falling : Bool} {b : Nat} {d : Dev} (h : (conditionEdge src falling b d).1 = true) :
    ∃ inputs, (conditionEdge src falling b d).2 = { d with tim := { d.tim with inputs := inputs } } := by
  unfold conditionEdge at h ⊢
  extract_lets at h ⊢
  split at h
  · cases h
  · split at h
    · cases h
    · rename_i hleft hheld
      rw [if_neg hleft, if_neg hheld]
      exact ⟨_, rfl⟩

/-- What a captured edge of SYNC leaves alone before it reaches the lattice. -/
structure LatticeUntouched (d e : Dev) : Prop where
  hif : e.hif = d.hif
  lattice : e.lattice = d.lattice
  time : e.time = d.time
  run : e.core.run = d.core.run
  progs : e.core.progs = d.core.progs
  cmds : e.core.cmds = d.core.cmds

theorem latticeUntouched_syncTaken {falling : Bool} {b : Nat} {d : Dev} (h : (conditionEdge 8 falling b d).1 = true) :
    LatticeUntouched d (syncTaken falling b d) := by
  obtain ⟨inputs, hinputs⟩ := conditionEdge_captured h
  have hcaptures := capturesOnly_eventTriggers 8 falling (conditionEdge 8 falling b d).2
  unfold syncTaken
  generalize eventTriggers 8 falling (conditionEdge 8 falling b d).2 = e at hcaptures ⊢
  rw [hinputs] at hcaptures
  rw [hcaptures]
  exact ⟨rfl, rfl, rfl, rfl, rfl, rfl⟩

section
variable {d e : Dev}

theorem LatticeUntouched.running (h : LatticeUntouched d e) : running e = running d := by unfold Machine.running; rw [h.run]

theorem LatticeUntouched.windowPending (h : LatticeUntouched d e) : windowPending e = windowPending d := by
  unfold Machine.windowPending
  rw [h.running, h.lattice, h.run]

theorem LatticeUntouched.expectedEdge (h : LatticeUntouched d e) : expectedEdge e = expectedEdge d := by
  unfold Machine.expectedEdge
  rw [h.run, h.lattice]

theorem LatticeUntouched.edgeEarly (h : LatticeUntouched d e) : edgeEarly e = edgeEarly d := by
  have hprog : runProg e = runProg d := by
    unfold runProg Dev.prog
    rw [h.run, h.progs]
  unfold Machine.edgeEarly marginNow
  rw [hprog]

end

/-- An edge that is captured, with no measurement, goes to the lattice (R398). -/
theorem inputEdge_sync {falling : Bool} {b : Nat} {x : Ctx} {d : Dev} (hready : d.hif.state = .ready) (hmeas : d.tim.meas = none)
    (hb : b ≤ 999) (h : (conditionEdge 8 falling b d).1 = true) : inputEdge 8 falling b x d = syncEdgeOps falling x (syncTaken falling b d) := by
  obtain ⟨inputs, hinputs⟩ := conditionEdge_captured h
  have htim : timEdge 8 falling b (conditionEdge 8 falling b d).2 = (conditionEdge 8 falling b d).2 := by
    have hnone : (conditionEdge 8 falling b d).2.tim.meas = none := by rw [hinputs]; exact hmeas
    rw [timEdge, hnone]
  have hin : inputCode 8 = true := by decide
  simp only [inputEdge, hin, hready, h, htim, syncTaken]
  simp [Nat.not_lt.mpr hb]

/-! Following (R130, R131). -/

/-- `e` has counted one SYNC edge in window more than `d` (R131). -/
def CountedInWindow (d e : Dev) : Prop :=
  e.lattice.syncIn = (d.lattice.syncIn + 1) % 2 ^ 64 ∧ e.lattice.syncOut = d.lattice.syncOut

theorem syncFollow_inside {at_ : Nat} {d : Dev} (hpending : windowPending d = true) (hearly : expectedEdge d ≤ at_ + edgeEarly d)
    (hlate : at_ ≤ expectedEdge d + 2048) :
    ∃ e, CountedInWindow d e ∧ syncFollow at_ d = fixMeridian (at_ + d.lattice.lead) ((at_ : Int) - expectedEdge d) e := by
  refine ⟨{ d with lattice := { d.lattice with syncIn := (d.lattice.syncIn + 1) % 2 ^ 64 } }, ⟨rfl, rfl⟩, ?_⟩
  simp only [syncFollow, hpending, hearly, hlate, decide_true, Bool.and_self, if_true]
  rfl

theorem syncEdgeOps_follows {falling : Bool} {x : Ctx} {d : Dev} (hready : d.hif.state = .ready) (harmed : d.lattice.armed = none)
    (hrun : running d = true) (hfollow : d.lattice.follow = true) (hpolarity : d.lattice.falling = falling) :
    syncEdgeOps falling x d = syncFollow d.time.lat d := by
  simp [syncEdgeOps, hready, harmed, hrun, hfollow, hpolarity]

theorem windowPending_running {d : Dev} (h : windowPending d = true) : running d = true := by
  simp only [windowPending, Bool.and_eq_true] at h
  exact h.1.1.1

/-- A window that closes without an edge (R131). -/
theorem syncWindowClose_pending {x : Ctx} {d : Dev} (h : windowPending d = true) : syncWindowClose x d =
    raise { src := 70, lat := 4096 * (expectedEdge d + 2048) } (fixMeridian (expectedEdge d + d.lattice.lead) 0
      { advanceTo (expectedEdge d + 2048) d with lattice := { d.lattice with syncMissing := (d.lattice.syncMissing + 1) % 2 ^ 64 } }) := by
  rw [syncWindowClose, if_pos h]
  rfl

/-! Loading lattice time (R149). -/

/-- What loading lattice time leaves alone: the lattice's state and the unfinished commands, and of the time the count of loads before it. -/
structure Loaded (value : Nat) (d e : Dev) : Prop where
  lattice : e.lattice = d.lattice
  cmds : e.core.cmds = d.core.cmds
  lat : e.time.lat = value
  suspect : e.time.suspect = false
  loads : e.time.loads = d.time.loads + 1

/-- Nothing of the lattice, the time and the unfinished commands differs. -/
structure LatticeStands (d e : Dev) : Prop where
  lattice : e.lattice = d.lattice
  cmds : e.core.cmds = d.core.cmds
  time : e.time = d.time

theorem LatticeStands.refl (d : Dev) : LatticeStands d d := ⟨rfl, rfl, rfl⟩

theorem LatticeStands.trans {d e f : Dev} (h : LatticeStands d e) (g : LatticeStands e f) : LatticeStands d f :=
  ⟨g.lattice.trans h.lattice, g.cmds.trans h.cmds, g.time.trans h.time⟩

/-- Such a step after an update of other fields. -/
theorem LatticeStands.after {d e f : Dev} (h : LatticeStands e f) (hlattice : e.lattice = d.lattice) (hcmds : e.core.cmds = d.core.cmds)
    (htime : e.time = d.time) : LatticeStands d f := .trans ⟨hlattice, hcmds, htime⟩ h

theorem Raised.latticeStands {d e : Dev} (h : Raised d e) : LatticeStands d e := ⟨by rw [h.frame], by rw [h.frame], by rw [h.frame]⟩

theorem SettledOnly.latticeStands {d e : Dev} (h : SettledOnly d e) : LatticeStands d e := ⟨h.lattice, h.cmds, h.time⟩

theorem latticeStands_endMeas (cause : Nat) (d : Dev) : LatticeStands d (endMeas cause d) := by
  unfold endMeas
  split
  · exact .refl d
  · exact (raised_raise _ _).latticeStands.after rfl rfl rfl

theorem latticeStands_drivePins (d : Dev) : LatticeStands d (drivePins d) := by
  unfold drivePins drivePinsTo
  split
  · exact .refl d
  · exact ⟨rfl, rfl, rfl⟩

theorem latticeStands_finishMark (d : Dev) : LatticeStands d (finishMark d) := by
  unfold finishMark
  split
  · exact .refl d
  · dsimp only
    split
    · exact ⟨rfl, rfl, rfl⟩
    · exact (raised_event _ _ _ _).latticeStands.after rfl rfl rfl

theorem latticeStands_settleMark (d : Dev) : LatticeStands d (settleMark d) := by
  unfold settleMark
  split
  · exact .refl d
  · split
    · exact (latticeStands_drivePins d).trans (latticeStands_finishMark _)
    · exact latticeStands_drivePins d

theorem settledOnly_settlePorts (d : Dev) : SettledOnly d (settlePorts d) := settledOnly_foldl _ (fun d i => settledOnly_settlePort i d) _ d

theorem loaded_loadLattice (value : Nat) (d : Dev) : Loaded value d (loadLattice value d) := by
  unfold loadLattice
  have h : LatticeStands d (settleMark (settlePorts (endMeas Cause.loaded d))) :=
    ((latticeStands_endMeas _ d).trans (settledOnly_settlePorts _).latticeStands).trans (latticeStands_settleMark _)
  generalize settleMark (settlePorts (endMeas Cause.loaded d)) = e at h ⊢
  dsimp only
  generalize hd : ({ e with time := _, stages := _, marker := _, acq := _, chans := _, ports := _, core := _ } : Dev) = d2
  have hraised : LatticeStands d2 (event 63 0xFFFF 0 d2) := (raised_event _ _ _ d2).latticeStands
  subst hd
  refine ⟨hraised.lattice.trans h.lattice, hraised.cmds.trans h.cmds, ?_, ?_, ?_⟩
  · rw [hraised.time]
  · rw [hraised.time]
  · rw [hraised.time]
    exact congrArg (·.loads + 1) h.time

/-- Lattice time is loaded, and every port is due for a slice (R149, R371). -/
def loadAll (f : Fuse) (value : Nat) (d : Dev) : Dev := (loadLattice value d).forAll (f.indices.filter (· < 96)) (markDue true)

theorem latticeStands_markAllDue (ks : List Nat) (d : Dev) : LatticeStands d (d.forAll ks (markDue true)) :=
  List.foldlRecOn (motive := LatticeStands d) ks _ (.refl d) fun _ h _ _ => h.trans ⟨rfl, rfl, rfl⟩

theorem loaded_loadAll (f : Fuse) (value : Nat) (d : Dev) : Loaded value d (loadAll f value d) := by
  have h := loaded_loadLattice value d
  have hdue := latticeStands_markAllDue (f.indices.filter (· < 96)) (loadLattice value d)
  exact ⟨hdue.lattice.trans h.lattice, hdue.cmds.trans h.cmds, (congrArg Time.lat hdue.time).trans h.lat,
    (congrArg Time.suspect hdue.time).trans h.suspect, (congrArg Time.loads hdue.time).trans h.loads⟩

section
variable {x : Ctx} {d : Dev} {a : ArmedLoad}

/-- What the armed load's edge does once it is taken: lattice time is loaded, and the command ends. -/
def edgeLoad (f : Fuse) (a : ArmedLoad) (d : Dev) : Dev :=
  endSeq (some a.seq) (fun c d => doneCmd c 0x0200 d) (loadAll f a.value { d with lattice := { d.lattice with armed := none } })

theorem syncEdgeOps_loads (hready : d.hif.state = .ready) (harmed : d.lattice.armed = some a) (hidle : running d = false) :
    syncEdgeOps a.falling x d = journal a.seq (edgeLoad x.fuse a) d := by
  simp only [syncEdgeOps, hready, harmed, hidle]
  rfl

theorem endSeq_live {n : Nat} {c : Cmd} {g : Cmd → Dev → Dev} (hcmd : cmdOf d n = some c) (hlive : c.dead = false) :
    endSeq (some n) g d = g c d := by
  simp [endSeq, hcmd, hlive]

theorem cmdOf_congr {e : Dev} (h : e.core.cmds = d.core.cmds) (n : Nat) : cmdOf e n = cmdOf d n := by rw [cmdOf, h, cmdOf]

theorem edgeLoad_live {f : Fuse} {c : Cmd} (hcmd : cmdOf d a.seq = some c) (hlive : c.dead = false) :
    edgeLoad f a d = doneCmd c 0x0200 (loadAll f a.value { d with lattice := { d.lattice with armed := none } }) :=
  endSeq_live ((cmdOf_congr (loaded_loadAll f a.value _).cmds a.seq).trans hcmd) hlive

theorem Reports.latticeStands {e : Dev} (h : Reports d e) : e.lattice = d.lattice ∧ e.time = d.time := ⟨by rw [h.1], by rw [h.1]⟩

theorem reports_endSeq (seq : Option Nat) {g : Cmd → Dev → Dev} (hg : ∀ c d, Reports d (g c d)) (d : Dev) : Reports d (endSeq seq g d) := by
  unfold endSeq
  split
  · exact .refl d
  · split
    · exact .refl d
    · split
      · exact .refl d
      · exact hg _ d

theorem journal_edgeLoad (f : Fuse) (a : ArmedLoad) (d : Dev) : (journal a.seq (edgeLoad f a) d).time.lat = a.value ∧
    (journal a.seq (edgeLoad f a) d).lattice.armed = none ∧ (journal a.seq (edgeLoad f a) d).time.suspect = false ∧
    (journal a.seq (edgeLoad f a) d).time.loads = d.time.loads + 1 := by
  have hload := loaded_loadAll f a.value { d with lattice := { d.lattice with armed := none } }
  have hends := reports_endSeq (some a.seq) (fun c d => reports_doneCmd c 0x0200 d) (loadAll f a.value { d with lattice := { d.lattice with armed := none } })
  obtain ⟨hlattice, htime⟩ := hends.latticeStands
  rw [journal_time, journal_lattice, edgeLoad, htime, hlattice]
  exact ⟨hload.lat, congrArg Lattice.armed hload.lattice, hload.suspect, hload.loads⟩

/-- An armed load that sees no edge by its deadline (R144, R149). -/
theorem latLoadTimeout_armed {c : Cmd} (harmed : d.lattice.armed = some a) (hcmd : cmdOf d a.seq = some c) (hlive : c.dead = false) :
    latLoadTimeout x d = failCmd c { status := 0x0215, detail := 44 }
      { advance (a.deadline - d.time.raw) d with lattice := { d.lattice with armed := none } } := by
  have hadvanced : (advance (a.deadline - d.time.raw) d).lattice.armed = some a := harmed
  simp only [latLoadTimeout, harmed, cancelArmed, hadvanced]
  exact endSeq_live hcmd hlive

end

section
variable {b : Nat} {x : Ctx} {d : Dev} {a : ArmedLoad}

/-- An edge inside the window fixes the next meridian (R130, R131). -/
theorem inputEdge_follows (hready : d.hif.state = .ready) (harmed : d.lattice.armed = none) (hfollow : d.lattice.follow = true)
    (hpending : windowPending d = true) (hearly : expectedEdge d ≤ d.time.lat + edgeEarly d) (hlate : d.time.lat ≤ expectedEdge d + 2048)
    (hmeas : d.tim.meas = none) (hb : b ≤ 999) (hcap : (conditionEdge 8 d.lattice.falling b d).1 = true) :
    ∃ e, CountedInWindow d e ∧ inputEdge 8 d.lattice.falling b x d =
      fixMeridian (d.time.lat + d.lattice.lead) ((d.time.lat : Int) - expectedEdge d) e := by
  have htaken := latticeUntouched_syncTaken hcap
  rw [inputEdge_sync hready hmeas hb hcap]
  generalize syncTaken d.lattice.falling b d = t at htaken ⊢
  rw [syncEdgeOps_follows (by rw [htaken.hif, hready]) (by rw [htaken.lattice, harmed]) (by rw [htaken.running, windowPending_running hpending])
    (by rw [htaken.lattice, hfollow]) (by rw [htaken.lattice]), htaken.time]
  obtain ⟨e, hcounted, hrow⟩ := syncFollow_inside (at_ := d.time.lat) (d := t) (by rw [htaken.windowPending, hpending])
    (by rwa [htaken.expectedEdge, htaken.edgeEarly]) (by rwa [htaken.expectedEdge])
  rw [htaken.expectedEdge, htaken.lattice] at hrow
  unfold CountedInWindow at hcounted
  rw [htaken.lattice] at hcounted
  exact ⟨e, hcounted, hrow⟩

/-- An edge of the armed polarity loads lattice time (R149). -/
theorem inputEdge_loads (hready : d.hif.state = .ready) (harmed : d.lattice.armed = some a) (hidle : running d = false)
    (hmeas : d.tim.meas = none) (hb : b ≤ 999) (hcap : (conditionEdge 8 a.falling b d).1 = true) :
    inputEdge 8 a.falling b x d = journal a.seq (edgeLoad x.fuse a) (syncTaken a.falling b d) := by
  have htaken := latticeUntouched_syncTaken hcap
  rw [inputEdge_sync hready hmeas hb hcap]
  exact syncEdgeOps_loads (by rw [htaken.hif, hready]) (by rw [htaken.lattice, harmed]) (by rw [htaken.running, hidle])

theorem journal_edgeLoad_live {f : Fuse} {c : Cmd} (hcmd : cmdOf d a.seq = some c) (hlive : c.dead = false) :
    journal a.seq (edgeLoad f a) d =
      journal a.seq (fun d => doneCmd c 0x0200 (loadAll f a.value { d with lattice := { d.lattice with armed := none } })) d := by
  rw [journal, edgeLoad_live hcmd hlive, journal]

end

/-- Settles O29: an edge that is captured reaches the lattice, whose two uses of it are following and the armed load. -/
theorem syncRows : Obligations.SyncRows := by
  intro s b a c l edge
  refine ⟨fun hready harmed hfollow hpending hearly hlate hmeas hb hcap => ?_, fun hpending => ?_,
    fun hready harmed hidle hmeas hb hcap => ?_, fun hready harmed hidle hmeas hb hcap => ?_, fun harmed hcmd hlive => ?_⟩
  · obtain ⟨e, ⟨hin, hout⟩, hrow⟩ := inputEdge_follows (x := s.ctx) hready harmed hfollow hpending hearly hlate hmeas hb hcap
    exact ⟨_, next_on_writes hrow, rfl, rfl, rfl, hin, hout⟩
  · have hrow := syncWindowClose_pending (x := s.ctx) hpending
    generalize hr : ({ src := 70, lat := 4096 * (expectedEdge s.dev + 2048) } : Raise) = r at hrow
    have hsrc : r.src = 70 := by rw [← hr]
    have hpend (d : Dev) : (raise r d).evt.pend.getLsbD 70 = true := hsrc ▸ raise_pend_self (by rw [hsrc]; decide)
    refine ⟨_, next_on_writes hrow, ?_, ?_, ?_, ?_, hpend _⟩
    · exact congrArg (fun e : Dev => e.core.run.next) (raised_raise r _).frame
    · exact congrArg (fun e : Dev => e.core.run.fixed) (raised_raise r _).frame
    · exact congrArg (fun e : Dev => e.core.run.delta) (raised_raise r _).frame
    · exact congrArg (fun e : Dev => e.lattice.syncMissing) (raised_raise r _).frame
  · have hrow := inputEdge_loads (x := s.ctx) hready harmed hidle hmeas hb hcap
    obtain ⟨hlat, hunarmed, hsuspect, hloads⟩ := journal_edgeLoad s.fuse a (syncTaken a.falling b s.dev)
    rw [(latticeUntouched_syncTaken hcap).time] at hloads
    exact ⟨_, next_on_writes hrow, hlat, hunarmed, hsuspect, hloads⟩
  · intro taken hcmd hlive
    exact next_on_congr ((inputEdge_loads (x := s.ctx) hready harmed hidle hmeas hb hcap).trans (journal_edgeLoad_live hcmd hlive))
  · exact next_on_congr (latLoadTimeout_armed harmed hcmd hlive)

end Sys2Proof.Machine
end

section
/-! Tables whose keys rise, entries equal to the default among them: what a change of every entry at once leaves of a canonical table. -/

namespace Sys2Proof

/-- The keys of a table rise. -/
def Store.Rises {α : Type} (m : Store α) : Prop := (m.map Prod.fst).Pairwise (· < ·)

theorem Store.rises_cons {α : Type} {j : Nat} {v : α} {rest : Store α} :
    Store.Rises ((j, v) :: rest) ↔ (∀ k ∈ rest.map Prod.fst, j < k) ∧ Store.Rises rest := List.pairwise_cons

/-- A change of every entry at once keeps the keys. -/
theorem Store.Rises.map {α : Type} {m : Store α} (h : m.Rises) (f : α → α) : Store.Rises (m.map fun kv => (kv.1, f kv.2)) := by
  unfold Store.Rises
  rw [List.map_map]
  exact h

/-- An entry so changed, where the change leaves the default alone. -/
theorem Store.get_map {α : Type} {dflt : α} {f : α → α} (hf : f dflt = dflt) (m : Store α) (k : Nat) :
    Store.get dflt (m.map fun kv => (kv.1, f kv.2)) k = f (Store.get dflt m k) := by
  induction m with
  | nil => exact hf.symm
  | cons p rest ih =>
    simp only [List.map_cons, Store.get]
    split
    · rfl
    · exact ih

theorem Store.get_of_not_mem {α : Type} {dflt : α} {m : Store α} {k : Nat} (h : k ∉ m.map Prod.fst) : Store.get dflt m k = dflt := by
  induction m with
  | nil => rfl
  | cons p rest ih =>
    obtain ⟨hk, hrest⟩ := not_or.mp (mt List.mem_cons.mpr h)
    rw [Store.get, if_neg hk, ih hrest]

variable {α : Type} [DecidableEq α] {dflt : α}

theorem Store.rises_of_wfFrom {lo : Nat} {m : Store α} (h : Store.wfFrom dflt lo m = true) : m.Rises ∧ ∀ k ∈ m.map Prod.fst, lo ≤ k := by
  induction m generalizing lo with
  | nil => exact ⟨List.Pairwise.nil, by simp⟩
  | cons p rest ih =>
    obtain ⟨j, v⟩ := p
    simp only [Store.wfFrom, Bool.and_eq_true, decide_eq_true_eq] at h
    obtain ⟨⟨hj, -⟩, hrest⟩ := h
    obtain ⟨hrises, habove⟩ := ih hrest
    refine ⟨Store.rises_cons.mpr ⟨habove, hrises⟩, fun k hk => ?_⟩
    rcases List.mem_cons.mp hk with rfl | hk
    · exact hj
    · exact Nat.le_trans hj (Nat.le_of_lt (habove k hk))

/-- A canonical table is one of them. -/
theorem Store.rises_of_wf {m : Store α} (h : Store.wf dflt m = true) : m.Rises := (Store.rises_of_wfFrom h).1

theorem Store.mem_keys_set {m : Store α} {k i : Nat} {v : α} (h : i ∈ (Store.set dflt m k v).map Prod.fst) :
    i = k ∨ i ∈ m.map Prod.fst := by
  induction m with
  | nil =>
    simp only [Store.set] at h
    split at h
    · exact .inr h
    · exact .inl (by simpa using h)
  | cons p rest ih =>
    obtain ⟨j, w⟩ := p
    simp only [Store.set] at h
    split_ifs at h with hlt hv heq hv
    · exact .inr h
    · exact List.mem_cons.mp h
    · exact .inr (List.mem_cons_of_mem _ h)
    · rcases List.mem_cons.mp h with h | h
      · exact .inl h
      · exact .inr (List.mem_cons_of_mem _ h)
    · rcases List.mem_cons.mp h with rfl | h
      · exact .inr (List.mem_cons_self ..)
      · exact (ih h).imp_right (List.mem_cons_of_mem _)

theorem Store.Rises.set {m : Store α} (h : m.Rises) (k : Nat) (v : α) : (Store.set dflt m k v).Rises := by
  induction m with
  | nil =>
    simp only [Store.set]
    split <;> simp [Store.Rises]
  | cons p rest ih =>
    obtain ⟨j, w⟩ := p
    obtain ⟨habove, hrest⟩ := Store.rises_cons.mp h
    simp only [Store.set]
    split_ifs with hlt hv heq hv
    · exact h
    · refine Store.rises_cons.mpr ⟨fun i hi => ?_, h⟩
      rcases List.mem_cons.mp hi with rfl | hi
      · exact hlt
      · exact Nat.lt_trans hlt (habove i hi)
    · exact hrest
    · exact Store.rises_cons.mpr ⟨fun i hi => heq ▸ habove i hi, hrest⟩
    · refine Store.rises_cons.mpr ⟨fun i hi => ?_, ih hrest⟩
      rcases Store.mem_keys_set hi with rfl | hi
      · omega
      · exact habove i hi

/-- Where the keys rise, a read after a write gives the value written. -/
theorem Store.Rises.get_set_same {m : Store α} (h : m.Rises) (k : Nat) (v : α) : Store.get dflt (Store.set dflt m k v) k = v := by
  induction m with
  | nil =>
    simp only [Store.set]
    split
    · simp [*]
    · simp [Store.get]
  | cons p rest ih =>
    obtain ⟨j, w⟩ := p
    obtain ⟨habove, hrest⟩ := Store.rises_cons.mp h
    simp only [Store.set]
    split_ifs with hlt hv heq hv
    · rw [hv]
      refine Store.get_of_not_mem fun hk => ?_
      rcases List.mem_cons.mp hk with rfl | hk
      · omega
      · exact absurd (habove k hk) (by omega)
    · simp [Store.get]
    · rw [hv]
      exact Store.get_of_not_mem fun hk => absurd (habove k hk) (by omega)
    · simp [Store.get]
    · rw [Store.get, if_neg heq, ih hrest]

end Sys2Proof
end

section
/-! The safe condition kept (R30, R172, R173, R431): what the device does once every output has entered the safe condition for a lost lock
leaves it there, so that the halt of the program, the staged commands applied with it and the end of a hold do not release it. -/

namespace Sys2Proof.Machine

/-- An output in the safe condition for a lost lock. -/
def Port.Unlocked (p : Port) : Prop := .unlock ∈ p.causes ∧ p.safe = true ∧ p.held = false

/-- The marker pins in the safe condition for a lost lock. -/
def Marker.Unlocked (m : Marker) : Prop := .unlock ∈ m.causes ∧ m.safe = true

/-- From `d` to `e` what is in the safe condition for a lost lock stays there; the registers of the host interface and the time stand, and no
program starts. -/
structure StaysSafe (d e : Dev) : Prop where
  hif : e.hif = d.hif
  time : e.time = d.time
  idle : d.core.run.active = false → e.core.run.active = false
  rises : d.ports.Rises → e.ports.Rises
  ports : d.ports.Rises → ∀ i, (d.port i).Unlocked → (e.port i).Unlocked
  marker : d.marker.Unlocked → e.marker.Unlocked

section
variable {d e f : Dev}

theorem StaysSafe.refl (d : Dev) : StaysSafe d d := ⟨rfl, rfl, id, id, fun _ _ h => h, id⟩

theorem StaysSafe.trans (h : StaysSafe d e) (g : StaysSafe e f) : StaysSafe d f where
  hif := g.hif.trans h.hif
  time := g.time.trans h.time
  idle := g.idle ∘ h.idle
  rises := g.rises ∘ h.rises
  ports hd i := g.ports (h.rises hd) i ∘ h.ports hd i
  marker := g.marker ∘ h.marker

/-- A step that touches neither ports nor marker pins. -/
theorem StaysSafe.of_eq (hhif : e.hif = d.hif) (htime : e.time = d.time) (hactive : e.core.run.active = d.core.run.active)
    (hports : e.ports = d.ports) (hmarker : e.marker = d.marker) : StaysSafe d e where
  hif := hhif
  time := htime
  idle := fun h => hactive.trans h
  rises := fun h => hports ▸ h
  ports := fun _ i h => by
    unfold Dev.port
    rw [hports]
    exact h
  marker := fun h => hmarker ▸ h

/-- Such a step after an update of other fields. -/
theorem StaysSafe.after (h : StaysSafe e f) (hhif : e.hif = d.hif) (htime : e.time = d.time)
    (hactive : e.core.run.active = d.core.run.active) (hports : e.ports = d.ports) (hmarker : e.marker = d.marker) : StaysSafe d f :=
  .trans (.of_eq hhif htime hactive hports hmarker) h

theorem StaysSafe.ite {p : Prop} [Decidable p] (he : StaysSafe d e) (hf : StaysSafe d f) : StaysSafe d (if p then e else f) := by
  split
  · exact he
  · exact hf

theorem staysSafe_foldl {α : Type} (g : Dev → α → Dev) (hg : ∀ d a, StaysSafe d (g d a)) (xs : List α) (d : Dev) :
    StaysSafe d (xs.foldl g d) :=
  List.foldlRecOn (motive := StaysSafe d) xs g (.refl d) fun _ h a _ => h.trans (hg _ a)

theorem staysSafe_forAll (g : Nat → Dev → Dev) (hg : ∀ n d, StaysSafe d (g n d)) (ns : List Nat) (d : Dev) :
    StaysSafe d (d.forAll ns g) := staysSafe_foldl _ (fun d n => hg n d) ns d

theorem Reports.staysSafe (h : Reports d e) : StaysSafe d e :=
  .of_eq (by rw [h.1]) (by rw [h.1]) (by rw [h.1]) (by rw [h.1]) (by rw [h.1])

theorem Raised.staysSafe (h : Raised d e) : StaysSafe d e := h.reports.staysSafe

end

theorem Dev.port_setPort_same {d : Dev} (h : d.ports.Rises) (i : Nat) (p : Port) : (d.setPort i p).port i = p := h.get_set_same i p

theorem Dev.port_setPort_other (d : Dev) {i j : Nat} (p : Port) (h : j ≠ i) : (d.setPort i p).port j = d.port j :=
  Store.get_set_other h

/-- A port written keeps its safe condition where what is written of it does. -/
theorem staysSafe_setPort {d : Dev} {i : Nat} {p : Port} (h : (d.port i).Unlocked → p.Unlocked) : StaysSafe d (d.setPort i p) where
  hif := rfl
  time := rfl
  idle := id
  rises hd := hd.set i p
  ports hd j hj := by
    by_cases hji : j = i
    · subst hji
      rw [Dev.port_setPort_same hd]
      exact h hj
    · rw [Dev.port_setPort_other d p hji]
      exact hj
  marker := id

/-- The marker stage written, likewise. -/
theorem staysSafe_marker {d : Dev} {m : Marker} (h : d.marker.Unlocked → m.Unlocked) : StaysSafe d { d with marker := m } :=
  ⟨rfl, rfl, id, id, fun _ _ h => h, h⟩

/-! Events and the ends of commands. -/

theorem staysSafe_raise (r : Raise) (d : Dev) : StaysSafe d (raise r d) := (raised_raise r d).staysSafe

theorem staysSafe_event (src inst arg : Nat) (d : Dev) : StaysSafe d (event src inst arg d) := staysSafe_raise _ d

theorem staysSafe_eventShot (src inst arg shot : Nat) (d : Dev) : StaysSafe d (eventShot src inst arg shot d) := staysSafe_raise _ d

theorem staysSafe_eventCause (src inst arg cause : Nat) (d : Dev) : StaysSafe d (eventCause src inst arg cause d) := staysSafe_raise _ d

theorem staysSafe_doneSeq (seq : Option Nat) (status : Nat) (d : Dev) : StaysSafe d (endSeq seq (fun c d => doneCmd c status d) d) :=
  (reports_endSeq seq (fun c d => reports_doneCmd c status d) d).staysSafe

theorem reports_leaveRamp (p : Port) (d : Dev) : Reports d (leaveRamp p d) := by
  unfold leaveRamp
  split
  · exact .refl d
  · split
    · exact reports_endSeq _ (fun c d => reports_doneCmd c _ d) d
    · exact reports_endSeq _ (fun c d => reports_okCmd c _ _ _ _ d) d

/-! Items (R135, R136, R262, R264, R309 to R313). -/

theorem staysSafe_failShot (k : Nat) (f : ShotFail) (items : Nat) (d : Dev) : StaysSafe d (failShot k f items d) :=
  .of_eq rfl rfl rfl rfl rfl

theorem staysSafe_offerResult (ring : Nat) (o : Offer) (d : Dev) : StaysSafe d (offerResult ring o d) := by
  unfold offerResult
  split
  · exact .of_eq rfl rfl rfl rfl rfl
  · split
    · exact staysSafe_event _ _ _ d
    · extract_lets r d1
      have h1 : StaysSafe d d1 := staysSafe_failShot _ _ _ d
      exact .ite h1 (h1.trans ((staysSafe_event _ _ _ _).after rfl rfl rfl rfl rfl))

theorem staysSafe_exportChord (c : Chord) (d : Dev) : StaysSafe d (exportChord c d) := by
  refine staysSafe_forAll _ (fun l d => ?_) _ d
  exact .ite (.of_eq rfl rfl rfl rfl rfl) (.refl d)

theorem staysSafe_sendChord (slow : Bool) (chan ord shot : Nat) (st : Option (BitVec 2)) (d : Dev) :
    StaysSafe d (sendChord slow chan ord shot st d) := by
  unfold sendChord
  exact .ite (.refl d) ((staysSafe_exportChord _ _).after rfl rfl rfl rfl rfl)

theorem staysSafe_discardedWindow (t : Tok) (cause : Nat) (d : Dev) : StaysSafe d (discardedWindow t cause d) := by
  unfold discardedWindow
  extract_lets c cfg v fine flags o p d1
  have h1 : StaysSafe d d1 := staysSafe_setPort id
  exact (h1.trans (staysSafe_offerResult _ _ _)).trans (staysSafe_sendChord _ _ _ _ _ _)

theorem staysSafe_discardItem (cause : Nat) (t : Tok) (d : Dev) : StaysSafe d (discardItem cause t d) := by
  unfold discardItem
  extract_lets noPort v fine came arg inst failInst d1 f d2
  have h1 : StaysSafe d d1 := staysSafe_raise _ d
  have h2 : StaysSafe d1 d2 := .of_eq rfl rfl rfl rfl rfl
  exact .ite ((h1.trans h2).trans (staysSafe_discardedWindow _ _ _)) (h1.trans h2)

theorem staysSafe_discardAll (cause : Nat) (ts : List Tok) (d : Dev) : StaysSafe d (discardAll cause ts d) :=
  staysSafe_foldl _ (fun d t => staysSafe_discardItem cause t d) ts d

/-! A port brought up to now (R155, R168, R170, R366). -/

theorem staysSafe_countClip (i at16 : Nat) (d : Dev) : StaysSafe d (countClip i at16 d) := by
  unfold countClip
  refine .ite (.refl d) ?_
  extract_lets p d1
  have h1 : StaysSafe d d1 := staysSafe_setPort id
  split
  · exact h1
  · exact h1.trans (.of_eq rfl rfl rfl rfl rfl)

theorem staysSafe_countClipsTo (to16 i : Nat) (d : Dev) : StaysSafe d (countClipsTo to16 i d) := by
  unfold countClipsTo
  extract_lets spans from16 until16 d1
  have h1 : StaysSafe d d1 := .ite (staysSafe_foldl _ (fun d n => staysSafe_countClip i n d) _ d) (.refl d)
  exact h1.trans (staysSafe_setPort id)

theorem staysSafe_putTrim (p : Nat) (t : Trim) (d : Dev) : StaysSafe d (putTrim p t d) := by
  unfold putTrim
  extract_lets wide t1 d1
  have h1 : StaysSafe d d1 := .ite (.of_eq rfl rfl rfl rfl rfl) (.refl d)
  exact h1.trans (.of_eq rfl rfl rfl rfl rfl)

theorem staysSafe_takeTrims (p : Nat) (d : Dev) : StaysSafe d (takeTrims p d) := by
  unfold takeTrims
  split
  · exact .refl d
  · extract_lets at16 d1
    have h1 : StaysSafe d d1 := .ite (staysSafe_countClipsTo _ _ d) (.refl d)
    exact .ite (.refl d) (h1.trans ((staysSafe_putTrim _ _ _).after rfl rfl rfl rfl rfl))

theorem staysSafe_countClips (i : Nat) (d : Dev) : StaysSafe d (countClips i d) :=
  (staysSafe_takeTrims i d).trans (staysSafe_countClipsTo _ _ _)

theorem staysSafe_countUnderrun (i : Nat) (t : Tok) (d : Dev) : StaysSafe d (countUnderrun i t d) := by
  unfold countUnderrun
  extract_lets n z p d1 d2
  split
  · exact .refl d
  · have h1 : StaysSafe d d1 := staysSafe_setPort id
    exact h1.trans (.of_eq rfl rfl rfl rfl rfl)

theorem staysSafe_noteBusy (i : Nat) (d : Dev) : StaysSafe d (noteBusy i d) := .ite (.refl d) (staysSafe_setPort id)

theorem staysSafe_setStage (i : Nat) (s : Stage) (d : Dev) : StaysSafe d (d.setStage i s) := .of_eq rfl rfl rfl rfl rfl

theorem staysSafe_settlePort (i : Nat) (d : Dev) : StaysSafe d (settlePort i d) := by
  unfold settlePort
  refine .ite ((staysSafe_noteBusy i d).trans (staysSafe_takeTrims i _)) ?_
  extract_lets d1 stage1 d2 s ended
  have h1 : StaysSafe d d1 := (staysSafe_noteBusy i d).trans (staysSafe_foldl _ (fun d t => staysSafe_countUnderrun i t d) _ _)
  have h2 : StaysSafe d1 d2 := (staysSafe_setStage i _ d1).trans (staysSafe_countClips i _)
  exact (h1.trans h2).trans (staysSafe_setStage i _ d2)

theorem staysSafe_flushStage (cause : Nat) (playing : Bool) (stage : Nat) (d : Dev) : StaysSafe d (flushStage cause playing stage d) := by
  unfold flushStage
  extract_lets d1 s out
  exact (staysSafe_settlePort stage d).trans ((staysSafe_setStage stage _ d1).trans (staysSafe_discardAll _ _ _))

/-! Entering the safe condition (R172, R173). -/

theorem staysSafe_safeDc (i : Nat) (d : Dev) : StaysSafe d (safeDc i d) := by
  unfold safeDc
  extract_lets p
  have h1 : StaysSafe d (d.setPort i { p with dc := p.cfg.safeDc, target := p.cfg.safeDc, ramp := none }) := staysSafe_setPort id
  exact .ite (h1.trans (reports_leaveRamp p _).staysSafe) (.refl d)

/-- A port with one more entering cause, in the safe condition from now on. -/
def Port.enters (cause : SafeCause) (p : Port) : Port :=
  { p with safe := true, held := false, entered := if p.safe && !p.causes.isEmpty then p.entered else cause,
           causes := if p.causes.contains cause then p.causes else p.causes ++ [cause] }

theorem Port.unlocked_enters_unlock (p : Port) : (p.enters .unlock).Unlocked := by
  refine ⟨?_, rfl, rfl⟩
  change SafeCause.unlock ∈ if p.causes.contains .unlock then p.causes else p.causes ++ [.unlock]
  split
  · rename_i h
    simpa using h
  · simp

theorem Port.Unlocked.enters {p : Port} (h : p.Unlocked) (cause : SafeCause) : (p.enters cause).Unlocked := by
  refine ⟨?_, rfl, rfl⟩
  change SafeCause.unlock ∈ if p.causes.contains cause then p.causes else p.causes ++ [cause]
  split
  · exact h.1
  · exact List.mem_append_left _ h.1

/-- A port enters the safe condition, and its stage is flushed. -/
theorem enterSafe_enters (cause : SafeCause) (i : Nat) (d : Dev) :
    StaysSafe ((settlePort i d).setPort i (((settlePort i d).port i).enters cause)) (enterSafe cause i d) := by
  unfold enterSafe
  extract_lets d1 p d2 d3
  have h3 : StaysSafe d2 d3 := staysSafe_flushStage _ _ _ d2
  exact .ite h3 (h3.trans (staysSafe_safeDc i d3))

theorem staysSafe_enterSafe (cause : SafeCause) (i : Nat) (d : Dev) : StaysSafe d (enterSafe cause i d) :=
  (staysSafe_settlePort i d).trans ((staysSafe_setPort fun h => h.enters cause).trans (enterSafe_enters cause i d))

theorem enterSafe_unlocked {i : Nat} {d : Dev} (h : d.ports.Rises) : ((enterSafe .unlock i d).port i).Unlocked := by
  have hrises := (staysSafe_settlePort i d).rises h
  refine (enterSafe_enters .unlock i d).ports (hrises.set i _) i ?_
  rw [Dev.port_setPort_same hrises]
  exact Port.unlocked_enters_unlock _

theorem forAll_enterSafe_unlocked {is : List Nat} {i : Nat} (hi : i ∈ is) {d : Dev} (h : d.ports.Rises) :
    ((d.forAll is (enterSafe .unlock)).port i).Unlocked := by
  induction is generalizing d with
  | nil => simp at hi
  | cons j is ih =>
    have hj := staysSafe_enterSafe .unlock j d
    change (((enterSafe .unlock j d).forAll is (enterSafe .unlock)).port i).Unlocked
    rcases List.mem_cons.mp hi with rfl | hi
    · exact (staysSafe_forAll _ (staysSafe_enterSafe .unlock) is _).ports (hj.rises h) i (enterSafe_unlocked h)
    · exact ih hi (hj.rises h)

/-! The marker pins (R424, R425, R430, R431). -/

theorem staysSafe_drivePinsTo (now : Int) (d : Dev) : StaysSafe d (drivePinsTo now d) := by
  unfold drivePinsTo
  split
  · exact .refl d
  · exact staysSafe_marker id

theorem staysSafe_finishMark (d : Dev) : StaysSafe d (finishMark d) := by
  unfold finishMark
  split
  · exact .refl d
  · rename_i p _
    have h1 : StaysSafe d { d with marker := { d.marker with play := none, items := addW 64 d.marker.items 1 } } := staysSafe_marker id
    exact .ite h1 (h1.trans (staysSafe_event _ _ _ _))

theorem staysSafe_settleMark (d : Dev) : StaysSafe d (settleMark d) := by
  unfold settleMark
  split
  · exact .refl d
  · exact .ite ((staysSafe_drivePinsTo _ d).trans (staysSafe_finishMark _)) (staysSafe_drivePinsTo _ d)

/-- The marker pins with one more entering cause. -/
def Marker.enters (cause : SafeCause) (m : Marker) : Marker :=
  takePins m.safeSt { m with
    safe := true, play := none, entered := if m.safe && !m.causes.isEmpty then m.entered else cause,
    causes := if m.causes.contains cause then m.causes else m.causes ++ [cause] }

theorem Marker.unlocked_enters_unlock (m : Marker) : (m.enters .unlock).Unlocked := by
  refine ⟨?_, rfl⟩
  change SafeCause.unlock ∈ if m.causes.contains .unlock then m.causes else m.causes ++ [.unlock]
  split
  · rename_i h
    simpa using h
  · simp

theorem Marker.Unlocked.enters {m : Marker} (h : m.Unlocked) (cause : SafeCause) : (m.enters cause).Unlocked := by
  refine ⟨?_, rfl⟩
  change SafeCause.unlock ∈ if m.causes.contains cause then m.causes else m.causes ++ [cause]
  split
  · exact h.1
  · exact List.mem_append_left _ h.1

/-- The marker pins enter the safe condition, from some state of what they played. -/
theorem enterSafeMarker_enters (cause : SafeCause) (d : Dev) :
    ∃ e, StaysSafe d e ∧ StaysSafe { e with marker := e.marker.enters cause } (enterSafeMarker cause d) := by
  unfold enterSafeMarker
  extract_lets d1 d2 m
  have h1 : StaysSafe d d1 := staysSafe_settleMark d
  have h2 : StaysSafe d1 d2 := by
    change StaysSafe d1 (match d1.marker.play with | none => d1 | some p => discardItem cause.code p.item d1)
    split
    · exact .refl d1
    · exact staysSafe_discardItem _ _ d1
  exact ⟨d2, h1.trans h2, staysSafe_flushStage _ _ _ _⟩

theorem staysSafe_enterSafeMarker (cause : SafeCause) (d : Dev) : StaysSafe d (enterSafeMarker cause d) := by
  obtain ⟨e, hbefore, hafter⟩ := enterSafeMarker_enters cause d
  exact hbefore.trans ((staysSafe_marker fun h => h.enters cause).trans hafter)

theorem enterSafeMarker_unlocked (d : Dev) : (enterSafeMarker .unlock d).marker.Unlocked := by
  obtain ⟨e, -, hafter⟩ := enterSafeMarker_enters .unlock d
  exact hafter.marker e.marker.unlocked_enters_unlock

theorem staysSafe_allSafe (f : Fuse) (cause : SafeCause) (d : Dev) : StaysSafe d (allSafe f cause d) :=
  (staysSafe_forAll _ (staysSafe_enterSafe cause) _ d).trans (staysSafe_enterSafeMarker cause _)

/-- Every output of the part and the marker pins are in the safe condition for a lost lock. -/
structure AllUnlocked (f : Fuse) (d : Dev) : Prop where
  rises : d.ports.Rises
  ports : ∀ i ∈ outputs f, (d.port i).Unlocked
  marker : d.marker.Unlocked

theorem StaysSafe.allUnlocked {f : Fuse} {d e : Dev} (h : StaysSafe d e) (hd : AllUnlocked f d) : AllUnlocked f e :=
  ⟨h.rises hd.rises, fun i hi => h.ports hd.rises i (hd.ports i hi), h.marker hd.marker⟩

theorem allUnlocked_allSafe {f : Fuse} {d : Dev} (h : d.ports.Rises) : AllUnlocked f (allSafe f .unlock d) where
  rises := (staysSafe_allSafe f .unlock d).rises h
  ports i hi := (staysSafe_enterSafeMarker .unlock _).ports ((staysSafe_forAll _ (staysSafe_enterSafe .unlock) _ d).rises h) i
    (forAll_enterSafe_unlocked hi h)
  marker := enterSafeMarker_unlocked _

/-! A hold (R172, R436). -/

theorem Port.Unlocked.without {p : Port} (h : p.Unlocked) {cause : SafeCause} (hc : cause ≠ .unlock) : (p.without cause).Unlocked := by
  refine ⟨List.mem_filter.mpr ⟨h.1, ?_⟩, h.2⟩
  simpa using hc.symm

theorem staysSafe_endHold (d : Dev) : StaysSafe d (endHold d) where
  hif := rfl
  time := rfl
  idle := id
  rises h := h.map (Port.without .hold)
  ports _ i hi := by
    change (Store.get ({} : Port) (d.ports.map fun kv => (kv.1, kv.2.without .hold)) i).Unlocked
    rw [Store.get_map (by decide)]
    exact Port.Unlocked.without hi (by decide)
  marker h := ⟨List.mem_filter.mpr ⟨h.1, by decide⟩, h.2⟩

/-- A port whose entering causes have all ended leaves the safe condition. -/
def Port.leaves (p : Port) : Port := if p.causes.isEmpty then { p with safe := false } else p

theorem Port.Unlocked.leaves {p : Port} (h : p.Unlocked) : p.leaves.Unlocked := by
  have hne : p.causes.isEmpty = false := List.isEmpty_eq_false_iff.mpr (List.ne_nil_of_mem h.1)
  rw [Port.leaves, hne]
  exact h

theorem leaveSafe_ports (d : Dev) : (leaveSafe d).ports = d.ports.map fun (kv : Nat × Port) => (kv.1, kv.2.leaves) := by
  refine List.map_congr_left fun kv _ => ?_
  rw [Port.leaves]
  split <;> rfl

theorem staysSafe_leaveSafe (d : Dev) : StaysSafe d (leaveSafe d) where
  hif := rfl
  time := rfl
  idle := id
  rises h := by
    rw [leaveSafe_ports]
    exact h.map Port.leaves
  ports _ i hi := by
    unfold Dev.port
    rw [leaveSafe_ports, Store.get_map (by decide)]
    exact Port.Unlocked.leaves hi
  marker h := by
    have hne : d.marker.causes.isEmpty = false := List.isEmpty_eq_false_iff.mpr (List.ne_nil_of_mem h.1)
    simp only [leaveSafe, hne, Bool.and_false]
    exact h

theorem staysSafe_causeEnded (d : Dev) : StaysSafe d (causeEnded d) := .ite (.refl d) (staysSafe_leaveSafe d)

theorem staysSafe_takeHold (x : Ctx) (d : Dev) : StaysSafe d (takeHold x d) :=
  (staysSafe_allSafe x.fuse .hold _).after rfl rfl rfl rfl rfl

theorem staysSafe_holdAtMeridian (x : Ctx) (d : Dev) : StaysSafe d (holdAtMeridian x d) := by
  unfold holdAtMeridian
  dsimp only
  split
  · exact .refl d
  · exact .ite (staysSafe_endHold d) (staysSafe_takeHold x d)
  · exact .ite (.refl d) (staysSafe_endHold d)
  · exact .ite (staysSafe_endHold d) (.refl d)

theorem staysSafe_holdNow (x : Ctx) (d : Dev) : StaysSafe d (holdNow x d) :=
  .ite (.refl d) ((staysSafe_holdAtMeridian x d).trans (staysSafe_causeEnded _))

end Sys2Proof.Machine
end

section
/-! The reference, the oven and the PLL (R30, R117 to R123): each row in the case that meets it, and the loss of lock, which every output
outlasts in the safe condition. -/

namespace Sys2Proof.Machine

/-! The halt of a program (R30, R209). -/

theorem staysSafe_applyFrames (p : Tok → Bool) (d : Dev) : StaysSafe d (applyFrames p d) := by
  obtain ⟨fs, ts, h⟩ := applyFrames_frame p d
  rw [h]
  exact .of_eq rfl rfl rfl rfl rfl

theorem staysSafe_settleFrames (k : Nat) (d : Dev) : StaysSafe d (settleFrames k d) := by
  obtain ⟨fs, ts, done, h⟩ := settleFrames_frame k d
  rw [h]
  exact .of_eq rfl rfl rfl rfl rfl

theorem staysSafe_flushFabric (cause : Nat) (d : Dev) : StaysSafe d (flushFabric cause d) := by
  unfold flushFabric
  extract_lets d1 ts
  exact (staysSafe_applyFrames _ d).trans ((staysSafe_discardAll _ _ _).after rfl rfl rfl rfl rfl)

theorem staysSafe_shotEvents (s : Shot) (d : Dev) : StaysSafe d (shotEvents s d) := by
  unfold shotEvents
  extract_lets d1 d2 d3 d4 d5 d6 firsts d7
  have h1 : StaysSafe d d1 := staysSafe_foldl _ (fun d kv => staysSafe_eventShot _ _ _ _ d) _ d
  have h2 : StaysSafe d1 d2 := staysSafe_foldl _ (fun d kv => staysSafe_eventShot _ _ _ _ d) _ d1
  have h3 : StaysSafe d2 d3 := staysSafe_foldl _ (fun d kv => staysSafe_eventShot _ _ _ _ d) _ d2
  have h4 : StaysSafe d3 d4 := staysSafe_foldl _ (fun d kv => staysSafe_eventShot _ _ _ _ d) _ d3
  have h5 : StaysSafe d4 d5 := staysSafe_foldl _ (fun d kv => staysSafe_eventShot _ _ _ _ d) _ d4
  have h6 : StaysSafe d5 d6 := staysSafe_foldl _ (fun d kv => staysSafe_eventShot _ _ _ _ d) _ d5
  have h7 : StaysSafe d6 d7 := staysSafe_foldl _ (fun d q => staysSafe_raise _ d) _ d6
  have h := (((((h1.trans h2).trans h3).trans h4).trans h5).trans h6).trans h7
  exact .ite h (h.trans (staysSafe_eventShot _ _ _ _ d7))

theorem staysSafe_decideRecord (s : Shot) (d : Dev) : StaysSafe d (decideRecord s d) := by
  unfold decideRecord
  extract_lets st run core d1 d2
  have h2 : StaysSafe d d2 := (staysSafe_shotEvents s d1).after rfl rfl rfl rfl rfl
  exact .ite h2 (h2.trans (staysSafe_raise _ d2))

theorem staysSafe_endProgram (reason : Nat) (last : Option Nat) (d : Dev) : StaysSafe d (endProgram reason last d) := by
  unfold endProgram
  extract_lets run seqs d1 core d2 d3
  have h1 : StaysSafe d d1 := staysSafe_settleFrames _ d
  have h2 : StaysSafe d1 d2 := by
    refine ⟨rfl, rfl, fun _ => rfl, id, fun _ _ h => h, fun h => ?_⟩
    change (if d1.marker.safe then d1.marker else takePins d1.marker.idle d1.marker).Unlocked
    rw [if_pos h.2]
    exact h
  have h3 : StaysSafe d2 d3 := by
    cases last with
    | none => exact staysSafe_event _ _ _ d2
    | some k => exact staysSafe_eventShot _ _ _ _ d2
  exact ((h1.trans h2).trans h3).trans (staysSafe_foldl _ (fun d n => staysSafe_doneSeq (some n) _ d) seqs d3)

theorem staysSafe_haltProgram (cause reason : Nat) (x : Ctx) (d : Dev) : StaysSafe d (haltProgram cause reason x d) := by
  unfold haltProgram
  refine .ite (.refl d) ?_
  extract_lets d1 ks halted d2
  have h1 : StaysSafe d d1 := (staysSafe_flushFabric cause d).trans (staysSafe_forAll _ (staysSafe_flushStage cause false) _ _)
  have h2 : StaysSafe d1 d2 := staysSafe_foldl _ (fun d s => by
    split
    · exact .refl d
    · exact staysSafe_decideRecord _ d) ks d1
  exact (h1.trans h2).trans (staysSafe_endProgram _ _ d2)

/-! What staged commands change when they are applied at the halt (R29, R165). -/

theorem staysSafe_setPortCfg (i : Nat) (g : PortCfg) (d : Dev) : StaysSafe d (setPortCfg i g d) := staysSafe_setPort id

theorem staysSafe_endDisabled (i : Nat) (d : Dev) : StaysSafe d (endCause .disabled i d) :=
  staysSafe_setPort fun h => h.without (by decide)

theorem staysSafe_followShot (k i : Nat) (d : Dev) : StaysSafe d (followShot k i d) :=
  .ite (staysSafe_endDisabled i d) (.ite (.refl d) (staysSafe_enterSafe .disabled i d))

theorem staysSafe_followEnable (i : Nat) (d : Dev) : StaysSafe d (followEnable i d) :=
  .ite (.refl d) ((staysSafe_followShot _ i d).trans (staysSafe_causeEnded _))

theorem staysSafe_settleOutput (i : Nat) (d : Dev) : StaysSafe d (settleOutput i d) :=
  .ite ((staysSafe_settlePort i d).trans (staysSafe_followShot _ i _)) (staysSafe_settlePort i d)

theorem staysSafe_settleEnable (f : Fuse) (d : Dev) : StaysSafe d (settleEnable f d) := staysSafe_forAll _ staysSafe_settleOutput _ d

theorem staysSafe_applyDrive (c : Cmd) (d : Dev) : StaysSafe d (applyDrive c d) := by
  unfold applyDrive
  extract_lets i old d1
  have h1 : StaysSafe d d1 := staysSafe_setPortCfg _ _ d
  have h2 : StaysSafe d (if old.fsCode = c.arg 2 2 then d1 else markDue true i d1) := .ite h1 (h1.trans (.of_eq rfl rfl rfl rfl rfl))
  exact h2.trans (staysSafe_followEnable i _)

theorem staysSafe_applyFlux (c : Cmd) (d : Dev) : StaysSafe d (applyFlux c d) :=
  (staysSafe_setPortCfg _ _ d).trans (staysSafe_followEnable _ _)

theorem staysSafe_startRamp (c : Cmd) (d : Dev) : StaysSafe d (startRamp c d) := by
  unfold startRamp
  extract_lets i p lvl dc ns d1
  have h1 : Reports d d1 := reports_leaveRamp p d
  have hport : d1.port i = p := by rw [h1.1]; rfl
  exact h1.staysSafe.trans (.ite (staysSafe_setPort fun h => (hport ▸ h : p.Unlocked)) (staysSafe_setPort fun h => (hport ▸ h : p.Unlocked)))

theorem staysSafe_applyFrameCmd (c : Cmd) (d : Dev) : StaysSafe d (applyFrameCmd c d) :=
  .ite (.of_eq rfl rfl rfl rfl rfl) (.of_eq rfl rfl rfl rfl rfl)

theorem staysSafe_startCopy (at8 : Nat) (d : Dev) : StaysSafe d (startCopy at8 d) := by
  unfold startCopy
  split
  · exact .refl d
  · exact .ite (.refl d) (.of_eq rfl rfl rfl rfl rfl)

theorem staysSafe_queueEnv (c : Cmd) (d : Dev) : StaysSafe d (queueEnv c d) := (staysSafe_startCopy _ _).after rfl rfl rfl rfl rfl

theorem staysSafe_applyAcq (c : Cmd) (d : Dev) : StaysSafe d (applyAcq c d) := by
  unfold applyAcq
  extract_lets i old d1
  have h1 : StaysSafe d d1 := staysSafe_setPortCfg _ _ d
  refine .ite h1 (h1.trans (staysSafe_forAll _ (fun n d => ?_) _ d1))
  exact .of_eq rfl rfl rfl rfl rfl

theorem staysSafe_applyChConfig (c : Cmd) (d : Dev) : StaysSafe d (applyChConfig c d) :=
  .ite (.of_eq rfl rfl rfl rfl rfl) (.of_eq rfl rfl rfl rfl rfl)

theorem staysSafe_detachNow (p : Nat) (d : Dev) : StaysSafe d (detachNow p d) :=
  (staysSafe_foldl _ (fun d n => staysSafe_doneSeq (some n) 0x0600 d) _ _).after rfl rfl rfl rfl rfl

theorem staysSafe_applyAttach (c : Cmd) (d : Dev) : StaysSafe d (applyAttach c d) := by
  unfold applyAttach
  dsimp only
  split
  · exact .refl d
  · exact .ite (.of_eq rfl rfl rfl rfl rfl) (.refl d)

theorem staysSafe_applyDetach (c : Cmd) (d : Dev) : StaysSafe d (applyDetach c d) :=
  .ite (.refl d) (.ite ((staysSafe_detachNow _ _).after rfl rfl rfl rfl rfl) (.of_eq rfl rfl rfl rfl rfl))

theorem staysSafe_applyFromRp (c : Cmd) (d : Dev) : StaysSafe d (applyFromRp c d) :=
  .ite (.of_eq rfl rfl rfl rfl rfl) (.of_eq rfl rfl rfl rfl rfl)

theorem staysSafe_applyCalWrite (c : Cmd) (d : Dev) : StaysSafe d (applyCalWrite c d) := by
  unfold applyCalWrite
  refine staysSafe_forAll _ (fun n d => ?_) _ d
  exact .of_eq rfl rfl rfl rfl rfl

theorem Marker.Unlocked.takePins {m : Marker} (codes : Store Nat) (h : m.Unlocked) : (takePins codes m).Unlocked := by
  obtain ⟨hcause, hsafe⟩ := h
  exact ⟨hcause, hsafe⟩

theorem staysSafe_applyPins (c : Cmd) (d : Dev) : StaysSafe d (applyPins c d) := by
  unfold applyPins
  extract_lets nib mk m
  refine staysSafe_marker fun h => Marker.Unlocked.takePins _ ?_
  obtain ⟨hcause, hsafe⟩ := h
  exact ⟨hcause, hsafe⟩

theorem staysSafe_stagedEffect (x : Ctx) (c : Cmd) (d : Dev) : StaysSafe d (stagedEffect x c d) := by
  unfold stagedEffect
  split
  · exact .of_eq rfl rfl rfl rfl rfl
  · exact .of_eq rfl rfl rfl rfl rfl
  · exact staysSafe_applyDrive c d
  · exact staysSafe_applyFrameCmd c d
  · exact .ite (staysSafe_queueEnv c d) (.of_eq rfl rfl rfl rfl rfl)
  · exact staysSafe_applyFlux c d
  · exact staysSafe_startRamp c d
  · exact staysSafe_applyDrive c d
  · exact staysSafe_applyFrameCmd c d
  · exact staysSafe_applyAcq c d
  · exact .of_eq rfl rfl rfl rfl rfl
  · exact staysSafe_applyChConfig c d
  · exact .of_eq rfl rfl rfl rfl rfl
  · exact .of_eq rfl rfl rfl rfl rfl
  · exact .of_eq rfl rfl rfl rfl rfl
  · exact .of_eq rfl rfl rfl rfl rfl
  · exact staysSafe_applyAttach c d
  · exact staysSafe_applyDetach c d
  · exact staysSafe_applyFromRp c d
  · exact staysSafe_applyCalWrite c d
  · exact staysSafe_applyPins c d
  · exact .refl d

theorem staysSafe_applyNow (x : Ctx) (c : Cmd) (d : Dev) : StaysSafe d (applyNow x c d) :=
  have h := staysSafe_stagedEffect x c d
  .ite h (h.trans (reports_doneCmd c _ _).staysSafe)

theorem StaysSafe.journal {seq : Nat} {f : Dev → Dev} {d : Dev} (h : StaysSafe d (f d)) : StaysSafe d (journal seq f d) := by
  obtain ⟨us, hus⟩ := journal_frame seq f d
  rw [hus]
  exact h.trans (.of_eq rfl rfl rfl rfl rfl)

theorem staysSafe_applyAtOnce (x : Ctx) (d : Dev) : StaysSafe d (applyAtOnce x d) := by
  unfold applyAtOnce
  refine staysSafe_foldl _ (fun (d : Dev) (c : Cmd) => ?_) _ d
  have h1 : StaysSafe d (putCmd { c with staged := false } d) := .of_eq rfl rfl rfl rfl rfl
  exact h1.trans (staysSafe_applyNow x _ _).journal

theorem staysSafe_haltAndApply (cause reason : Nat) (x : Ctx) (d : Dev) : StaysSafe d (haltAndApply cause reason x d) :=
  .ite ((((staysSafe_haltProgram cause reason x d).trans (staysSafe_applyAtOnce x _)).trans (staysSafe_settleEnable x.fuse _)).trans
    (staysSafe_holdNow x _)) (.refl d)

/-- No program runs after the halt. -/
theorem haltAndApply_over (cause reason : Nat) (x : Ctx) (d : Dev) : (haltAndApply cause reason x d).core.run.active = false := by
  unfold haltAndApply
  split
  · have h := ((staysSafe_applyAtOnce x (haltProgram cause reason x d)).trans (staysSafe_settleEnable x.fuse _)).trans (staysSafe_holdNow x _)
    exact h.idle (haltProgram_over cause reason x d)
  · rename_i hidle
    simpa [running] using hidle

/-! Calibration and measurements that a lost lock ends (R380, R386, R404). -/

theorem staysSafe_loopOut (ports : List Nat) (d : Dev) : StaysSafe d (loopOut ports d) := by
  unfold loopOut
  refine staysSafe_forAll _ (fun n d => ?_) _ d
  exact staysSafe_setPort id

theorem staysSafe_abandonSlice (d : Dev) : StaysSafe d (abandonSlice d) :=
  (staysSafe_loopOut _ d).trans (.of_eq rfl rfl rfl rfl rfl)

theorem staysSafe_endCalRun (cause : Nat) (d : Dev) : StaysSafe d (endCalRun cause d) := by
  unfold endCalRun
  exact .ite (.refl d) ((staysSafe_loopOut _ d).trans ((staysSafe_eventCause _ _ _ _ _).after rfl rfl rfl rfl rfl))

theorem staysSafe_endMeas (cause : Nat) (d : Dev) : StaysSafe d (endMeas cause d) := by
  unfold endMeas
  split
  · exact .refl d
  · exact (staysSafe_eventCause _ _ _ _ _).after rfl rfl rfl rfl rfl

end Sys2Proof.Machine
end

section
/-! The rows of the reference, the oven and the PLL (R30, R117 to R123), each in the case that meets it. -/

namespace Sys2Proof.Machine

/-- The next state of a row that changes some fields and, beside them, only reports, one of its reports by source `src`. -/
theorem next_on_reports {s : State} {f : Ctx → Dev → Dev} {base d : Dev} {src : Nat} (hrow : f s.ctx s.dev = d) (h : Reports base d)
    (hpend : d.evt.pend.getLsbD src = true) :
    ∃ t, (Host.Outcome.next (s.on f) : Host.Outcome State Fault Refusal) = .next t ∧ OnlyReports base t.dev ∧
      t.dev.evt.pend.getLsbD src = true := ⟨_, next_on_writes hrow, h.1.committed, hpend⟩

/-- Reports beside an update of the lattice. -/
theorem Reports.lattice {d e : Dev} (h : Reports d e) (g : Lattice → Lattice) :
    Reports { d with lattice := g d.lattice } { e with lattice := g e.lattice } := by
  obtain ⟨honly, hwr⟩ := h
  have hboth := congrArg (fun d : Dev => { d with lattice := g d.lattice }) honly
  exact ⟨hboth, hwr⟩

section
variable {x : Ctx} {d : Dev}

/-! Reference and oven (R117 to R121). -/

/-- The lattice once the selected REF_P/N is lost, before what follows it. -/
def withoutPN (d : Dev) : Dev := event 56 1 0 { d with lattice := { d.lattice with presentPN := false } }

theorem referenceLost_holdover (hpresent : d.lattice.presentPN = true) (hselected : d.lattice.refPN = true)
    (hstay : x.fuse.oven = false ∨ d.lattice.fallback = false) : referenceLost true x d =
      event 59 1 0 { withoutPN d with lattice := { (withoutPN d).lattice with holdover := true, pullIn := false } } := by
  have hnone : (x.fuse.oven && d.lattice.fallback) = false := Bool.and_eq_false_iff.mpr hstay
  simp [referenceLost, withoutPN, flag, hpresent, hselected, hnone]

theorem referenceLost_fallback (hpresent : d.lattice.presentPN = true) (hselected : d.lattice.refPN = true)
    (hoven : x.fuse.oven = true) (hfallback : d.lattice.fallback = true) : referenceLost true x d =
      event 58 0 0 { withoutPN d with lattice := { (withoutPN d).lattice with refPN := false, pullIn := true } } := by
  simp [referenceLost, withoutPN, flag, hpresent, hselected, hoven, hfallback]

theorem reports_withoutPN (d : Dev) (g : Lattice → Lattice) :
    Reports { d with lattice := g { d.lattice with presentPN := false } } { withoutPN d with lattice := g (withoutPN d).lattice } :=
  (reports_event 56 1 0 { d with lattice := { d.lattice with presentPN := false } }).lattice g

theorem referenceRestored_PN (h : d.lattice.presentPN = false) : referenceRestored true x d =
    event 57 1 0 { d with lattice := { d.lattice with presentPN := true, restoredAt := d.time.raw } } := by
  simp [referenceRestored, flag, h]

theorem referenceRestored_osc (hoven : x.fuse.oven = true) (h : d.lattice.presentOsc = false) : referenceRestored false x d =
    event 57 0 0 { d with lattice := { d.lattice with
      presentOsc := true, holdover := d.lattice.holdover && d.lattice.refPN,
      pullIn := d.lattice.pullIn || (!d.lattice.refPN && !d.lattice.pullSeqs.isEmpty) } } := by
  simp [referenceRestored, flag, hoven, h]

theorem refPullIn_due (hselected : d.lattice.refPN = true) (hpresent : d.lattice.presentPN = true) (hholdover : d.lattice.holdover = true) :
    refPullIn x d = { advance (d.lattice.restoredAt + 100000000 - d.time.raw) d with
      lattice := { d.lattice with holdover := false, pullIn := true } } := by
  simp [refPullIn, advance, hselected, hpresent, hholdover]

theorem pullInComplete_one {n : Nat} {c : Cmd} (hpulling : d.lattice.pullIn = true) (hwaits : d.lattice.pullSeqs = [n])
    (hcmd : cmdOf d n = some c) (hlive : c.dead = false) :
    pullInComplete x d = doneCmd c 0x0200 { d with lattice := { d.lattice with pullIn := false, pullSeqs := [] } } := by
  rw [pullInComplete, if_pos hpulling, hwaits]
  exact endSeq_live ((cmdOf_congr rfl n).trans hcmd) hlive

theorem orfWarmSet_cold (hoven : x.fuse.oven = true) (hcold : d.hif.orfWarm = false) : orfWarmSet x d =
    { d with hif := { d.hif with orfWarm := true }, lattice := { d.lattice with warmAt := d.time.lat, ovenFault := false } } := by
  simp [orfWarmSet, hoven, hcold]

/-- Measurements that are being calibrated see the oven warming. -/
def ovenCools (d : Dev) : Dev :=
  { d with hif := { d.hif with orfWarm := false }
           tim := { d.tim with meas := d.tim.meas.map fun m => { m with warming := m.warming || m.calibrated } } }

theorem ovenWarmLost_warm (hoven : x.fuse.oven = true) (hwarm : d.hif.orfWarm = true) :
    ovenWarmLost x d = event 60 0xFFFF 0 (ovenCools d) := by
  simp [ovenWarmLost, ovenCools, hoven, hwarm]

theorem ovenFault_cold (hoven : x.fuse.oven = true) (hcold : d.hif.orfWarm = false) :
    ovenFault x d = event 61 0xFFFF 0 { d with lattice := { d.lattice with ovenFault := true } } := by
  simp [ovenFault, hoven, hcold]

/-! PLL (R30, R123). -/

theorem pllLock_first (hunlocked : d.hif.lock = false) (hup : d.images.inReset = false)
    (hsource : refPresent d.lattice = true ∨ d.lattice.holdover = true) (hfirst : d.time.counting = false) : pllLock x d =
      { d with hif := { d.hif with lock := true }, time := { d.time with counting := true },
               lattice := { d.lattice with everLocked := true } } := by
  have hgo : (!refPresent d.lattice && !d.lattice.holdover) = false := by
    rcases hsource with h | h <;> simp [h]
  simp [pllLock, hunlocked, hup, hgo, hfirst]

/-- The registers and the time at a lost lock. -/
def loseLock (d : Dev) : Dev := { d with hif := { d.hif with lock := false }, time := { d.time with suspect := true } }

/-- What follows a lost lock once the outputs are in the safe condition. -/
def afterUnlock (x : Ctx) (d : Dev) : Dev :=
  event 62 0xFFFF 0 (endMeas Cause.unlock (endCalRun Cause.unlock (haltAndApply Cause.unlock 5 x d)))

theorem pllUnlock_locked (h : d.hif.lock = true) :
    pllUnlock x d = afterUnlock x (allSafe x.fuse .unlock (abandonSlice (loseLock d))) := by
  have hgo : ¬ (!d.hif.lock) = true := by simp [h]
  rw [pllUnlock, if_neg hgo, afterUnlock, loseLock]

/-- The halt, the ends of a calibration run and of a measurement, and the report leave the outputs safe (R30). -/
theorem staysSafe_afterUnlock (x : Ctx) (d : Dev) : StaysSafe d (afterUnlock x d) :=
  (((staysSafe_haltAndApply _ _ x d).trans (staysSafe_endCalRun _ _)).trans (staysSafe_endMeas _ _)).trans (staysSafe_event _ _ _ _)

theorem afterUnlock_over (x : Ctx) (d : Dev) : (afterUnlock x d).core.run.active = false :=
  (((staysSafe_endCalRun _ _).trans (staysSafe_endMeas _ _)).trans (staysSafe_event _ _ _ _)).idle (haltAndApply_over _ _ x d)

theorem afterUnlock_pend (x : Ctx) (d : Dev) : (afterUnlock x d).evt.pend.getLsbD 62 = true := event_pend_self _ _ _ (by decide)

/-- The outputs enter the safe condition, and the registers and the time are those of the lost lock. -/
theorem staysSafe_outputsUnlocked (f : Fuse) (d : Dev) : StaysSafe (loseLock d) (allSafe f .unlock (abandonSlice (loseLock d))) :=
  (staysSafe_abandonSlice _).trans (staysSafe_allSafe f .unlock _)

theorem allUnlocked_loseLock {f : Fuse} {d : Dev} (h : d.ports.Rises) : AllUnlocked f (allSafe f .unlock (abandonSlice (loseLock d))) :=
  allUnlocked_allSafe ((staysSafe_abandonSlice (loseLock d)).rises h)

/-- A lost lock puts the outputs into the safe condition, where all that follows leaves them, and ends the program (R30, R123). -/
theorem pllUnlock_safe (hlocked : d.hif.lock = true) (hrises : d.ports.Rises) : StaysSafe (loseLock d) (pllUnlock x d) ∧
    AllUnlocked x.fuse (pllUnlock x d) ∧ (pllUnlock x d).core.run.active = false ∧ (pllUnlock x d).evt.pend.getLsbD 62 = true := by
  rw [pllUnlock_locked hlocked]
  have hafter := staysSafe_afterUnlock x (allSafe x.fuse .unlock (abandonSlice (loseLock d)))
  exact ⟨(staysSafe_outputsUnlocked x.fuse d).trans hafter, hafter.allUnlocked (allUnlocked_loseLock hrises), afterUnlock_over x _,
    afterUnlock_pend x _⟩

/-- An output in the safe condition that is not off is reported as safe. -/
theorem Port.Unlocked.portCond {p : Port} (h : p.Unlocked) : portCond p = if p.off then 0 else 2 := by
  obtain ⟨-, hsafe, hheld⟩ := h
  simp [Machine.portCond, hsafe, hheld]

end

/-- Settles O28: every row but the loss of lock is its one case and a report; the loss of lock puts each output into the safe condition for
that cause, and all that follows it `StaysSafe`. -/
theorem referenceAndPllRows : Obligations.ReferenceAndPllRows := by
  intro s l
  refine ⟨fun hpresent hselected hstay => ?_, fun hpresent hselected hoven hfallback => ?_, fun habsent => ?_, fun hoven habsent => ?_,
    fun hselected hpresent hholdover => ?_, fun n c hpulling hwaits hcmd hlive => ?_, fun hunlocked hup hsource hfirst hwr => ?_,
    fun hlocked hwf => ?_, fun hoven hcold hwr => ?_, fun hoven hwarm => ?_, fun hoven hcold => ?_⟩
  · have hrow := referenceLost_holdover (x := s.ctx) hpresent hselected hstay
    have hlost := reports_withoutPN s.dev fun l => { l with holdover := true, pullIn := false }
    exact next_on_reports hrow (hlost.trans (reports_event _ _ _ _)) (event_pend_self _ _ _ (by decide))
  · have hrow := referenceLost_fallback (x := s.ctx) hpresent hselected hoven hfallback
    have hlost := reports_withoutPN s.dev fun l => { l with refPN := false, pullIn := true }
    exact next_on_reports hrow (hlost.trans (reports_event _ _ _ _)) (event_pend_self _ _ _ (by decide))
  · have hrow := referenceRestored_PN (x := s.ctx) habsent
    exact next_on_reports hrow (reports_event _ _ _ _) (event_pend_self _ _ _ (by decide))
  · have hrow := referenceRestored_osc (x := s.ctx) hoven habsent
    exact next_on_reports hrow (reports_event _ _ _ _) (event_pend_self _ _ _ (by decide))
  · exact next_on_congr (refPullIn_due (x := s.ctx) hselected hpresent hholdover)
  · exact next_on_congr (pullInComplete_one (x := s.ctx) hpulling hwaits hcmd hlive)
  · exact next_on_eq (pllLock_first (x := s.ctx) hunlocked hup hsource hfirst) hwr
  · obtain ⟨hstays, ⟨-, hports, hmarker⟩, hover, hpend⟩ := pllUnlock_safe (x := s.ctx) hlocked (Store.rises_of_wf hwf)
    refine ⟨_, next_on_writes rfl, ?_, ?_, hover, hpend, fun p hp => ⟨(hports p hp).1, (hports p hp).portCond⟩, hmarker⟩
    · exact congrArg Hif.lock hstays.hif
    · exact congrArg Time.suspect hstays.time
  · exact next_on_eq (orfWarmSet_cold (x := s.ctx) hoven hcold) hwr
  · have hrow := ovenWarmLost_warm (x := s.ctx) hoven hwarm
    have hframe := (raised_event 60 0xFFFF 0 (ovenCools s.dev)).frame
    have hcold := congrArg (fun e : Dev => e.hif.orfWarm) hframe
    have htime := congrArg Dev.time hframe
    exact ⟨_, next_on_writes hrow, hcold, event_pend_self _ _ _ (by decide), htime⟩
  · have hrow := ovenFault_cold (x := s.ctx) hoven hcold
    exact next_on_reports hrow (reports_event _ _ _ _) (event_pend_self _ _ _ (by decide))

end Sys2Proof.Machine
end

section
/-! Drive and flux ports (R156 to R188, R270): the sample counts of frames, the course of a DC ramp, and the port commands and the ends of
ramps and copies. -/

namespace Sys2Proof.Machine

/-! Frames (R156, R158). -/

/-- The raw counter, which wraps at 2^64, measures an interval shorter than that from its beginning (R408). -/
theorem raw_interval {a n : Nat} (ha : a < 2 ^ 64) (hn : n < 2 ^ 64) : ((a + n) % 2 ^ 64 + 2 ^ 64 - a) % 2 ^ 64 = n := by
  omega

theorem advance_raw {d : Dev} (hcounting : d.time.counting = true) (n : Nat) : (advance n d).time.raw = (d.time.raw + n) % 2 ^ 64 :=
  if_pos hcounting

theorem frameCount_eq {d : Dev} {f : Frame} {n : Nat} (h : (d.time.raw + 2 ^ 64 - f.r0) % 2 ^ 64 = n) :
    frameCount d f = (f.s0 + 16 * n) % 2 ^ 48 := by
  rw [frameCount, h]

theorem frameCount_setFreq_advance {d : Dev} {n : Nat} (hcounting : d.time.counting = true) (hraw : d.time.raw < 2 ^ 64) (hn : n < 2 ^ 64)
    (ftw : Nat) (f : Frame) : frameCount (advance n d) (setFreq d ftw f) = (16 * d.time.lat + 16 * n) % 2 ^ 48 := by
  have hticks : ((advance n d).time.raw + 2 ^ 64 - (setFreq d ftw f).r0) % 2 ^ 64 = n := by
    rw [advance_raw hcounting]
    exact raw_interval hraw hn
  rw [frameCount_eq hticks]
  exact Nat.mod_add_mod _ _ _

theorem frameCount_setFreq (d : Dev) (ftw : Nat) (f : Frame) : frameCount d (setFreq d ftw f) = 16 * d.time.lat % 2 ^ 48 := by
  have hticks : (d.time.raw + 2 ^ 64 - (setFreq d ftw f).r0) % 2 ^ 64 = 0 := by simp [setFreq]
  rw [frameCount_eq hticks]
  exact Nat.mod_mod _ _

/-- Settles O30: the raw counter gives the ticks since the frequency was set, at its wrap also, and each is 16 samples. -/
theorem framesCountSixteenSamplesATick : Obligations.FramesCountSixteenSamplesATick := by
  intro d ftw n f hcounting hraw hn
  exact ⟨frameCount_setFreq d ftw f, rfl, frameCount_setFreq_advance hcounting hraw hn ftw f⟩

/-! The course of a DC ramp (R176). -/

theorem dcNow_still {d : Dev} {p : Port} (h : p.ramp = none) : dcNow d p = p.dc := by rw [dcNow, h]

section
variable {d : Dev} {p : Port} {r : Ramp} {el : Nat}

theorem dcNow_arrived (hramp : p.ramp = some r) (hdone : r.ns ≤ (d.time.raw + 2 ^ 64 - r.raw) % 2 ^ 64) : dcNow d p = p.target := by
  simp only [dcNow, hramp, if_pos hdone]

theorem dcNow_ramping (hramp : p.ramp = some r) (hel : (d.time.raw + 2 ^ 64 - r.raw) % 2 ^ 64 = el) (hrun : el < r.ns) :
    dcNow d p = r.start + Int.tdiv ((p.target - r.start) * el) r.ns := by
  simp only [dcNow, hramp, hel, if_neg (Nat.not_le.mpr hrun)]

/-- A part of a rise, cut toward zero, is not negative and not above the whole. -/
theorem tdiv_part_of_nonneg {a : Int} {el ns : Nat} (ha : 0 ≤ a) (h : el < ns) : 0 ≤ Int.tdiv (a * el) ns ∧ Int.tdiv (a * el) ns ≤ a := by
  have hprod : 0 ≤ a * el := Int.mul_nonneg ha (Int.natCast_nonneg el)
  rw [Int.tdiv_eq_ediv_of_nonneg hprod]
  refine ⟨Int.ediv_nonneg hprod (Int.natCast_nonneg ns), Int.ediv_le_of_le_mul (by omega) ?_⟩
  exact Int.mul_le_mul_of_nonneg_left (by omega) ha

/-- A part of a move, up or down, stands between no move and the whole: a fall is a rise negated. -/
theorem tdiv_part_between {a : Int} {el ns : Nat} (h : el < ns) : min 0 a ≤ Int.tdiv (a * el) ns ∧ Int.tdiv (a * el) ns ≤ max 0 a := by
  obtain hrise | hfall := Int.le_total 0 a
  · have hpart := tdiv_part_of_nonneg hrise h
    omega
  · have hpart := tdiv_part_of_nonneg (Int.neg_nonneg_of_nonpos hfall) h
    rw [Int.neg_mul, Int.neg_tdiv] at hpart
    omega

theorem dcNow_between (hramp : p.ramp = some r) : min r.start p.target ≤ dcNow d p ∧ dcNow d p ≤ max r.start p.target := by
  obtain hrun | hdone := Nat.lt_or_ge ((d.time.raw + 2 ^ 64 - r.raw) % 2 ^ 64) r.ns
  · have hpart := tdiv_part_between (a := p.target - r.start) hrun
    rw [dcNow_ramping hramp rfl hrun]
    omega
  · rw [dcNow_arrived hramp hdone]
    exact ⟨Int.min_le_right _ _, Int.le_max_right _ _⟩

theorem dcNow_begins (hramp : p.ramp = some r) (hns : 0 < r.ns) (hnow : d.time.raw = r.raw) : dcNow d p = r.start := by
  have hel : (d.time.raw + 2 ^ 64 - r.raw) % 2 ^ 64 = 0 := by simp [hnow]
  rw [dcNow_ramping hramp hel hns]
  simp

end

/-- Settles O35: the level is the start and a part of the move, `tdiv_part_between` it and none, until the target stands. -/
theorem fluxRampRunsFromItsStartToItsTarget : Obligations.FluxRampRunsFromItsStartToItsTarget := by
  intro d p r hramp _ _ passed
  exact ⟨dcNow_between hramp, dcNow_begins hramp, dcNow_arrived hramp⟩

/-! Port commands (R183, R188) and the ends of ramps and copies (R165, R166, R176). -/

theorem frameAct_of_setsNothing {x : Ctx} {c : Cmd} {d : Dev} (h : c.arg 2 1 = 0) : frameAct x c d = okCmd c 0x0002 0 [] true d := if_pos h

section
variable {x : Ctx} {c : Cmd} {d : Dev}

theorem startRamp_step (hstill : (d.port (c.arg 0 1)).ramp = none) (hns : c.arg 8 4 = 0) :
    startRamp c d = d.setPort (c.arg 0 1) { d.port (c.arg 0 1) with dc := dcCode (c.arg 4 4), target := dcCode (c.arg 4 4) } := by
  simp only [startRamp, leaveRamp, hstill, if_pos hns]

theorem startRamp_ramp (hstill : (d.port (c.arg 0 1)).ramp = none) (hns : c.arg 8 4 ≠ 0) :
    startRamp c d = d.setPort (c.arg 0 1) { d.port (c.arg 0 1) with
      target := dcCode (c.arg 4 4), ramp := some ⟨(d.port (c.arg 0 1)).dc, d.time.raw, c.arg 8 4, c.seq⟩ } := by
  simp only [startRamp, leaveRamp, hstill, if_neg hns, dcNow_still hstill]

theorem stagedEffect_fluxDc (hop : c.op = 0x0307) : stagedEffect x c d = startRamp c d := by simp [stagedEffect, hop]

/-- A flux DC move goes on while its port ramps for it (R176). -/
theorem goesOn_fluxDc (hop : c.op = 0x0307) : goesOn c d = (d.port (c.arg 0 1)).ramp.any (fun r => r.seq = c.seq) := by simp [goesOn, hop]

theorem applyNow_ends (h : goesOn c (stagedEffect x c d) = false) :
    applyNow x c d = doneCmd c (groupDone c.op) (stagedEffect x c d) := by simp [applyNow, h]

theorem applyNow_goesOn (h : goesOn c (stagedEffect x c d) = true) : applyNow x c d = stagedEffect x c d := if_pos h

theorem prtFluxDc_step (hop : c.op = 0x0307) (hidle : running d = false) (hstill : (d.port (c.arg 0 1)).ramp = none)
    (hwf : Store.wf {} d.ports = true) (hns : c.arg 8 4 = 0) : prtFluxDcSpec.act x c d = doneCmd c 0x0300
      (d.setPort (c.arg 0 1) { d.port (c.arg 0 1) with dc := dcCode (c.arg 4 4), target := dcCode (c.arg 4 4) }) := by
  have heffect : stagedEffect x c d = _ := (stagedEffect_fluxDc hop).trans (startRamp_step hstill hns)
  have hends : goesOn c (stagedEffect x c d) = false := by
    rw [goesOn_fluxDc hop, heffect, Dev.port_setPort_same (Store.rises_of_wf hwf), hstill]
    rfl
  calc prtFluxDcSpec.act x c d = applyNow x c d := stageOrApply_of_idle hidle
    _ = doneCmd c (groupDone c.op) (stagedEffect x c d) := applyNow_ends hends
    _ = _ := by rw [heffect, hop]; rfl

theorem prtFluxDc_ramp (hop : c.op = 0x0307) (hidle : running d = false) (hstill : (d.port (c.arg 0 1)).ramp = none)
    (hwf : Store.wf {} d.ports = true) (hns : c.arg 8 4 ≠ 0) : prtFluxDcSpec.act x c d =
      d.setPort (c.arg 0 1) { d.port (c.arg 0 1) with
        target := dcCode (c.arg 4 4), ramp := some ⟨(d.port (c.arg 0 1)).dc, d.time.raw, c.arg 8 4, c.seq⟩ } := by
  have heffect : stagedEffect x c d = _ := (stagedEffect_fluxDc hop).trans (startRamp_ramp hstill hns)
  have hruns : goesOn c (stagedEffect x c d) = true := by
    rw [goesOn_fluxDc hop, heffect, Dev.port_setPort_same (Store.rises_of_wf hwf)]
    simp
  calc prtFluxDcSpec.act x c d = applyNow x c d := stageOrApply_of_idle hidle
    _ = stagedEffect x c d := applyNow_goesOn hruns
    _ = _ := heffect

theorem journal_congr {seq : Nat} {f g : Dev → Dev} (h : f d = g d) : journal seq f d = journal seq g d := by
  rw [journal, journal, h]

theorem fluxRampEnd_ramping {i : Nat} {r : Ramp} (hramp : (d.port i).ramp = some r) (hcmd : cmdOf d r.seq = some c) (hlive : c.dead = false) :
    fluxRampEnd i x d = journal r.seq (fun d => doneCmd c 0x0300 (d.setPort i { d.port i with dc := (d.port i).target, ramp := none }))
      (advance (r.ns - (d.time.raw + 2 ^ 64 - r.raw) % 2 ^ 64) d) := by
  simp only [fluxRampEnd, hramp]
  exact journal_congr (endSeq_live hcmd hlive)

theorem envCopyEnd_copying {e : EnvCopy} {rest : List EnvCopy} {a : Nat} (hcopies : d.envCopies = e :: rest) (hbegun : e.start8 = some a)
    (hcmd : cmdOf d e.seq = some c) (hlive : c.dead = false) : envCopyEnd x d =
      startCopy (a + e.data.length) (journal e.seq (fun d1 => doneCmd c 0x0300 { writeEnv x e.port e.addr e.data d1 with
        envCopies := rest, envPrev := match e.last with | none => d.envPrev | some k => retire k d.env d.envPrev })
          (advance ((a + e.data.length + 7) / 8 - d.time.raw) d)) := by
  simp only [envCopyEnd, hcopies, hbegun]
  exact congrArg _ (journal_congr (endSeq_live hcmd hlive))

end

/-- Settles O34: a row whose command passes its checks has that command's effect; a ramp's end and a copy's end go by their commands. -/
theorem portCommandsAndRows : Obligations.PortCommandsAndRows := by
  intro mb h adc s c i clear
  refine ⟨fun hb => ?_, fun hb => ?_, fun hb => ?_, fun hb => ?_, fun hb hnothing => ?_, fun hb hnothing => ?_,
    fun hb hidle hstill hwf => ?_, fun port r hramp hcmd hlive => ?_, fun e rest a hcopies hbegun hcmd hlive => ?_⟩
  · exact cmdRow_effect hb rfl
  · exact cmdRow_effect hb rfl
  · exact cmdRow_effect hb rfl
  · exact cmdRow_effect hb rfl
  · exact cmdRow_effect hb (frameAct_of_setsNothing hnothing)
  · exact cmdRow_effect hb (frameAct_of_setsNothing hnothing)
  · have hop : c.op = 0x0307 := begins_op hb
    refine ⟨fun hstep => ?_, fun htakes => ?_⟩
    · exact cmdRow_effect hb (prtFluxDc_step hop hidle hstill hwf hstep)
    · exact cmdRow_effect hb (prtFluxDc_ramp hop hidle hstill hwf htakes)
  · exact next_on_congr (fluxRampEnd_ramping (x := s.ctx) hramp hcmd hlive)
  · exact next_on_congr (envCopyEnd_copying (x := s.ctx) hcopies hbegun hcmd hlive)

end Sys2Proof.Machine
end

section
/-! Program commands (R195, R208 to R218): what PROG_START and PROG_STOP do, case by case. -/

namespace Sys2Proof.Machine

section
variable {x : Ctx} {c : Cmd} {d : Dev} {p : Prog}

theorem progStart_nothing (hprog : d.prog (c.arg 0 1) = some p) (hshots : c.arg 16 8 = 0) (hcont : bitOf (c.arg 1 1) 1 = false) :
    progStartSpec.act x c d = okCmd c 0x0002 0 [] true d := by
  simp [progStartSpec, hprog, hshots, hcont]

/-- A PROG_START that asks for a shot starts its program at MERIDIAN, or 20 µs from now (R208, R215). -/
theorem progStart_starts (hprog : d.prog (c.arg 0 1) = some p) (hasks : c.arg 16 8 ≠ 0 ∨ bitOf (c.arg 1 1) 1 = true) :
    progStartSpec.act x c d = doneCmd c 0x0400 (event 50 (c.arg 0 1) 0
      (startProgram (c.arg 0 1) p (if bitOf (c.arg 1 1) 0 then c.arg 8 8 else d.time.lat + 20000) (c.arg 16 8) (bitOf (c.arg 1 1) 1)
        (endCalRun Cause.preempted (cancelArmed 0x0216 0xFFFF d)))) := by
  have hshot : ¬(c.arg 16 8 = 0 ∧ (!bitOf (c.arg 1 1) 1) = true) := by
    rintro ⟨hshots, hcont⟩
    obtain hasks | hasks := hasks
    · exact hasks hshots
    · simp [hasks] at hcont
  simp only [progStartSpec, hprog, if_neg hshot]

/-- A PROG_STOP that stands among those that the end of the program completes (R216). -/
def awaitEnd (c : Cmd) (d : Dev) : Dev :=
  { d with core := { d.core with run := { d.core.run with stopSeqs := d.core.run.stopSeqs ++ [c.seq] } } }

theorem progStop_idle (hidle : running d = false) : progStopSpec.act x c d = okCmd c 0x0002 0 [] true d := by
  simp [progStopSpec, hidle]

theorem progStop_atOnce (hrun : running d = true) (hmode : c.arg 0 1 = 1) (hstop : d.core.run.stopping ≠ some 1) :
    progStopSpec.act x c d = stopNow Cause.stopped 3 x (awaitEnd c d) := by
  simp [progStopSpec, awaitEnd, hrun, hmode, hstop]

/-- A stop at once goes on as it does, and so does MODE 0 where it is asked for again. -/
theorem progStop_again (hrun : running d = true)
    (hstop : d.core.run.stopping = some 1 ∨ c.arg 0 1 = 0 ∧ d.core.run.stopping = some 0) :
    progStopSpec.act x c d = awaitEnd c d := by
  obtain hstop | ⟨hmode, hstop⟩ := hstop
  · simp [progStopSpec, awaitEnd, hrun, hstop]
  · simp [progStopSpec, awaitEnd, hrun, hmode, hstop]

theorem progStop_afterShots (hrun : running d = true) (hmode : c.arg 0 1 = 0) (hstop : d.core.run.stopping = none) :
    progStopSpec.act x c d = { awaitEnd c d with core := { (awaitEnd c d).core with
      run := { (awaitEnd c d).core.run with stopping := some 0, endReason := 3 } } } := by
  simp [progStopSpec, awaitEnd, hrun, hmode, hstop]

end

/-- Settles O36: a row whose command passes its checks has that command's effect, in the case the clause names. -/
theorem programCommands : Obligations.ProgramCommands := by
  intro mb h s c run waits
  refine ⟨fun hb => ?_, fun hb => ?_, fun hb => ?_, fun hb p hprog => ⟨fun hshots hcont => ?_, fun hasks => ?_⟩,
    fun hb => ⟨fun hidle => ?_, fun hrun hmode hstop => ?_, fun hrun hstop => ?_, fun hrun hmode hstop => ?_⟩⟩
  · exact cmdRow_effect hb rfl
  · exact cmdRow_effect hb rfl
  · exact cmdRow_effect hb rfl
  · exact cmdRow_effect hb (progStart_nothing hprog hshots hcont)
  · exact cmdRow_effect hb (progStart_starts hprog hasks)
  · exact cmdRow_effect hb (progStop_idle hidle)
  · exact cmdRow_effect hb (progStop_atOnce hrun hmode hstop)
  · exact cmdRow_effect hb (progStop_again hrun hstop)
  · exact cmdRow_effect hb (progStop_afterShots hrun hmode hstop)

end Sys2Proof.Machine
end

section
/-! What LOC_WRITE, CH_TABLE_WRITE, CH_EXPORT, RO_WEIGHTS and the port configurations leave once applied (R182, R187, R217, R269, R272, R329,
R331). -/

namespace Sys2Proof.Machine

/-! Runs of consecutive entries: loci and weights. -/

section
variable {α : Type} [DecidableEq α] {dflt : α} {m : Store α}

theorem foldl_setFrom_wf (hwf : Store.wf dflt m = true) (a : Nat) (v : Nat → α) (n : Nat) :
    Store.wf dflt ((List.range n).foldl (fun s j => Store.set dflt s (a + j) (v j)) m) = true :=
  List.foldlRecOn (motive := fun s => Store.wf dflt s = true) _ _ hwf fun _ h _ _ => Store.wf_set h

theorem get_foldl_setFrom_outside (a : Nat) (v : Nat → α) (n : Nat) {i : Nat} (hi : i < a ∨ a + n ≤ i) :
    Store.get dflt ((List.range n).foldl (fun s j => Store.set dflt s (a + j) (v j)) m) i = Store.get dflt m i := by
  refine List.foldlRecOn (motive := fun s => Store.get dflt s i = Store.get dflt m i) _ _ rfl fun s h j hj => ?_
  have hjn : j < n := List.mem_range.mp hj
  rw [Store.get_set_other (by omega), h]

theorem get_foldl_setFrom (hwf : Store.wf dflt m = true) (a : Nat) (v : Nat → α) {n j : Nat} (hj : j < n) :
    Store.get dflt ((List.range n).foldl (fun s j => Store.set dflt s (a + j) (v j)) m) (a + j) = v j := by
  induction n with
  | zero => omega
  | succ n ih =>
    rw [List.range_succ, List.foldl_append]
    by_cases hjn : j = n
    · subst hjn
      exact Store.get_set_same (foldl_setFrom_wf hwf a v j)
    · exact (Store.get_set_other (by omega)).trans (ih (by omega))

end

/-- The weights of a payload are one run of entries. -/
theorem putWeights_range (ws : Store IQ) (first n : Nat) (v : Nat → IQ) :
    putWeights ws first ((List.range n).map v) = (List.range n).foldl (fun s j => Store.set weightReset s (first + j) (v j)) ws := by
  have hzip : ((List.range n).map v).zipIdx = (List.range n).map fun j => (v j, j) := by
    refine List.ext_getElem (by simp) fun i _ _ => by simp
  rw [putWeights, hzip, List.foldl_map]

theorem get_putWeights {ws : Store IQ} (hwf : Store.wf weightReset ws = true) (first : Nat) (v : Nat → IQ) {n j : Nat} (hj : j < n) :
    Store.get weightReset (putWeights ws first ((List.range n).map v)) (first + j) = v j := by
  rw [putWeights_range, get_foldl_setFrom hwf _ _ hj]

theorem get_putWeights_outside (ws : Store IQ) (first : Nat) (v : Nat → IQ) {n i : Nat} (hi : i < first ∨ first + n ≤ i) :
    Store.get weightReset (putWeights ws first ((List.range n).map v)) i = Store.get weightReset ws i := by
  rw [putWeights_range, get_foldl_setFrom_outside _ _ _ hi]

/-! The configuration of every port stands while a port follows its ENABLE (R165, R172, R173): what else a port counts and discards is not
part of it. -/

/-- Between `d` and `e` no port's configuration differs. -/
structure KeepsPortCfgs (d e : Dev) : Prop where
  rises : d.ports.Rises → e.ports.Rises
  cfg : d.ports.Rises → ∀ i, (e.port i).cfg = (d.port i).cfg

section
variable {d e f : Dev}

theorem KeepsPortCfgs.of_ports (h : e.ports = d.ports) : KeepsPortCfgs d e where
  rises hd := h ▸ hd
  cfg _ i := by rw [Dev.port, h, Dev.port]

theorem KeepsPortCfgs.refl (d : Dev) : KeepsPortCfgs d d := .of_ports rfl

theorem KeepsPortCfgs.trans (h : KeepsPortCfgs d e) (g : KeepsPortCfgs e f) : KeepsPortCfgs d f where
  rises := g.rises ∘ h.rises
  cfg hd i := (g.cfg (h.rises hd) i).trans (h.cfg hd i)

/-- A step after an update of other fields. -/
theorem KeepsPortCfgs.after (g : KeepsPortCfgs e f) (h : e.ports = d.ports) : KeepsPortCfgs d f := .trans (.of_ports h) g

theorem KeepsPortCfgs.ite {p : Prop} [Decidable p] (he : KeepsPortCfgs d e) (hf : KeepsPortCfgs d f) :
    KeepsPortCfgs d (if p then e else f) := by
  split
  · exact he
  · exact hf

theorem keepsPortCfgs_foldl {α : Type} (g : Dev → α → Dev) (hg : ∀ d a, KeepsPortCfgs d (g d a)) (xs : List α) (d : Dev) :
    KeepsPortCfgs d (xs.foldl g d) :=
  List.foldlRecOn (motive := KeepsPortCfgs d) xs g (.refl d) fun _ h a _ => h.trans (hg _ a)

theorem Reports.keepsPortCfgs (h : Reports d e) : KeepsPortCfgs d e := .of_ports (by rw [h.1])

end

theorem keepsPortCfgs_setPort {d : Dev} {i : Nat} {p : Port} (h : p.cfg = (d.port i).cfg) : KeepsPortCfgs d (d.setPort i p) where
  rises hd := hd.set i p
  cfg hd j := by
    by_cases hji : j = i
    · subst hji
      rw [Dev.port_setPort_same hd, h]
    · rw [Dev.port_setPort_other d p hji]

/-! Items discarded. -/

@[simp] theorem raise_ports (r : Raise) (d : Dev) : (raise r d).ports = d.ports := by rw [(raised_raise r d).frame]

theorem offerResult_ports (ring : Nat) (o : Offer) (d : Dev) : (offerResult ring o d).ports = d.ports := by
  unfold offerResult
  split
  · rfl
  · split
    · exact raise_ports _ d
    · dsimp only
      split
      · rfl
      · exact raise_ports _ _

theorem exportChord_ports (c : Chord) (d : Dev) : (exportChord c d).ports = d.ports := by
  refine List.foldlRecOn (motive := fun e : Dev => e.ports = d.ports) _ _ rfl fun e h l _ => ?_
  dsimp only
  split
  · exact h
  · exact h

theorem sendChord_ports (slow : Bool) (chan ord shot : Nat) (st : Option (BitVec 2)) (d : Dev) :
    (sendChord slow chan ord shot st d).ports = d.ports := by
  unfold sendChord
  split
  · rfl
  · exact exportChord_ports _ _

theorem keepsPortCfgs_discardedWindow (t : Tok) (cause : Nat) (d : Dev) : KeepsPortCfgs d (discardedWindow t cause d) := by
  unfold discardedWindow
  extract_lets c cfg v fine flags o p d1
  have h1 : KeepsPortCfgs d d1 := keepsPortCfgs_setPort rfl
  exact h1.trans (.of_ports ((sendChord_ports ..).trans (offerResult_ports ..)))

theorem keepsPortCfgs_discardItem (cause : Nat) (t : Tok) (d : Dev) : KeepsPortCfgs d (discardItem cause t d) := by
  unfold discardItem
  extract_lets noPort v fine came arg inst failInst d1 f d2
  have h2 : KeepsPortCfgs d d2 := .of_ports (raise_ports _ d)
  exact .ite (h2.trans (keepsPortCfgs_discardedWindow t cause d2)) h2

/-! A port brought up to now (R155, R168, R170, R366). -/

theorem keepsPortCfgs_countClip (i at16 : Nat) (d : Dev) : KeepsPortCfgs d (countClip i at16 d) := by
  unfold countClip
  refine .ite (.refl d) ?_
  extract_lets p d1
  have h1 : KeepsPortCfgs d d1 := keepsPortCfgs_setPort rfl
  split
  · exact h1
  · exact h1.trans (.of_ports rfl)

theorem keepsPortCfgs_countClipsTo (to16 i : Nat) (d : Dev) : KeepsPortCfgs d (countClipsTo to16 i d) := by
  unfold countClipsTo
  extract_lets spans from16 until16 d1
  have h1 : KeepsPortCfgs d d1 := .ite (keepsPortCfgs_foldl _ (fun d n => keepsPortCfgs_countClip i n d) _ d) (.refl d)
  exact h1.trans (keepsPortCfgs_setPort rfl)

theorem putTrim_ports (p : Nat) (t : Trim) (d : Dev) : (putTrim p t d).ports = d.ports := by
  unfold putTrim
  dsimp only
  split
  · rfl
  · rfl

theorem keepsPortCfgs_takeTrims (p : Nat) (d : Dev) : KeepsPortCfgs d (takeTrims p d) := by
  unfold takeTrims
  split
  · exact .refl d
  · extract_lets at16 d1
    have h1 : KeepsPortCfgs d d1 := .ite (keepsPortCfgs_countClipsTo _ _ d) (.refl d)
    exact .ite (.refl d) (h1.trans (.of_ports (putTrim_ports ..)))

theorem keepsPortCfgs_countUnderrun (i : Nat) (t : Tok) (d : Dev) : KeepsPortCfgs d (countUnderrun i t d) := by
  unfold countUnderrun
  extract_lets n z p d1 d2
  split
  · exact .refl d
  · have h1 : KeepsPortCfgs d d1 := keepsPortCfgs_setPort rfl
    exact h1.trans (.of_ports rfl)

theorem keepsPortCfgs_noteBusy (i : Nat) (d : Dev) : KeepsPortCfgs d (noteBusy i d) := .ite (.refl d) (keepsPortCfgs_setPort rfl)

theorem keepsPortCfgs_settlePort (i : Nat) (d : Dev) : KeepsPortCfgs d (settlePort i d) := by
  have hbusy := keepsPortCfgs_noteBusy i d
  unfold settlePort
  refine .ite (hbusy.trans (keepsPortCfgs_takeTrims i _)) ?_
  extract_lets d1 stage1 d2 s ended
  have h1 : KeepsPortCfgs d d1 := hbusy.trans (keepsPortCfgs_foldl _ (fun d t => keepsPortCfgs_countUnderrun i t d) _ _)
  have h2 : KeepsPortCfgs d1 d2 := ((keepsPortCfgs_takeTrims i _).trans (keepsPortCfgs_countClipsTo _ i _)).after (Dev.setStage_ports ..)
  exact (h1.trans h2).trans (.of_ports (Dev.setStage_ports ..))

theorem keepsPortCfgs_flushStage (cause : Nat) (playing : Bool) (stage : Nat) (d : Dev) :
    KeepsPortCfgs d (flushStage cause playing stage d) := by
  unfold flushStage
  extract_lets d1 s out
  have hdiscards (e : Dev) : KeepsPortCfgs e (discardAll cause out e) := keepsPortCfgs_foldl _ (fun d t => keepsPortCfgs_discardItem cause t d) _ e
  exact (keepsPortCfgs_settlePort stage d).trans ((hdiscards _).after (Dev.setStage_ports ..))

/-! The safe condition (R172, R173). -/

theorem keepsPortCfgs_safeDc (i : Nat) (d : Dev) : KeepsPortCfgs d (safeDc i d) := by
  unfold safeDc
  extract_lets p
  have h1 : KeepsPortCfgs d (d.setPort i { p with dc := p.cfg.safeDc, target := p.cfg.safeDc, ramp := none }) := keepsPortCfgs_setPort rfl
  exact .ite (h1.trans (reports_leaveRamp p _).keepsPortCfgs) (.refl d)

theorem keepsPortCfgs_enterSafe (cause : SafeCause) (i : Nat) (d : Dev) : KeepsPortCfgs d (enterSafe cause i d) := by
  unfold enterSafe
  extract_lets d1 p d2 d3
  have h2 : KeepsPortCfgs d1 d2 := keepsPortCfgs_setPort rfl
  have h3 : KeepsPortCfgs d d3 := ((keepsPortCfgs_settlePort i d).trans h2).trans (keepsPortCfgs_flushStage _ _ _ d2)
  exact .ite h3 (h3.trans (keepsPortCfgs_safeDc i d3))

theorem keepsPortCfgs_followShot (k i : Nat) (d : Dev) : KeepsPortCfgs d (followShot k i d) :=
  .ite (keepsPortCfgs_setPort rfl) (.ite (.refl d) (keepsPortCfgs_enterSafe .disabled i d))

theorem Port.leaves_cfg (p : Port) : p.leaves.cfg = p.cfg := by
  rw [Port.leaves]
  split
  · rfl
  · rfl

theorem keepsPortCfgs_leaveSafe (d : Dev) : KeepsPortCfgs d (leaveSafe d) where
  rises hd := by
    rw [leaveSafe_ports]
    exact hd.map Port.leaves
  cfg _ i := by
    rw [Dev.port, leaveSafe_ports, Store.get_map (by decide), Port.leaves_cfg, Dev.port]

theorem keepsPortCfgs_followEnable (i : Nat) (d : Dev) : KeepsPortCfgs d (followEnable i d) :=
  .ite (.refl d) ((keepsPortCfgs_followShot _ i d).trans (.ite (.refl _) (keepsPortCfgs_leaveSafe _)))

/-! Configurations applied. -/

section
variable {d : Dev}

theorem setPortCfg_rises (hd : d.ports.Rises) (i : Nat) (g : PortCfg) : (setPortCfg i g d).ports.Rises := hd.set _ _

theorem setPortCfg_cfg (hd : d.ports.Rises) (i : Nat) (g : PortCfg) : ((setPortCfg i g d).port i).cfg = g := by
  rw [setPortCfg, Dev.port_setPort_same hd]

/-- A port's configuration reads back through whatever keeps the configurations. -/
theorem KeepsPortCfgs.cfg_setPortCfg {i : Nat} {g : PortCfg} {e : Dev} (h : KeepsPortCfgs (setPortCfg i g d) e) (hd : d.ports.Rises) :
    (e.port i).cfg = g := (h.cfg (setPortCfg_rises hd i g) i).trans (setPortCfg_cfg hd i g)

theorem applyDrive_cfg (hd : d.ports.Rises) (c : Cmd) : ((applyDrive c d).port (c.arg 0 1)).cfg =
    { (d.port (c.arg 0 1)).cfg with enable := bitOf (c.arg 1 1) 0, fsCode := c.arg 2 2 } := by
  refine KeepsPortCfgs.cfg_setPortCfg (.trans ?_ (keepsPortCfgs_followEnable _ _)) hd
  exact .ite (.refl _) (.of_ports (Dev.setDue_ports ..))

theorem applyFlux_cfg (hd : d.ports.Rises) (c : Cmd) : ((applyFlux c d).port (c.arg 0 1)).cfg =
    { (d.port (c.arg 0 1)).cfg with enable := bitOf (c.arg 1 1) 0, safeMode := bitOf (c.arg 1 1) 1, pulseRange := bitOf (c.arg 1 1) 2,
                                    safeDc := dcCode (c.arg 4 4) } :=
  (keepsPortCfgs_followEnable _ _).cfg_setPortCfg hd

theorem applyAcq_cfg (hd : d.ports.Rises) (c : Cmd) : ((applyAcq c d).port (c.arg 0 1)).cfg =
    { (d.port (c.arg 0 1)).cfg with enable := bitOf (c.arg 1 1) 0, range := bitOf (c.arg 1 1) 1 } := by
  refine KeepsPortCfgs.cfg_setPortCfg (.ite (.refl _) ?_) hd
  exact keepsPortCfgs_foldl _ (fun _ _ => .of_ports (Dev.setChan_ports ..)) _ _

/-- The words of a payload that fill a table from its first entry on. -/
def writtenWords (word : Nat → Nat) (n : Nat) : Store (BitVec 32) :=
  (List.range n).foldl (fun s i => Store.set 0 s i (BitVec.ofNat 32 (word i))) []

theorem get_writtenWords (word : Nat → Nat) {n i : Nat} (hi : i < n) : Store.get 0 (writtenWords word n) i = BitVec.ofNat 32 (word i) :=
  get_foldl_set (fun i => BitVec.ofNat 32 (word i)) (List.mem_range.mpr hi)

/-- The whole table that a CH_TABLE_WRITE gives (R329). -/
def writtenTable (c : Cmd) : Table where
  deadline := c.arg 8 8
  fallback := c.arg 16 4
  sel := writtenWords (fun i => c.arg (32 + 4 * i) 4) 8
  entries := writtenWords (fun i => c.arg (64 + 4 * i) 4) 256

theorem writtenTable_sel (c : Cmd) {i : Nat} (hi : i < 8) :
    Store.get 0 (writtenTable c).sel i = BitVec.ofNat 32 (c.arg (32 + 4 * i) 4) := by
  rw [writtenTable, get_writtenWords _ hi]

theorem writtenTable_entries (c : Cmd) {i : Nat} (hi : i < 256) :
    Store.get 0 (writtenTable c).entries i = BitVec.ofNat 32 (c.arg (64 + 4 * i) 4) := by
  rw [writtenTable, get_writtenWords _ hi]

theorem applyTable_written (hwf : Store.wf {} d.core.tables = true) (c : Cmd) :
    Store.get {} (applyTable c d).core.tables (c.arg 0 1) = writtenTable c := Store.get_set_same hwf

theorem applyWeights_cfg (hwf : Store.wf {} d.chans = true) (c : Cmd) : ((applyWeights c d).chan c.chanArg).cfg =
    { (d.chan c.chanArg).cfg with
      stride := c.arg 2 1
      weights := putWeights (d.chan c.chanArg).cfg.weights (c.arg 4 2)
        ((List.range (c.arg 6 2)).map fun i => weightOf (c.arg (16 + 4 * i) 4)) } :=
  congrArg Chan.cfg (Store.get_set_same hwf)

end

/-! The command each opcode applies. -/

section
variable {x : Ctx} {c : Cmd} {d : Dev}

theorem stagedEffect_locWrite (hop : c.op = 0x0404) : stagedEffect x c d = applyLoci c d := by simp [stagedEffect, hop]

theorem stagedEffect_tableWrite (hop : c.op = 0x05C0) : stagedEffect x c d = applyTable c d := by simp [stagedEffect, hop]

theorem stagedEffect_export (hop : c.op = 0x05C2) : stagedEffect x c d = applyExport c d := by simp [stagedEffect, hop]

theorem stagedEffect_weights (hop : c.op = 0x0501) : stagedEffect x c d = applyWeights c d := by simp [stagedEffect, hop]

theorem stagedEffect_drive (hop : c.op = 0x0301 ∨ c.op = 0x0380) : stagedEffect x c d = applyDrive c d := by
  obtain hop | hop := hop
  · simp [stagedEffect, hop]
  · simp [stagedEffect, hop]

theorem stagedEffect_flux (hop : c.op = 0x0306) : stagedEffect x c d = applyFlux c d := by simp [stagedEffect, hop]

theorem stagedEffect_acq (hop : c.op = 0x0382) : stagedEffect x c d = applyAcq c d := by simp [stagedEffect, hop]

end

/-- Settles O33: each opcode applies its own settings; loci and weights are runs of entries, and what follows a port's configuration keeps
it. -/
theorem appliedSettingsReadBack : Obligations.AppliedSettingsReadBack := by
  intro x c d _ hloci htables hexports hchans hports t p
  have hrises := Store.rises_of_wf hports
  refine ⟨fun hop => ?_, fun hop => ?_, fun hop => ?_, fun hop hweights => ?_, fun hop => ?_, fun hop => ?_, fun hop => ?_⟩
  · rw [show t = applyLoci c d from stagedEffect_locWrite hop]
    exact ⟨fun j hj => get_foldl_setFrom hloci _ _ hj, fun i hi => get_foldl_setFrom_outside _ _ _ hi⟩
  · rw [show t = applyTable c d from stagedEffect_tableWrite hop]
    intro q
    rw [show q = writtenTable c from applyTable_written htables c]
    exact ⟨rfl, rfl, fun i hi => writtenTable_entries c hi, fun i hi => writtenTable_sel c hi, fun i hi => Store.get_set_other hi⟩
  · rw [show t = applyExport c d from stagedEffect_export hop]
    exact ⟨Store.get_set_same hexports, fun i hi => Store.get_set_other hi⟩
  · rw [show t = applyWeights c d from stagedEffect_weights hop]
    intro g w
    have hg : g = _ := applyWeights_cfg hchans c
    refine ⟨congrArg ChanCfg.stride hg, fun j hj => ?_, fun i hi => ?_⟩
    · exact (congrArg (Store.get weightReset ·.weights _) hg).trans (get_putWeights hweights _ _ hj)
    · exact (congrArg (Store.get weightReset ·.weights _) hg).trans (get_putWeights_outside _ _ _ hi)
  · have hp : p = (applyDrive c d).port (c.arg 0 1) := congrArg (Dev.port · _) (stagedEffect_drive hop)
    rw [hp, applyDrive_cfg hrises]
    exact ⟨rfl, rfl⟩
  · have hp : p = (applyFlux c d).port (c.arg 0 1) := congrArg (Dev.port · _) (stagedEffect_flux hop)
    rw [hp, applyFlux_cfg hrises]
    exact ⟨rfl, rfl, rfl, rfl⟩
  · have hp : p = (applyAcq c d).port (c.arg 0 1) := congrArg (Dev.port · _) (stagedEffect_acq hop)
    rw [hp, applyAcq_cfg hrises]
    exact ⟨rfl, rfl⟩

end Sys2Proof.Machine
end

section
/-! Ray instructions that issue no token (R190, R204, R205, R223, R230 to R237): the word that a ray executes next, its operands, and what
each row does with it. -/

namespace Sys2Proof.Machine

/-! The word executed (R190, R220). -/

section
variable {r w op : Nat} {d : Dev} {f : Nat → Ray → Dev → Dev}

theorem rayExec_rayAt (hat : rayAt d r w) (hop : w / 2 ^ 56 = op) : rayExec op r f d = f w (d.ray r) d := by
  obtain ⟨p, hprog, hword, hrun, hgate, hst⟩ := hat
  unfold rayExec
  simp only [hprog, hword, hrun, hgate, hop]
  cases hy : (d.ray r).st <;> simp_all

/-- What holds of the device, and of it after the row's instruction with any word, holds after the row. -/
theorem rayExec_rec {P : Dev → Prop} (hd : P d) (hf : ∀ w, P (f w (d.ray r) d)) : P (rayExec op r f d) := by
  unfold rayExec
  split
  · exact hd
  · exact (ite_eq_or_eq ..).elim (fun h => h ▸ hd) (fun h => h ▸ hf _)

end

/-! Operands (R223, R232 to R234). -/

@[simp] theorem Ray.ofNat_reg (y : Ray) (n : Nat) : BitVec.ofNat 64 (y.reg n) = Store.get 0 y.g n := by
  simp [Ray.reg]

theorem ofNat_cursorOperand (w : Nat) (y : Ray) : BitVec.ofNat 64 (cursorOperand w y) =
    if bitOf w 55 then Store.get 0 y.g (bits w 51 48) else BitVec.ofNat 64 (bits w 47 0) := by
  unfold cursorOperand
  split
  · exact y.ofNat_reg _
  · rfl

/-- A signed number taken modulo 2^64 is that number's word. -/
theorem ofNat_emod_toNat (i : Int) : BitVec.ofNat 64 (i % 2 ^ 64).toNat = BitVec.ofInt 64 i := by
  apply BitVec.eq_of_toNat_eq
  simp only [BitVec.toNat_ofNat, BitVec.toNat_ofInt]
  omega

/-- SETG's second form replaces bits 63 to 48 (R233). -/
theorem ofNat_high_append (v : Nat) (g : BitVec 64) :
    BitVec.ofNat 64 (v * 2 ^ 48 + g.toNat % 2 ^ 48) = BitVec.ofNat 16 v ++ g.setWidth 48 := by
  apply BitVec.eq_of_toNat_eq
  rw [BitVec.toNat_append, BitVec.toNat_ofNat, BitVec.toNat_ofNat, BitVec.toNat_setWidth,
    ← Nat.shiftLeft_add_eq_or_of_lt (Nat.mod_lt _ (by decide)), Nat.shiftLeft_eq]
  omega

theorem ofNat_setgValue (w : Nat) (y : Ray) : BitVec.ofNat 64 (setgValue w y) = match bits w 51 50 with
    | 0 => BitVec.ofInt 64 (signed 48 (bits w 47 0))
    | 1 => BitVec.ofNat 16 (bits w 15 0) ++ (Store.get 0 y.g (bits w 55 52)).setWidth 48
    | 2 => y.c
    | _ => BitVec.ofNat 64 y.shot := by
  unfold setgValue
  generalize bits w 51 50 = form
  match form with
  | 0 => exact ofNat_emod_toNat _
  | 1 => exact ofNat_high_append _ _
  | 2 => exact (BitVec.ofNat_toNat ..).trans (BitVec.setWidth_eq _)
  | _ + 3 => rfl

theorem ofNat_addgOperand (w : Nat) (y : Ray) :
    BitVec.ofNat 64 (if bitOf w 47 then y.reg (bits w 43 40) else (signed 40 (bits w 39 0) % 2 ^ 64).toNat) =
      if bitOf w 47 then Store.get 0 y.g (bits w 43 40) else BitVec.ofInt 64 (signed 40 (bits w 39 0)) := by
  split
  · exact y.ofNat_reg _
  · exact ofNat_emod_toNat _

theorem endsLast_of_more {d : Dev} {k : Nat} (h : ∀ n, shotLimit d = some n → k + 1 < n) : endsLast d k = false := by
  unfold endsLast
  split
  · rfl
  · next n hn => exact decide_eq_false (Nat.not_le.mpr (h n hn))

theorem endsLast_of_limit {d : Dev} {k n : Nat} (h : shotLimit d = some n) (hn : n ≤ k + 1) : endsLast d k = true := by
  simp [endsLast, h, hn]

/-! The rows (R223, R230 to R237). -/

section
variable {r w : Nat} {d : Dev}

theorem doMerid_next (hat : rayAt d r w) (hop : w / 2 ^ 56 = 0x02) (x : Ctx) (hopen : isOpened d (d.ray r).shot = true)
    (hbefore : (d.ray r).shot = 0 ∨ meridianPassed d (d.ray r).shot = true) (hstop : d.core.run.stopping ≠ some 0)
    (hmore : ∀ n, shotLimit d = some n → (d.ray r).shot + 1 < n) :
    doMerid r x d = d.setRay r { (d.ray r).next with c := 0, shot := (d.ray r).shot + 1 } := by
  refine (rayExec_rayAt hat hop).trans (if_neg ?_)
  simp only [hopen, endsLast_of_more hmore]
  obtain h | h := hbefore
  · simp [h, hstop]
  · simp [h, hstop]

theorem doMerid_waits (hat : rayAt d r w) (hop : w / 2 ^ 56 = 0x02) (x : Ctx)
    (hwaits : isOpened d (d.ray r).shot = false ∨ (1 ≤ (d.ray r).shot ∧ meridianPassed d (d.ray r).shot = false) ∨
      d.core.run.stopping = some 0 ∨ ∃ n, shotLimit d = some n ∧ n ≤ (d.ray r).shot + 1) :
    doMerid r x d = d.setRay r { d.ray r with st := .merid } := by
  refine (rayExec_rayAt hat hop).trans (if_pos ?_)
  obtain h | ⟨hshot, h⟩ | h | ⟨n, hlimit, hn⟩ := hwaits
  · simp [h]
  · simp [hshot, h]
  · simp [h]
  · simp [endsLast_of_limit hlimit hn]

/-- The count a LOOP begins with (R230). -/
def loopCount (w : Nat) (y : Ray) : Nat := if bitOf w 55 then y.reg (bits w 51 48) % 2 ^ 32 else bits w 23 0

theorem doLoop_skips (hat : rayAt d r w) (hop : w / 2 ^ 56 = 0x20) (x : Ctx) (hn : loopCount w (d.ray r) = 0) :
    doLoop r x d = d.setRay r { d.ray r with st := .running, pc := bits w 43 24 + 1 } :=
  (rayExec_rayAt hat hop).trans (congrArg (d.setRay r) (if_pos hn))

theorem doLoop_enters (hat : rayAt d r w) (hop : w / 2 ^ 56 = 0x20) (x : Ctx) (hn : loopCount w (d.ray r) ≠ 0) :
    doLoop r x d = d.setRay r { (d.ray r).next with loops := (loopCount w (d.ray r), (d.ray r).pc + 1) :: (d.ray r).loops } :=
  (rayExec_rayAt hat hop).trans (congrArg (d.setRay r) (if_neg hn))

theorem doEndl_loop {n start : Nat} {rest : List (Nat × Nat)} (hat : rayAt d r w) (hop : w / 2 ^ 56 = 0x21) (x : Ctx)
    (hloops : (d.ray r).loops = (n, start) :: rest) : doEndl r x d = d.setRay r (if n ≤ 1 then { (d.ray r).next with loops := rest }
      else { d.ray r with st := .running, pc := start, loops := (n - 1, start) :: rest }) := by
  simp only [doEndl, rayExec_rayAt hat hop, hloops]

theorem doBr_eq (hat : rayAt d r w) (hop : w / 2 ^ 56 = 0x25) (x : Ctx) :
    doBr r x d = d.setRay r (if brHolds (bits w 55 52) (Store.get 0 (d.ray r).g (bits w 51 48))
        (if bitOf w 47 then Store.get 0 (d.ray r).g (bits w 43 40) else BitVec.ofInt 64 (signed 20 (bits w 19 0)))
      then { d.ray r with st := .running, pc := bits w 39 20 } else (d.ray r).next) := by
  simp only [doBr, rayExec_rayAt hat hop, Ray.ofNat_reg]

theorem doSetg_eq (hat : rayAt d r w) (hop : w / 2 ^ 56 = 0x30) (x : Ctx) {v : BitVec 64}
    (hv : BitVec.ofNat 64 (setgValue w (d.ray r)) = v) :
    doSetg r x d = d.setRay r { (d.ray r).next with g := Store.set 0 (d.ray r).g (bits w 55 52) v } := by
  subst hv
  exact rayExec_rayAt hat hop

theorem doAddg_eq (hat : rayAt d r w) (hop : w / 2 ^ 56 = 0x31) (x : Ctx) : doAddg r x d = d.setRay r { (d.ray r).next with
    g := Store.set 0 (d.ray r).g (bits w 55 52) (Store.get 0 (d.ray r).g (bits w 51 48) +
      if bitOf w 47 then Store.get 0 (d.ray r).g (bits w 43 40) else BitVec.ofInt 64 (signed 40 (bits w 39 0))) } := by
  simp only [doAddg, rayExec_rayAt hat hop, Ray.setReg, BitVec.ofNat_add, Ray.ofNat_reg, ofNat_addgOperand]
  rfl

end

/-- Settles O38: the word at the ray's program counter is the row's own, and each row does with it what its clause says. -/
theorem rayControlInstructions : Obligations.RayControlInstructions := by
  intro r w s hat hwr y op at1 G goes T
  have hT : BitVec.ofNat 64 (cursorOperand w y) = T := ofNat_cursorOperand w y
  refine ⟨fun hop => ?_, fun hop hopen hbefore hstop hmore => ?_, fun hop hwaits => ?_, fun hop => ?_, fun hop => ?_, fun hop => ?_,
    fun hop => ⟨fun hn => ?_, fun hn => ?_⟩, fun n start rest hop hloops => ⟨fun hn => ?_, fun hn => ?_⟩, fun hop => ?_, fun hop => ?_,
    fun hop => ?_, fun hop => ?_⟩
  · exact next_on_congr (rayExec_rayAt hat hop)
  · exact next_on_eq (doMerid_next hat hop s.ctx hopen hbefore hstop hmore) hwr
  · exact next_on_eq (doMerid_waits hat hop s.ctx hwaits) hwr
  · exact next_on_congr (rayExec_rayAt hat hop)
  · rw [← hT]
    exact next_on_eq (rayExec_rayAt hat hop) hwr
  · rw [← hT]
    exact next_on_eq (rayExec_rayAt hat hop) hwr
  · exact next_on_eq (doLoop_skips hat hop s.ctx hn) hwr
  · exact next_on_eq (doLoop_enters hat hop s.ctx hn) hwr
  · exact next_on_eq ((doEndl_loop hat hop s.ctx hloops).trans (congrArg (s.dev.setRay r) (if_pos hn))) hwr
  · exact next_on_eq ((doEndl_loop hat hop s.ctx hloops).trans (congrArg (s.dev.setRay r) (if_neg (Nat.not_le.mpr hn)))) hwr
  · exact next_on_eq (rayExec_rayAt hat hop) hwr
  · exact next_on_eq (doBr_eq hat hop s.ctx) hwr
  · exact next_on_eq (doSetg_eq hat hop s.ctx (ofNat_setgValue w y)) hwr
  · exact next_on_eq (doAddg_eq hat hop s.ctx) hwr

end Sys2Proof.Machine
end

section
/-! Ray instructions that issue a token (R191, R224 to R229), and the frame engine taking a frame token (R227). -/

namespace Sys2Proof.Machine

section
variable {r w : Nat} {d : Dev}

theorem stageFull_of_room {i : Nat} (h : ¬64 ≤ (d.stage i).queue.length) : ¬stageFull d i = true := by
  simpa [stageFull] using h

/-- The locus that a PLAY or PLAYS names (R224). -/
def playIndex (w : Nat) (y : Ray) : Nat := if bitOf w 55 then (Store.get 0 y.g (bits w 51 48)).toNat else bits w 15 0

section
variable {stream : Bool} {y : Ray}

theorem playWord_lost (hopen : isOpened d y.shot = true) (hix : 40959 < playIndex w y) : playWord stream r w y d =
    discardItem Cause.badLocus { kind := .play, ray := r, shot := y.shot, voff := y.c.toNat, locusIx := playIndex w y }
      (d.setRay r y.next) := (if_pos hopen).trans (if_pos hix)

theorem playWord_full (hopen : isOpened d y.shot = true) (hix : playIndex w y ≤ 40959)
    (hfull : 64 ≤ (d.stage (d.locus (playIndex w y)).port).queue.length) :
    playWord stream r w y d = d.setRay r { y with st := .blocked } :=
  (if_pos hopen).trans ((if_neg (Nat.not_lt.mpr hix)).trans (if_pos (decide_eq_true hfull)))

theorem playWord_issues {bad : Bool} (hopen : isOpened d y.shot = true) (hix : playIndex w y ≤ 40959)
    (hroom : ¬64 ≤ (d.stage (d.locus (playIndex w y)).port).queue.length)
    (hbad : ((d.locus (playIndex w y)).flags.getLsbD 4 != stream) = bad) :
    playWord stream r w y d = issue (playTok r y (playIndex w y) (d.locus (playIndex w y)) bad)
      (d.setRay r { y.next with c := if bad then y.c else y.c + BitVec.ofNat 64 (d.locus (playIndex w y)).duration }) := by
  subst hbad
  exact (if_pos hopen).trans ((if_neg (Nat.not_lt.mpr hix)).trans (if_neg (stageFull_of_room hroom)))

end
end

/-- PLAY and PLAYS differ in the STREAM flag they ask for alone (R224). -/
theorem exec_play (stream : Bool) (r : Fin 128) (s : State) : exec (if stream then .rayPlays r else .rayPlay r) s =
    .next (s.on fun _ => rayExec (if stream then 0x11 else 0x10) r (playWord stream r)) := by
  cases stream
  · rfl
  · rfl

theorem applyFrame_setf {t : Tok} (h : t.kind = .setf) (d : Dev) :
    (applyFrame t d).1 = d.setFrame t.frame (setFreq d t.operand (d.frame t.frame)) := by
  simp only [applyFrame, h]

theorem applyFrame_vz {t : Tok} (h : t.kind = .vz) (d : Dev) :
    (applyFrame t d).1 = d.setFrame t.frame { d.frame t.frame with z := ((d.frame t.frame).z + t.operand) % 2 ^ 32 } := by
  simp only [applyFrame, h]

/-- A frame token leaves the fabric once its frame is updated (R227). -/
theorem doFrameTokenApply_done {r i : Nat} {t : Tok} {x : Ctx} {d d1 : Dev}
    (hi : d.core.fabric.findIdx? (fun t => t.ray = r && !t.framed) = some i) (ht : d.core.fabric[i]? = some t)
    (hitem : t.kind.isItem = false) (happly : (applyFrame t d).1 = d1) :
    doFrameTokenApply r x d = { d1 with core := { d1.core with fabric := d1.core.fabric.eraseIdx i } } := by
  subst happly
  simp only [doFrameTokenApply, hi, ht, hitem]
  rfl

/-- Settles O39: in a shot that has opened a row issues its token, unless the release queue it is for is full. -/
theorem rayTokenInstructions : Obligations.RayTokenInstructions := by
  intro r w s hwr y op at1 ready waits full issues frame tok
  refine ⟨?_, fun hready hop => ?_, fun hready hop => ?_, ?_, ?_, fun hat hclosed => ?_, ?_⟩
  · intro stream hready hop i ix l
    obtain ⟨hat, hopen⟩ := hready
    have hnext {e : Dev} (h : playWord stream r w y s.dev = e) (he : e.wr = []) : exec i s = .next { s with dev := e } :=
      (exec_play stream r s).trans (next_on_eq ((rayExec_rayAt hat hop).trans h) he)
    refine ⟨fun hix hroom hflag => ?_, fun hix hroom hflag => ?_, fun hix hfull => ?_, fun hix => ?_⟩
    · exact hnext (playWord_issues hopen hix hroom (bne_eq_false_iff_eq.mpr hflag)) hwr
    · exact hnext (playWord_issues hopen hix hroom (bne_iff_ne.mpr hflag)) hwr
    · exact hnext (playWord_full hopen hix hfull) hwr
    · exact (exec_play stream r s).trans (next_on_congr ((rayExec_rayAt hat hop).trans (playWord_lost hopen hix)))
  · exact next_on_eq ((rayExec_rayAt hready.1 hop).trans (if_pos hready.2)) hwr
  · exact next_on_eq ((rayExec_rayAt hready.1 hop).trans (if_pos hready.2)) hwr
  · intro hready hop stage chan c1
    obtain ⟨hat, hopen⟩ := hready
    constructor
    · intro hroom window
      have hacts : doAcq r s.ctx s.dev = _ := (rayExec_rayAt hat hop).trans ((if_pos hopen).trans (if_neg (stageFull_of_room hroom)))
      exact ⟨_, next_on_eq hacts hwr, rfl, rfl, rfl⟩
    · intro hfull
      exact next_on_eq ((rayExec_rayAt hat hop).trans ((if_pos hopen).trans (if_pos (decide_eq_true hfull)))) hwr
  · intro hready hop mark
    obtain ⟨hat, hopen⟩ := hready
    constructor
    · intro hroom
      exact next_on_eq ((rayExec_rayAt hat hop).trans ((if_pos hopen).trans (if_neg (stageFull_of_room hroom)))) hwr
    · intro hfull
      exact next_on_eq ((rayExec_rayAt hat hop).trans ((if_pos hopen).trans (if_pos (decide_eq_true hfull)))) hwr
  · have hshut : ¬isOpened s.dev y.shot = true := by simp [hclosed]
    refine ⟨fun hop => ?_, fun hop => ?_, fun hop => ?_, fun hop => ?_, fun hop => ?_, fun hop => ?_, fun hop => ?_⟩ <;>
      exact next_on_eq ((rayExec_rayAt hat hop).trans (if_neg hshut)) hwr
  · intro i t hi ht f rest done
    constructor
    · intro hkind
      exact next_on_eq (doFrameTokenApply_done hi ht (by rw [hkind]; rfl) (applyFrame_setf hkind s.dev)) hwr
    · intro hkind
      exact next_on_eq (doFrameTokenApply_done hi ht (by rw [hkind]; rfl) (applyFrame_vz hkind s.dev)) hwr

end Sys2Proof.Machine
end

section
/-! DECIDE and its resolution (R235, R317 to R319): what a ray leaves it with. -/

namespace Sys2Proof.Machine

theorem Dev.ray_setRay_same {d : Dev} (h : Store.wf {} d.core.rays = true) (r : Nat) (y : Ray) : (d.setRay r y).ray r = y :=
  Store.get_set_same h

/-- A step of ray `r` alone: of every other ray nothing changes. -/
def KeepsOthers (r : Nat) (d e : Dev) : Prop := ∀ q ≠ r, e.ray q = d.ray q

theorem KeepsOthers.refl (r : Nat) (d : Dev) : KeepsOthers r d d := fun _ _ => rfl

theorem KeepsOthers.trans {r : Nat} {d e f : Dev} (h : KeepsOthers r d e) (g : KeepsOthers r e f) : KeepsOthers r d f :=
  fun q hq => (g q hq).trans (h q hq)

theorem KeepsOthers.of_set {r : Nat} {d e : Dev} {y : Ray} (h : e.core.rays = Store.set {} d.core.rays r y) : KeepsOthers r d e :=
  fun q hq => by rw [Dev.ray, h, Store.get_set_other hq, Dev.ray]

/-- Ray `r` has left its DECIDE, with `v` in register `gd`, and `count` says how it is counted. -/
structure LeavesDecide (r gd v : Nat) (count : Chords → Chords) (d e : Dev) : Prop where
  own : e.ray r = ((d.ray r).next).setReg gd v
  chords : e.chords = count d.chords
  others : KeepsOthers r d e

section
variable {r gd tb : Nat} {d : Dev}

/-- The enabled selectors of the table that a DECIDE of shot `k` uses. -/
def asked (d : Dev) (tb k : Nat) : List Nat := (selectors (tableFor d tb k)).filter selEn

/-- A DECIDE counted as resolved. -/
def countDecision (n : Chords) : Chords := { n with decisions := (n.decisions + 1) % 2 ^ 64 }

/-- A DECIDE counted as fallen back late. -/
def countLate (n : Chords) : Chords := { n with fbLate := (n.fbLate + 1) % 2 ^ 64 }

theorem find_missing_eq_none {k : Nat} (hstated : ∀ q ∈ asked d tb k, ∀ e, chordFor d q k = some e → e.state.isSome = true) :
    (asked d tb k).find? (fun s => (chordFor d s k).any (·.state.isNone)) = none := by
  refine List.find?_eq_none.mpr fun q hq => ?_
  cases he : chordFor d q k with
  | none => simp
  | some e => simp [Option.isSome_iff_ne_none.mp (hstated q hq e he)]

/-- Every chord asked for has come with a state: the entry is picked (R317), whether late or not. -/
theorem resolve_entry (hwf : Store.wf {} d.core.rays = true) {k : Nat} (hk : (d.ray r).shot = k) (late : Bool)
    (hall : ∀ q ∈ asked d tb k, ∃ e, chordFor d q k = some e ∧ e.state.isSome = true) :
    LeavesDecide r gd (Store.get 0 (tableFor d tb k).entries (tableIndex d (tableFor d tb k) k)).toNat countDecision d
      (resolve r gd tb late d) := by
  subst hk
  have hstates := find_missing_eq_none fun q hq e he => by
    obtain ⟨e1, he1, hst⟩ := hall q hq
    exact Option.some.inj (he.symm.trans he1) ▸ hst
  have hcame : (asked d tb (d.ray r).shot).find? (fun s => (chordFor d s (d.ray r).shot).isNone) = none := by
    refine List.find?_eq_none.mpr fun q hq => ?_
    obtain ⟨e, he, -⟩ := hall q hq
    simp [he]
  unfold asked at hstates hcame
  simp only [resolve, hstates, hcame]
  exact ⟨Dev.ray_setRay_same hwf _ _, rfl, .of_set rfl⟩

/-- At the deadline no chord came without a state, but one has not come: FALLBACK (R318, R319). -/
theorem resolve_fallback (hwf : Store.wf {} d.core.rays = true) {k : Nat} (hk : (d.ray r).shot = k)
    (hstated : ∀ q ∈ asked d tb k, ∀ e, chordFor d q k = some e → e.state.isSome = true)
    (habsent : ∃ q ∈ asked d tb k, chordFor d q k = none) :
    LeavesDecide r gd (tableFor d tb k).fallback countLate d (resolve r gd tb true d) := by
  subst hk
  have hstates := find_missing_eq_none hstated
  obtain ⟨q0, hq0⟩ : ∃ q0, (asked d tb (d.ray r).shot).find? (fun s => (chordFor d s (d.ray r).shot).isNone) = some q0 := by
    obtain ⟨q, hq, hnone⟩ := habsent
    exact Option.isSome_iff_exists.mp (List.find?_isSome.mpr ⟨q, hq, by simp [hnone]⟩)
  unfold asked at hstates hq0
  simp only [resolve, hstates, hq0]
  exact ⟨Dev.ray_setRay_same hwf _ _, rfl, .of_set rfl⟩

/-- What a DECIDE that waits leaves, it leaves of the device whose ray has only begun to wait for it. -/
theorem LeavesDecide.of_waiting {v : Nat} {count : Chords → Chords} {e : Dev} (st : RayState) (hwf : Store.wf {} d.core.rays = true)
    (h : LeavesDecide r gd v count (d.setRay r { d.ray r with st := st }) e) : LeavesDecide r gd v count d e where
  own := by
    rw [h.own, Dev.ray_setRay_same hwf]
    rfl
  chords := h.chords
  others := .trans (.of_set rfl) h.others

theorem doDecideResolve_waiting (hst : (d.ray r).st = .chord gd tb) (hrun : raysRun d = true) (x : Ctx) :
    doDecideResolve r x d = resolve r gd tb false d := by
  simp only [doDecideResolve, hst, hrun]
  rfl

theorem doDecideDeadline_waiting {m : Nat} (hst : (d.ray r).st = .chord gd tb) (hrun : raysRun d = true)
    (hfixed : fixedMer d (d.ray r).shot = some m) (x : Ctx) : doDecideDeadline r x d =
      resolve r gd tb true (advanceTo (m + (tableFor d tb (d.ray r).shot).deadline) d) := by
  simp only [doDecideDeadline, hst, hfixed, hrun]
  rfl

end

/-- Settles O40: each of the three rows resolves its table, with every chord asked for there, or late with one absent. -/
theorem decideWritesItsEntryOrItsFallback : Obligations.DecideWritesItsEntryOrItsFallback := by
  intro r w gd tb s hwf y t asks entry left
  have hleft (i : Instr) (v : Nat) (count : Chords → Chords) {f : Ctx → Dev → Dev} {e : Dev} (hi : exec i s = .next (s.on f))
      (hf : f s.ctx s.dev = e) (he : LeavesDecide r gd v count s.dev e) : left i v count := by
    subst hf
    exact ⟨_, hi, he.own, he.chords, fun q hq => he.others q (Fin.val_ne_of_ne hq)⟩
  refine ⟨fun hall => ⟨fun hat hop hgd htb hopen => ?_, fun hst hrun => ?_⟩, fun hstated habsent hst hrun hfixed => ?_⟩
  · subst hgd htb
    refine hleft (.rayDecide r) entry countDecision rfl ((rayExec_rayAt hat hop).trans (if_pos hopen)) ?_
    refine .of_waiting (.chord (bits w 55 52) (bits w 51 46)) hwf ?_
    refine resolve_entry (d := s.dev.setRay r { y with st := .chord (bits w 55 52) (bits w 51 46) }) (Store.wf_set hwf) ?_ _ hall
    rw [Dev.ray_setRay_same hwf]
  · exact hleft (.decideResolve r) entry countDecision rfl (doDecideResolve_waiting hst hrun s.ctx) (resolve_entry hwf rfl false hall)
  · obtain ⟨m, hm⟩ := Option.isSome_iff_exists.mp hfixed
    obtain ⟨hown, hchords, hothers⟩ := resolve_fallback (d := advanceTo (m + t.deadline) s.dev) hwf rfl hstated habsent
    exact hleft (.decideDeadline r) t.fallback countLate rfl (doDecideDeadline_waiting hst hrun hm s.ctx) ⟨hown, hchords, hothers⟩

end Sys2Proof.Machine
end

section
/-! General registers (R238): the rows that keep those of every ray, and the rows that step one ray alone. -/

namespace Sys2Proof.Machine

/-- From `d` to `e` no general register of any ray changes. -/
def KeepsRegs (d e : Dev) : Prop := Store.wf {} d.core.rays = true → Store.wf {} e.core.rays = true ∧ ∀ q, (e.ray q).g = (d.ray q).g

section
variable {d e f : Dev}

theorem KeepsRegs.refl (d : Dev) : KeepsRegs d d := fun hwf => ⟨hwf, fun _ => rfl⟩

theorem KeepsRegs.trans (h : KeepsRegs d e) (g : KeepsRegs e f) : KeepsRegs d f := fun hwf => by
  obtain ⟨hwf1, h1⟩ := h hwf
  obtain ⟨hwf2, h2⟩ := g hwf1
  exact ⟨hwf2, fun q => (h2 q).trans (h1 q)⟩

theorem KeepsRegs.of_rays (h : e.core.rays = d.core.rays) : KeepsRegs d e := fun hwf =>
  ⟨h ▸ hwf, fun q => by rw [Dev.ray, h, Dev.ray]⟩

theorem KeepsRegs.ite {p : Prop} [Decidable p] (he : KeepsRegs d e) (hf : KeepsRegs d f) : KeepsRegs d (if p then e else f) := by
  split
  · exact he
  · exact hf

end

/-- A change of one ray that leaves its registers. -/
theorem KeepsRegs.of_set {d e : Dev} {r : Nat} {y : Ray} (h : e.core.rays = Store.set {} d.core.rays r y)
    (hg : y.g = (d.ray r).g := by rfl) : KeepsRegs d e := fun hwf => by
  refine ⟨h ▸ Store.wf_set hwf, fun q => ?_⟩
  rw [Dev.ray, h]
  by_cases hq : q = r
  · rw [hq, Store.get_set_same hwf, hg]
  · rw [Store.get_set_other hq, Dev.ray]

theorem keepsRegs_foldl {α : Type} (g : Dev → α → Dev) (hg : ∀ d a, KeepsRegs d (g d a)) (xs : List α) (d : Dev) :
    KeepsRegs d (xs.foldl g d) :=
  List.foldlRecOn (motive := KeepsRegs d) xs g (.refl d) fun e h a _ => h.trans (hg e a)

theorem keepsRegs_releaseBarrier (p : Prog) (b k : Nat) (d : Dev) : KeepsRegs d (releaseBarrier p b k d) :=
  .ite (keepsRegs_foldl _ (fun _ _ => .of_set rfl) _ d) (.refl d)

theorem keepsRegs_releaseBarriers (d : Dev) : KeepsRegs d (releaseBarriers d) := by
  unfold releaseBarriers
  split
  · exact .refl d
  · refine keepsRegs_foldl _ (fun e r => ?_) _ d
    split
    · exact keepsRegs_releaseBarrier _ _ _ e
    · exact .refl e

theorem failShot_rays (k : Nat) (f : ShotFail) (items : Nat) (d : Dev) : (failShot k f items d).core.rays = d.core.rays := rfl

theorem countDiscard_core (noPort : Bool) (stage cause : Nat) (d : Dev) : (countDiscard noPort stage cause d).core = d.core := rfl

theorem keepsRegs_discardItem {cause : Nat} {t : Tok} (ht : t.kind ≠ .window) (d : Dev) : KeepsRegs d (discardItem cause t d) := by
  refine .of_rays ?_
  unfold discardItem
  rw [if_neg ht, failShot_rays, countDiscard_core, raise_core]

theorem keepsRegs_applyFrame (t : Tok) (d : Dev) : KeepsRegs d (applyFrame t d).1 := by
  obtain ⟨fs, h⟩ := (FramesOnly.refl d).applyFrame t
  exact .of_rays (by rw [h])

theorem keepsRegs_frameTokenApply (r : Nat) (x : Ctx) (d : Dev) : KeepsRegs d (doFrameTokenApply r x d) := by
  unfold doFrameTokenApply
  split
  · exact .refl d
  · split
    · exact .refl d
    · exact (keepsRegs_applyFrame _ d).trans (.of_rays rfl)

/-! The rows. -/

section
variable {r : Nat} {d : Dev}

theorem keepsRegs_rayExec {op : Nat} {f : Nat → Ray → Dev → Dev} (hf : ∀ w, KeepsRegs d (f w (d.ray r) d)) :
    KeepsRegs d (rayExec op r f d) := rayExec_rec (.refl d) hf

theorem keepsRegs_whenOpen {g : Dev → Dev} (hg : KeepsRegs d (g d)) : KeepsRegs d (whenOpen r (d.ray r) g d) :=
  .ite hg (.of_set rfl)

theorem keepsRegs_playWord (stream : Bool) (w : Nat) : KeepsRegs d (playWord stream r w (d.ray r) d) := by
  refine keepsRegs_whenOpen (.ite ?_ (.ite (.of_set rfl) (.of_set rfl)))
  exact .trans (.of_set rfl) (keepsRegs_discardItem (by simp) (d.setRay r (d.ray r).next))

theorem keepsRegs_halt (x : Ctx) : KeepsRegs d (doHalt r x d) :=
  keepsRegs_rayExec fun _ => .trans (.of_set rfl) (keepsRegs_releaseBarriers _)

theorem keepsRegs_merid (x : Ctx) : KeepsRegs d (doMerid r x d) :=
  keepsRegs_rayExec fun _ => .ite (.of_set rfl) (.of_set rfl)

theorem keepsRegs_barr (x : Ctx) : KeepsRegs d (doBarr r x d) :=
  keepsRegs_rayExec fun _ => .trans (.of_set rfl) (keepsRegs_releaseBarriers _)

theorem keepsRegs_acq (x : Ctx) : KeepsRegs d (doAcq r x d) :=
  keepsRegs_rayExec fun _ => keepsRegs_whenOpen (.ite (.of_set rfl) (.of_set rfl))

theorem keepsRegs_mark (x : Ctx) : KeepsRegs d (doMark r x d) :=
  keepsRegs_rayExec fun _ => keepsRegs_whenOpen (.ite (.of_set rfl) (.of_set rfl))

theorem Ray.g_ite {p : Prop} [Decidable p] {y z : Ray} (h : y.g = z.g) : (if p then y else z).g = z.g := by
  split
  · exact h
  · rfl

theorem keepsRegs_loop (x : Ctx) : KeepsRegs d (doLoop r x d) :=
  keepsRegs_rayExec fun _ => .of_set rfl (Ray.g_ite rfl)

theorem keepsRegs_endl (x : Ctx) : KeepsRegs d (doEndl r x d) := by
  refine keepsRegs_rayExec fun _ => ?_
  split
  · exact .of_set rfl
  · exact .of_set rfl (Ray.g_ite rfl)

theorem keepsRegs_br (x : Ctx) : KeepsRegs d (doBr r x d) :=
  keepsRegs_rayExec fun _ => .of_set rfl (Ray.g_ite rfl)

theorem keepsOthers_rayExec {op : Nat} {f : Nat → Ray → Dev → Dev} (hf : ∀ w, KeepsOthers r d (f w (d.ray r) d)) :
    KeepsOthers r d (rayExec op r f d) := rayExec_rec (.refl r d) hf

theorem keepsOthers_resolve (gd tb : Nat) (late : Bool) : KeepsOthers r d (resolve r gd tb late d) := by
  unfold resolve
  dsimp only
  split
  · exact .of_set rfl
  · split
    · exact .of_set rfl
    · split
      · exact .of_set rfl
      · exact .refl r d

theorem keepsOthers_decide (x : Ctx) : KeepsOthers r d (doDecide r x d) := by
  refine keepsOthers_rayExec fun w => ?_
  unfold whenOpen
  split
  · exact .trans (.of_set rfl) (keepsOthers_resolve _ _ _)
  · exact .of_set rfl

theorem keepsOthers_decideResolve (x : Ctx) : KeepsOthers r d (doDecideResolve r x d) := by
  unfold doDecideResolve
  split
  · split
    · exact keepsOthers_resolve _ _ _
    · exact .refl r d
  · exact .refl r d

theorem keepsOthers_decideDeadline (x : Ctx) : KeepsOthers r d (doDecideDeadline r x d) := by
  unfold doDecideDeadline
  split
  · dsimp only
    split
    · exact .refl r d
    · split
      · exact keepsOthers_resolve (d := advanceTo _ d) _ _ _
      · exact .refl r d
  · exact .refl r d

end

/-- Settles O41: a row that writes registers steps its own ray alone, and every other row keeps the registers of every ray. -/
theorem onlySetgAddgAndDecideWriteARegister : Obligations.OnlySetgAddgAndDecideWriteARegister := by
  intro i q n s t hwf hrow hexec hne
  have hkept {f : Ctx → Dev → Dev} (hf : KeepsRegs s.dev (f s.ctx s.dev)) (h : exec i s = .next (s.on f)) : False := by
    obtain rfl := Host.Outcome.next.inj (h.symm.trans hexec)
    exact hne (congrArg (Store.get 0 · n) ((hf hwf).2 q))
  have hown {f : Ctx → Dev → Dev} {r : Fin 128} (hf : KeepsOthers r s.dev (f s.ctx s.dev)) (h : exec i s = .next (s.on f)) : r = q := by
    obtain rfl := Host.Outcome.next.inj (h.symm.trans hexec)
    by_contra hqr
    exact hne (congrArg (fun y => Store.get 0 (Ray.g y) n) (hf q (Fin.val_ne_of_ne (Ne.symm hqr))))
  cases i with
  | rayHalt r => exact (hkept (keepsRegs_halt s.ctx) rfl).elim
  | rayMerid r => exact (hkept (keepsRegs_merid s.ctx) rfl).elim
  | rayBarr r => exact (hkept (keepsRegs_barr s.ctx) rfl).elim
  | rayAt r => exact (hkept (f := doAt r) (keepsRegs_rayExec fun _ => .of_set rfl) rfl).elim
  | rayWait r => exact (hkept (f := doWait r) (keepsRegs_rayExec fun _ => .of_set rfl) rfl).elim
  | rayPlay r => exact (hkept (f := doPlay r) (keepsRegs_rayExec (keepsRegs_playWord false)) rfl).elim
  | rayPlays r => exact (hkept (f := doPlays r) (keepsRegs_rayExec (keepsRegs_playWord true)) rfl).elim
  | raySetf r => exact (hkept (f := doSetf r) (keepsRegs_rayExec fun _ => keepsRegs_whenOpen (.of_set rfl)) rfl).elim
  | rayVz r => exact (hkept (f := doVz r) (keepsRegs_rayExec fun _ => keepsRegs_whenOpen (.of_set rfl)) rfl).elim
  | rayAcq r => exact (hkept (keepsRegs_acq s.ctx) rfl).elim
  | rayMark r => exact (hkept (keepsRegs_mark s.ctx) rfl).elim
  | rayLoop r => exact (hkept (keepsRegs_loop s.ctx) rfl).elim
  | rayEndl r => exact (hkept (keepsRegs_endl s.ctx) rfl).elim
  | rayJump r => exact (hkept (f := doJump r) (keepsRegs_rayExec fun _ => .of_set rfl) rfl).elim
  | rayBr r => exact (hkept (keepsRegs_br s.ctx) rfl).elim
  | frameTokenApply r => exact (hkept (keepsRegs_frameTokenApply r s.ctx s.dev) rfl).elim
  | raySetg r => exact .inl (congrArg _ (hown (f := doSetg r) (keepsOthers_rayExec fun _ => .of_set rfl) rfl))
  | rayAddg r => exact .inr (.inl (congrArg _ (hown (f := doAddg r) (keepsOthers_rayExec fun _ => .of_set rfl) rfl)))
  | rayDecide r => exact .inr (.inr (.inl (congrArg _ (hown (keepsOthers_decide s.ctx) rfl))))
  | decideResolve r => exact .inr (.inr (.inr (.inl (congrArg _ (hown (keepsOthers_decideResolve s.ctx) rfl)))))
  | decideDeadline r => exact .inr (.inr (.inr (.inr (congrArg _ (hown (keepsOthers_decideDeadline s.ctx) rfl)))))
  | _ => exact hrow.elim

end Sys2Proof.Machine
end

section
/-! The read-out chain and chord reads (R250 to R263, R274, R330, R332): the commands that return counters and clear them, and what the
state instant of a window leaves of its stage, its channel and its port. -/

namespace Sys2Proof.Machine

/-! Commands (R274, R332). -/

/-- CLEAR of RO_CH_READ clears the counters of its channel, and nothing else of it. -/
theorem roChRead_clears {x : Ctx} {c : Cmd} {d : Dev} (hclear : bitOf (c.arg 2 1) 1 = true) (hd : d.chans.Rises) :
    (roChReadSpec.act x c d).chan c.chanArg = { d.chan c.chanArg with windows := 0, states := [] } := by
  have hact : ∃ out, roChReadSpec.act x c d =
      okCmd c 0x0500 0 out false (d.setChan c.chanArg { d.chan c.chanArg with windows := 0, states := [] }) := by
    simp only [roChReadSpec, hclear, Bool.not_true, if_true]
    exact ⟨_, rfl⟩
  obtain ⟨out, hact⟩ := hact
  rw [hact, Dev.chan, (reports_okCmd ..).1]
  exact hd.get_set_same _ _

/-- CH_STATUS answers with its counters, and CLEAR leaves of them the store alone. -/
theorem chStatus_act_eq (x : Ctx) (c : Cmd) (d : Dev) : chStatusSpec.act x c d =
    let n := d.chords
    let out := le 1 d.domain.dev ++ zeros 7 ++ le 8 n.fastSent ++ le 8 n.slowSent ++ le 8 n.missingSent ++ le 8 n.remoteRecv ++
      le 8 n.decisions ++ le 8 n.fbMissing ++ le 8 n.fbLate ++ le 8 n.slotDefer ++ le 8 d.time.lat ++ zeros 8
    if bitOf (c.arg 0 1) 0 then okCmd c 0x0500 0 out false { d with chords := { store := n.store } } else okCmd c 0x0500 0 out true d := by
  cases hclear : bitOf (c.arg 0 1) 0 <;> simp [chStatusSpec, hclear]

/-! Entries, chords and passed results (R261, R262, R291, R293, R309). -/

/-- Between `d` and `e` no port, no channel and no stage differs. -/
structure KeepsWindows (d e : Dev) : Prop where
  ports : e.ports = d.ports
  chans : e.chans = d.chans
  stages : e.stages = d.stages

section
variable {d e f : Dev}

theorem KeepsWindows.refl (d : Dev) : KeepsWindows d d := ⟨rfl, rfl, rfl⟩

theorem KeepsWindows.trans (h : KeepsWindows d e) (g : KeepsWindows e f) : KeepsWindows d f :=
  ⟨g.ports.trans h.ports, g.chans.trans h.chans, g.stages.trans h.stages⟩

/-- Such a step after an update of other fields. -/
theorem KeepsWindows.after (g : KeepsWindows e f) (hports : e.ports = d.ports) (hchans : e.chans = d.chans)
    (hstages : e.stages = d.stages) : KeepsWindows d f := .trans ⟨hports, hchans, hstages⟩ g

theorem KeepsWindows.ite {p : Prop} [Decidable p] (he : KeepsWindows d e) (hf : KeepsWindows d f) :
    KeepsWindows d (if p then e else f) := by
  split
  · exact he
  · exact hf

theorem Raised.keepsWindows (h : Raised d e) : KeepsWindows d e := ⟨by rw [h.frame], by rw [h.frame], by rw [h.frame]⟩

end

theorem keepsWindows_failShot (k : Nat) (f : ShotFail) (items : Nat) (d : Dev) : KeepsWindows d (failShot k f items d) := ⟨rfl, rfl, rfl⟩

theorem keepsWindows_event (src inst arg : Nat) (d : Dev) : KeepsWindows d (event src inst arg d) := (raised_event src inst arg d).keepsWindows

theorem keepsWindows_offerResult (ring : Nat) (o : Offer) (d : Dev) : KeepsWindows d (offerResult ring o d) := by
  unfold offerResult
  split
  · exact ⟨rfl, rfl, rfl⟩
  · split
    · exact keepsWindows_event ..
    · extract_lets r d1
      have h1 : KeepsWindows d d1 := keepsWindows_failShot ..
      exact .ite h1 (h1.trans ((keepsWindows_event ..).after rfl rfl rfl))

theorem keepsWindows_exportChord (c : Chord) (d : Dev) : KeepsWindows d (exportChord c d) :=
  List.foldlRecOn (motive := KeepsWindows d) _ _ (.refl d) fun _ h _ _ => h.trans (.ite ⟨rfl, rfl, rfl⟩ (.refl _))

theorem keepsWindows_sendChord (slow : Bool) (chan ord shot : Nat) (st : Option (BitVec 2)) (d : Dev) :
    KeepsWindows d (sendChord slow chan ord shot st d) := by
  unfold sendChord
  extract_lets c n d1
  exact .ite (.refl d) ((keepsWindows_exportChord c _).after rfl rfl rfl)

theorem keepsWindows_offerPost (ring : Nat) (q : RpResult) (bytes : List Byte) (cause : Nat) (d : Dev) :
    KeepsWindows d (offerPost ring q bytes cause d) := by
  unfold offerPost
  extract_lets f d1
  have h1 : KeepsWindows d d1 := .ite (.refl d) (keepsWindows_failShot ..)
  exact h1.trans (keepsWindows_offerResult ..)

theorem keepsWindows_dropPost (p : Nat) (q : RpResult) (cause : Nat) (d : Dev) : KeepsWindows d (dropPost p q cause d) := by
  unfold dropPost
  extract_lets r v0 v1 w own ring tag counted d1 d2
  have h2 : KeepsWindows d d2 := ⟨rfl, rfl, rfl⟩
  exact (h2.trans (keepsWindows_offerPost ..)).trans (keepsWindows_sendChord ..)

theorem keepsWindows_passResult (p : Nat) (q : RpResult) (d : Dev) : KeepsWindows d (passResult p q d) := by
  unfold passResult
  extract_lets r
  have hqueued (v : Rp) : KeepsWindows d (d.setRp p v) := ⟨rfl, rfl, rfl⟩
  exact .ite (keepsWindows_dropPost ..) (.ite (keepsWindows_dropPost ..) (hqueued _))

/-! The samples counted (R250, R253). -/

/-- Between `d` and `e` no stage differs, port `i` keeps its count of windows and since when it is idle, and channel `c` its counts of
windows and states. -/
structure KeepsWindowCounts (i c : Nat) (d e : Dev) : Prop where
  stages : e.stages = d.stages
  portsRise : d.ports.Rises → e.ports.Rises
  chansRise : d.chans.Rises → e.chans.Rises
  port : d.ports.Rises → (e.port i).windows = (d.port i).windows ∧ (e.port i).lastBusy = (d.port i).lastBusy
  chan : d.chans.Rises → (e.chan c).windows = (d.chan c).windows ∧ (e.chan c).states = (d.chan c).states

section
variable {i c : Nat} {d e f : Dev}

theorem KeepsWindows.counts (h : KeepsWindows d e) : KeepsWindowCounts i c d e where
  stages := h.stages
  portsRise hd := h.ports ▸ hd
  chansRise hd := h.chans ▸ hd
  port _ := by simp only [Dev.port, h.ports, and_self]
  chan _ := by simp only [Dev.chan, h.chans, and_self]

theorem KeepsWindowCounts.trans (h : KeepsWindowCounts i c d e) (g : KeepsWindowCounts i c e f) : KeepsWindowCounts i c d f where
  stages := g.stages.trans h.stages
  portsRise := g.portsRise ∘ h.portsRise
  chansRise := g.chansRise ∘ h.chansRise
  port hd :=
    have hg := g.port (h.portsRise hd)
    have hh := h.port hd
    ⟨hg.1.trans hh.1, hg.2.trans hh.2⟩
  chan hd :=
    have hg := g.chan (h.chansRise hd)
    have hh := h.chan hd
    ⟨hg.1.trans hh.1, hg.2.trans hh.2⟩

theorem KeepsWindowCounts.ite {p : Prop} [Decidable p] (he : KeepsWindowCounts i c d e) (hf : KeepsWindowCounts i c d f) :
    KeepsWindowCounts i c d (if p then e else f) := by
  split
  · exact he
  · exact hf

theorem keepsWindowCounts_refl (i c : Nat) (d : Dev) : KeepsWindowCounts i c d d := (KeepsWindows.refl d).counts

theorem Dev.chan_setChan_same (h : d.chans.Rises) (c : Nat) (q : Chan) : (d.setChan c q).chan c = q := h.get_set_same c q

theorem keepsWindowCounts_setPort {p : Port} (hwindows : p.windows = (d.port i).windows) (hbusy : p.lastBusy = (d.port i).lastBusy) :
    KeepsWindowCounts i c d (d.setPort i p) where
  stages := rfl
  portsRise hd := hd.set i p
  chansRise hd := hd
  port hd := by rw [Dev.port_setPort_same hd]; exact ⟨hwindows, hbusy⟩
  chan _ := ⟨rfl, rfl⟩

theorem keepsWindowCounts_setChan {q : Chan} (hwindows : q.windows = (d.chan c).windows) (hstates : q.states = (d.chan c).states) :
    KeepsWindowCounts i c d (d.setChan c q) where
  stages := rfl
  portsRise hd := hd
  chansRise hd := hd.set c q
  port _ := ⟨rfl, rfl⟩
  chan hd := by rw [Dev.chan_setChan_same hd]; exact ⟨hwindows, hstates⟩

end

theorem keepsWindows_onShot (k : Nat) (g : Shot → Shot) (d : Dev) : KeepsWindows d (onShot k g d) := ⟨rfl, rfl, rfl⟩

theorem keepsWindowCounts_countEnds (k i n c : Nat) (d : Dev) : KeepsWindowCounts i c d (countEnds k i n d) := by
  unfold countEnds
  extract_lets p
  have hport : KeepsWindowCounts i c d (d.setPort i { p with overRange := addW 64 p.overRange n }) := keepsWindowCounts_setPort rfl rfl
  exact .ite (keepsWindowCounts_refl i c d) (hport.trans (keepsWindows_onShot k _ _).counts)

theorem keepsWindowCounts_countSats (k c n i : Nat) (d : Dev) : KeepsWindowCounts i c d (countSats k c n d) := by
  unfold countSats
  extract_lets q a
  have hchan : KeepsWindowCounts i c d (d.setChan c { q with saturated := addW 32 q.saturated n }) := keepsWindowCounts_setChan rfl rfl
  exact .ite (keepsWindowCounts_refl i c d) (hchan.trans (keepsWindows_onShot k _ _).counts)

theorem keepsWindowCounts_countSamples (t : Tok) (sats ends : Nat) (d : Dev) :
    KeepsWindowCounts t.stage t.chan d (countSamples t sats ends d) :=
  .ite (keepsWindowCounts_refl _ _ d) ((keepsWindowCounts_countSats ..).trans (keepsWindowCounts_countEnds ..))

theorem keepsWindowCounts_markCounted (i c t8 n now8 : Nat) (d : Dev) : KeepsWindowCounts i c d (markCounted i t8 n now8 d) :=
  keepsWindowCounts_setPort rfl rfl

theorem countEnds_chans (k i n : Nat) (d : Dev) : (countEnds k i n d).chans = d.chans := by
  unfold countEnds
  split <;> rfl

/-- The samples that saturated are added to those of the channel. -/
theorem countSats_saturated {c : Nat} {d : Dev} (hd : d.chans.Rises) (k n : Nat) (hlt : (d.chan c).saturated < 2 ^ 32) :
    ((countSats k c n d).chan c).saturated = ((d.chan c).saturated + n) % 2 ^ 32 := by
  unfold countSats
  split
  · next hzero => rw [hzero, Nat.add_zero, Nat.mod_eq_of_lt hlt]
  · exact congrArg Chan.saturated (Dev.chan_setChan_same hd c _)

theorem countSamples_saturated {t : Tok} {d : Dev} (hd : d.chans.Rises) (sats ends : Nat) (hshot : (shotOf d t.shot).isSome = true)
    (hlt : (d.chan t.chan).saturated < 2 ^ 32) :
    ((countSamples t sats ends d).chan t.chan).saturated = ((d.chan t.chan).saturated + sats) % 2 ^ 32 := by
  have hundecided : ¬(shotOf d t.shot).isNone = true := by simpa [Option.isSome_iff_ne_none] using hshot
  rw [countSamples, if_neg hundecided, Dev.chan, countEnds_chans]
  exact countSats_saturated hd _ _ hlt

/-! The state (R257 to R261). -/

/-- The samples of a window, of the codes from its opening on, each with whether it saturated. -/
def windowSamples (t : Tok) (adc : List (BitVec 12)) (d : Dev) : List (IQ × Bool) :=
  channelSamples d t.chan (chanFor (d.chan t.chan) t.shot) t.trim (eighths (vertexFine d t)) t.len adc

/-- The state of the boundaries that hold on samples. -/
def stateOn (g : ChanCfg) (xs : List (IQ × Bool)) : Nat :=
  let ix := boundIndex g (integrate g (xs.map (·.1)))
  bits g.map (2 * ix + 1) (2 * ix)

/-- The device once the saturated samples and the end codes of a window have been counted. -/
def samplesCounted (t : Tok) (adc : List (BitVec 12)) (d : Dev) : Dev :=
  let open8 := eighths (vertexFine d t)
  markCounted t.stage open8 (8 * t.len) (8 * d.time.lat) (countSamples t ((windowSamples t adc d).filter (·.2)).length
    (endCodes (d.port t.stage) open8 (adc.take (8 * t.len))) (useFree d))

/-- The state of a window counts for its channel, and the window for its channel and its port. -/
def countState (t : Tok) (st : Nat) (d : Dev) : Dev :=
  let q := d.chan t.chan
  let p := d.port t.stage
  (d.setChan t.chan { q with windows := addW 64 q.windows 1,
                             states := Store.set 0 q.states st (addW 32 (Store.get 0 q.states st) 1) }).setPort t.stage
    { p with windows := addW 64 p.windows 1 }

/-- After the counts, what a state leaves is the fabric's, the rings' and the read-out processors'. -/
theorem stateOf_counts (t : Tok) (adc : List (BitVec 12)) (d : Dev) :
    KeepsWindows (countState t (stateOn (chanFor (d.chan t.chan) t.shot) (windowSamples t adc d)) (samplesCounted t adc d))
      (stateOf t adc d) := by
  unfold stateOf
  extract_lets q g open8 xs s ix st inv cause fl ord d1 q1 p1 d2 d3 d4 d5
  have h3 : KeepsWindows d2 d3 := .ite (.refl d2) (keepsWindows_failShot ..)
  have h5 : KeepsWindows d2 d5 := (h3.trans (keepsWindows_sendChord ..)).trans (keepsWindows_offerResult ..)
  exact .ite (h5.trans (keepsWindows_passResult ..)) h5

theorem keepsWindowCounts_samplesCounted (t : Tok) (adc : List (BitVec 12)) (d : Dev) :
    KeepsWindowCounts t.stage t.chan d (samplesCounted t adc d) :=
  have hfree : KeepsWindows d (useFree d) := ⟨rfl, rfl, rfl⟩
  (hfree.counts.trans (keepsWindowCounts_countSamples ..)).trans (keepsWindowCounts_markCounted ..)

/-- What a state leaves of its window's channel, port and stages. -/
structure StateCounted (t : Tok) (st : Nat) (xs : List (IQ × Bool)) (d e : Dev) : Prop where
  stages : e.stages = d.stages
  windows : (e.chan t.chan).windows = ((d.chan t.chan).windows + 1) % 2 ^ 64
  states : (e.chan t.chan).states =
    Store.set 0 (d.chan t.chan).states st ((Store.get 0 (d.chan t.chan).states st + 1) % 2 ^ 32)
  portWindows : (e.port t.stage).windows = ((d.port t.stage).windows + 1) % 2 ^ 64
  lastBusy : (e.port t.stage).lastBusy = (d.port t.stage).lastBusy
  saturated : (d.chan t.chan).saturated < 2 ^ 32 → (shotOf d t.shot).isSome = true →
    (e.chan t.chan).saturated = ((d.chan t.chan).saturated + (xs.filter (·.2)).length) % 2 ^ 32

theorem stateOf_stateCounted {t : Tok} {adc : List (BitVec 12)} {d : Dev} (hports : d.ports.Rises) (hchans : d.chans.Rises) :
    StateCounted t (stateOn (chanFor (d.chan t.chan) t.shot) (windowSamples t adc d)) (windowSamples t adc d) d (stateOf t adc d) := by
  have hafter := stateOf_counts t adc d
  have hcounts := keepsWindowCounts_samplesCounted t adc d
  have hsaturated (hlt : (d.chan t.chan).saturated < 2 ^ 32) (hshot : (shotOf d t.shot).isSome = true) :
      ((samplesCounted t adc d).chan t.chan).saturated = ((d.chan t.chan).saturated + ((windowSamples t adc d).filter (·.2)).length) % 2 ^ 32 :=
    countSamples_saturated (d := useFree d) hchans _ _ hshot hlt
  generalize samplesCounted t adc d = d1 at hafter hcounts hsaturated
  generalize stateOn _ _ = st at hafter ⊢
  obtain ⟨hwindows, hstates⟩ := hcounts.chan hchans
  obtain ⟨hportWindows, hbusy⟩ := hcounts.port hports
  have hchan : (stateOf t adc d).chan t.chan = { d1.chan t.chan with
      windows := addW 64 (d1.chan t.chan).windows 1
      states := Store.set 0 (d1.chan t.chan).states st (addW 32 (Store.get 0 (d1.chan t.chan).states st) 1) } := by
    rw [Dev.chan, hafter.chans]
    exact Dev.chan_setChan_same (hcounts.chansRise hchans) _ _
  have hport : (stateOf t adc d).port t.stage = { d1.port t.stage with windows := addW 64 (d1.port t.stage).windows 1 } := by
    rw [Dev.port, hafter.ports]
    exact (hcounts.portsRise hports).get_set_same _ _
  exact {
    stages := hafter.stages.trans hcounts.stages
    windows := by rw [hchan, hwindows, addW]
    states := by rw [hchan, hstates]; rfl
    portWindows := by rw [hport, hportWindows, addW]
    lastBusy := by rw [hport, hbusy]
    saturated := fun hlt hshot => by rw [hchan]; exact hsaturated hlt hshot }

/-! The state instant (R261). -/

/-- Noting up to when a port was busy changes ports alone. -/
theorem noteBusy_frame (i : Nat) (d : Dev) : noteBusy i d = { d with ports := (noteBusy i d).ports } := by
  unfold noteBusy
  extract_lets s ago ts p
  split <;> rfl

/-- It does not touch the port's count of windows. -/
theorem noteBusy_windows {d : Dev} (hd : d.ports.Rises) (i : Nat) : ((noteBusy i d).port i).windows = (d.port i).windows := by
  unfold noteBusy
  extract_lets s ago ts p
  split
  · rfl
  · rw [Dev.port_setPort_same hd]

/-- The device at a window's state instant: time has come to its filter's latency after its close. -/
def atInstant (t : Tok) (d : Dev) : Dev :=
  noteBusy t.stage (advanceTo (((eighths (vertexFine d t) + 7) / 8 + t.len + filterLatency (chanFor (d.chan t.chan) t.shot).filter) % 2 ^ 64) d)

/-- The window has gone from its stage. -/
def windowGone (t : Tok) (d : Dev) : Dev :=
  (atInstant t d).setStage t.stage { d.stage t.stage with playing := (d.stage t.stage).playing.erase t }

theorem stateInstant_window {adc : List (BitVec 12)} {x : Ctx} {d : Dev} {t : Tok} (hstage : t.stage = 84 + t.chan / 16)
    (hfind : (d.stage t.stage).playing.find? (fun u => u.chan = t.chan) = some t) :
    stateInstant t.chan adc x d = stateOf t adc (windowGone t d) := by
  rw [hstage] at hfind
  simp only [stateInstant, hfind, windowGone, atInstant, hstage]

theorem atInstant_frame (t : Tok) (d : Dev) :
    atInstant t d = { d with time := (atInstant t d).time, ports := (atInstant t d).ports } := by
  unfold atInstant
  rw [noteBusy_frame]
  rfl

section
variable (t : Tok) (d : Dev)

theorem windowGone_chans : (windowGone t d).chans = d.chans := by
  rw [windowGone, Dev.setStage_chans, atInstant_frame]

theorem windowGone_chan (c : Nat) : (windowGone t d).chan c = d.chan c := by
  rw [Dev.chan, windowGone_chans, Dev.chan]

theorem windowGone_shotOf (k : Nat) : shotOf (windowGone t d) k = shotOf d k := by
  rw [shotOf, windowGone, Dev.setStage_core, atInstant_frame, shotOf]

theorem windowGone_stage (h : Store.wf {} d.stages = true) :
    (windowGone t d).stage t.stage = { d.stage t.stage with playing := (d.stage t.stage).playing.erase t } := by
  refine Dev.stage_setStage_same ?_ _ _
  rw [atInstant_frame]
  exact h

theorem windowGone_portsRise (h : d.ports.Rises) : (windowGone t d).ports.Rises := by
  rw [windowGone, Dev.setStage_ports]
  exact (keepsPortCfgs_noteBusy _ _).rises h

theorem windowGone_windows (h : d.ports.Rises) : ((windowGone t d).port t.stage).windows = (d.port t.stage).windows := by
  change ((atInstant t d).port t.stage).windows = _
  exact noteBusy_windows (d := advanceTo _ d) h t.stage

/-- The samples are those of the codes at the state instant, whatever the stage then holds. -/
theorem windowSamples_windowGone (adc : List (BitVec 12)) : windowSamples t adc (windowGone t d) =
    channelSamples (atInstant t d) t.chan (chanFor (d.chan t.chan) t.shot) t.trim (eighths (vertexFine (atInstant t d) t)) t.len adc := by
  rw [windowSamples, windowGone_chan]
  rfl

end

/-- Settles O43: the commands are their rows' effects; the state instant is `stateOf` on a device whose stage the window has left, and what
the state leaves after its counts touches no port, channel or stage. -/
theorem readoutAndChordRows : Obligations.ReadoutAndChordRows := by
  intro mb h s c
  refine ⟨fun hb => ⟨cmdRow_begins hb, fun hclear _ hwf => ⟨_, cmdRow_begins hb, ?_⟩⟩, fun hb => cmdRow_effect hb rfl,
    fun hb => cmdRow_effect hb (chStatus_act_eq _ c _), ?_⟩
  · obtain ⟨us, hdev⟩ := s.during_dev h c fun x d => roChReadSpec.act x c d
    rw [hdev]
    exact roChRead_clears (d := putCmd c (s.sync h).dev) hclear (Store.rises_of_wf hwf)
  · rintro ⟨chan, hlt⟩ adc tail t stage hstage hfind rfl rfl hchans hports hstages g e xs ix st q
    have hxs : windowSamples t (adc ++ tail) (windowGone t s.dev) = xs := windowSamples_windowGone t s.dev _
    have hcounted := stateOf_stateCounted (t := t) (adc := adc ++ tail) (windowGone_portsRise t s.dev (Store.rises_of_wf hports))
      (windowGone_chans t s.dev ▸ Store.rises_of_wf hchans)
    rw [← stateInstant_window (x := s.ctx) hstage hfind, hxs] at hcounted
    obtain ⟨hstagesKept, hwindows, hstates, hportWindows, hbusy, hsaturated⟩ := hcounted
    rw [windowGone_chan] at hwindows hstates hsaturated
    rw [windowGone_windows t s.dev (Store.rises_of_wf hports)] at hportWindows
    rw [windowGone_shotOf] at hsaturated
    refine ⟨_, rfl, ?_, hwindows, hstates, hbusy, hportWindows, hsaturated⟩
    exact congrArg Stage.playing ((Dev.stage_congr hstagesKept t.stage).trans (windowGone_stage t s.dev hstages))

end Sys2Proof.Machine
end

section
/-! Accumulators, pointers and memory of a read-out processor (R275, R276, R280 to R285): what each operation on them leaves, and what the
arithmetic made of these operations leaves of them. -/

namespace Sys2Proof.Machine

/-! Saturation (R283, R285). -/

theorem satTo_fits (n : Nat) (v : Int) : -(2 ^ (n - 1)) ≤ satTo n v ∧ satTo n v < 2 ^ (n - 1) := by
  have hpos : (0 : Int) < 2 ^ (n - 1) := by positivity
  unfold satTo clampI
  generalize (2 : Int) ^ (n - 1) = bound at hpos ⊢
  split_ifs <;> omega

section
variable {r : Rp} {a b : Nat} {v : Int}

/-! Writing an accumulator (R283). -/

theorem Rp.accOf_setAcc_same (h : Store.wf 0 r.acc = true) : (r.setAcc a v).accOf a = satTo 48 v := Store.get_set_same h

theorem Rp.accOf_setAcc_other (hne : b % 4 ≠ a % 4) : (r.setAcc a v).accOf b = r.accOf b := Store.get_set_other hne

/-- The OVF bit of the accumulator written is set where the value did not fit, and no other. -/
theorem Rp.setAcc_ovf_bit (hb : b < 4) :
    (r.setAcc a v).ovf.getLsbD b = (r.ovf.getLsbD b || (decide (b = a % 4) && decide (satTo 48 v ≠ v))) := by
  by_cases hfits : satTo 48 v = v
  · simp [Rp.setAcc, hfits]
  · rw [Rp.setAcc, if_neg hfits, BitVec.getLsbD_or, BitVec.getLsbD_ofNat, Nat.testBit_two_pow]
    simp [hfits, hb, eq_comm]

/-- What is left of a processor by an instruction that writes `v`, saturated, to accumulator `a` (R283). -/
def LeavesAcc (r : Rp) (a : Nat) (r1 : Rp) (v : Int) : Prop :=
  r1.accOf a = satTo 48 v ∧ (∀ b, b < 4 → b ≠ a → r1.accOf b = r.accOf b) ∧
    (∀ b, b < 4 → r1.ovf.getLsbD b = (r.ovf.getLsbD b || (decide (b = a) && decide (satTo 48 v ≠ v)))) ∧ r1.mem = r.mem

/-- A write to an accumulator, made after pointers alone have changed. -/
theorem leavesAcc_setAcc {r1 : Rp} {ptr : Store Ptr} (hwf : Store.wf 0 r.acc = true) (ha : a < 4) (hr1 : r1 = { r with ptr := ptr }) :
    LeavesAcc r a (r1.setAcc a v) v := by
  subst hr1
  refine ⟨Rp.accOf_setAcc_same hwf, fun b hb hne => Rp.accOf_setAcc_other ?_, fun b hb => ?_, rfl⟩
  · rwa [Nat.mod_eq_of_lt hb, Nat.mod_eq_of_lt ha]
  · rw [Rp.setAcc_ovf_bit hb, Nat.mod_eq_of_lt ha]

/-! Memory operands (R280, R281). -/

/-- An access updates at most a pointer. -/
theorem Rp.access_frame (r : Rp) (spec : Nat) : (r.access spec).2 = { r with ptr := (r.access spec).2.ptr } := by
  unfold Rp.access
  split <;> rfl

/-- Two accesses update at most pointers. -/
theorem Rp.access_access_frame (r : Rp) (m n : Nat) :
    ((r.access m).2.access n).2 = { r with ptr := ((r.access m).2.access n).2.ptr } := by
  rw [Rp.access_frame (r.access m).2, Rp.access_frame r]

@[simp] theorem Rp.accOf_access (r : Rp) (spec a : Nat) : (r.access spec).2.accOf a = r.accOf a := by
  rw [r.access_frame]
  rfl

/-! Writing a memory word (R276, R285). -/

/-- Address `b` lies in the code region of the kernel. -/
def Rp.inCode (r : Rp) (b : Nat) : Prop := ∃ k, r.kernel = some k ∧ k.base ≤ b ∧ b < k.base + k.words

theorem Rp.put_of_inCode {n : Nat} (h : r.inCode a) : r.put a n = { r with codew := true } := by
  obtain ⟨k, hk, hlow, hhigh⟩ := h
  simp [Rp.put, hk, hlow, hhigh]

theorem Rp.put_of_not_inCode {n : Nat} (h : ¬r.inCode a) : r.put a n = { r with mem := Store.set 0 r.mem a (BitVec.ofNat 32 n) } := by
  unfold Rp.put
  split
  · rfl
  · next k hk =>
    have hout : ¬(k.base ≤ a ∧ a < k.base + k.words) := fun hin => h ⟨k, hk, hin⟩
    exact if_neg (by simpa using hout)

theorem Rp.put_satst (r : Rp) (a n : Nat) : (r.put a n).satst = r.satst := by
  by_cases h : r.inCode a
  · rw [Rp.put_of_inCode h]
  · rw [Rp.put_of_not_inCode h]

theorem Rp.word_put_same {n : Nat} (hwf : Store.wf 0 r.mem = true) (h : ¬r.inCode a) (hn : n < 2 ^ 32) : (r.put a n).word a = n := by
  rw [Rp.put_of_not_inCode h, Rp.word, Store.get_set_same hwf, BitVec.toNat_ofNat, Nat.mod_eq_of_lt hn]

theorem Rp.word_put_other (n : Nat) (h : b ≠ a) : (r.put a n).word b = r.word b := by
  by_cases hcode : r.inCode a
  · rw [Rp.put_of_inCode hcode]
    rfl
  · rw [Rp.put_of_not_inCode hcode]
    exact congrArg BitVec.toNat (Store.get_set_other h)

/-! Saturating stores (R285). -/

theorem Rp.narrow_fst (r : Rp) (n : Nat) (v : Int) : (r.narrow n v).1 = (satTo n v % 2 ^ 32).toNat := rfl

theorem Rp.narrow_snd (r : Rp) (n : Nat) (v : Int) :
    (r.narrow n v).2 = { r with satst := r.satst || decide (satTo n v ≠ v) } := by
  by_cases hfits : satTo n v = v
  · simp [Rp.narrow, hfits]
  · simp [Rp.narrow, hfits]

/-- The width of a store by its format (R287). -/
def stWidth (fmt : Nat) : Nat := match fmt with | 0 => 16 | 1 => 16 | 2 => 18 | _ => 32

/-- The word that a store of `n` leaves where `old` stood: its low half, its high half, or the whole of it (R282). -/
def placed (fmt old n : Nat) : Nat :=
  match fmt with
  | 0 => old / 2 ^ 16 * 2 ^ 16 + n % 2 ^ 16
  | 1 => n % 2 ^ 16 * 2 ^ 16 + old % 2 ^ 16
  | _ => n

theorem placed_lt {fmt old n : Nat} (hold : old < 2 ^ 32) (hn : n < 2 ^ 32) : placed fmt old n < 2 ^ 32 := by
  unfold placed
  split <;> omega

end

/-- ST narrows its value to the width of its format and puts one word (R285). -/
theorem stOnce_eq (w : Nat) (r : Rp) : stOnce w r =
    let a := (r.access (bits w 20 15)).1
    let r1 := (r.access (bits w 20 15)).2
    let narrowed := r1.narrow (stWidth (bits w 16 15)) (r.rounded (bits w 22 21) (bits w 13 8))
    narrowed.2.put a (placed (bits w 16 15) (r.word a) narrowed.1) := by
  unfold stOnce
  generalize bits w 16 15 = fmt
  match fmt with
  | 0 | 1 | 2 | _ + 3 => rfl

/-- Only the accumulators that CLR does not name keep what they hold. -/
theorem get_clearing {m : Store Int} (h : m.Rises) (p : Nat → Bool) (is : List Nat) (b : Nat) :
    Store.get 0 (is.foldl (fun s i => if p i then Store.set 0 s i 0 else s) m) b = if b ∈ is ∧ p b = true then 0 else Store.get 0 m b := by
  induction is generalizing m with
  | nil => simp
  | cons i is ih =>
    rw [List.foldl_cons]
    by_cases hp : p i = true
    · rw [if_pos hp, ih (h.set i 0)]
      by_cases hb : b = i
      · subst hb
        simp [hp, h.get_set_same]
      · simp [hb, Store.get_set_other hb]
    · rw [if_neg hp, ih h]
      by_cases hb : b = i
      · subst hb
        simp [hp]
      · simp [hb]

theorem accOf_clrOnce {w b : Nat} {r : Rp} (hwf : Store.wf 0 r.acc = true) (hb : b < 4) :
    (clrOnce w r).accOf b = if bitOf w b then 0 else r.accOf b := by
  have hmem : b ∈ List.range 4 := List.mem_range.mpr hb
  rw [clrOnce, Rp.accOf, Nat.mod_eq_of_lt hb, get_clearing (Store.rises_of_wf hwf), Rp.accOf, Nat.mod_eq_of_lt hb]
  simp [hmem]

theorem bits_lt (v hi lo : Nat) : bits v hi lo < 2 ^ (hi - lo + 1) := Nat.mod_lt _ (by positivity)

section
variable {w : Nat} {r : Rp}

/-- ST writes, of the words outside the code, that of its address alone. -/
theorem stOnce_word (hwf : Store.wf 0 r.mem = true) (h : ¬r.inCode (r.access (bits w 20 15)).1) :
    (stOnce w r).word (r.access (bits w 20 15)).1 = placed (bits w 16 15) (r.word (r.access (bits w 20 15)).1)
      (satTo (stWidth (bits w 16 15)) (r.rounded (bits w 22 21) (bits w 13 8)) % 2 ^ 32).toNat := by
  rw [stOnce_eq, r.access_frame]
  refine Rp.word_put_same ?_ ?_ ?_
  · rwa [Rp.narrow_snd]
  · rwa [Rp.narrow_snd]
  · exact placed_lt (BitVec.isLt _) (by rw [Rp.narrow_fst]; omega)

theorem stOnce_word_other {b : Nat} (h : b ≠ (r.access (bits w 20 15)).1) : (stOnce w r).word b = r.word b := by
  rw [stOnce_eq, r.access_frame]
  refine (Rp.word_put_other _ h).trans ?_
  rw [Rp.narrow_snd]
  rfl

theorem stOnce_inCode (h : r.inCode (r.access (bits w 20 15)).1) : (stOnce w r).codew = true ∧ (stOnce w r).mem = r.mem := by
  rw [stOnce_eq, r.access_frame]
  dsimp only
  rw [Rp.put_of_inCode (by rwa [Rp.narrow_snd]), Rp.narrow_snd]
  exact ⟨rfl, rfl⟩

theorem stOnce_satst : (stOnce w r).satst = (r.satst ||
    decide (satTo (stWidth (bits w 16 15)) (r.rounded (bits w 22 21) (bits w 13 8)) ≠ r.rounded (bits w 22 21) (bits w 13 8))) := by
  rw [stOnce_eq, r.access_frame]
  dsimp only
  rw [Rp.put_satst, Rp.narrow_snd]

theorem stcOnce_satst :
    let pair := if bitOf w 22 then 2 else 0
    let tooBig (a : Nat) : Bool := decide (satTo 16 (r.rounded a (bits w 13 8)) ≠ r.rounded a (bits w 13 8))
    (stcOnce w r).satst = (r.satst || tooBig pair || tooBig (pair + 1)) := by
  unfold stcOnce
  extract_lets pair tooBig
  dsimp only
  rw [Rp.put_satst, Rp.narrow_snd, Rp.narrow_snd, r.access_frame]

end

/-- MAC adds to what the accumulator held before its operands were read. -/
theorem macOnce_eq (w : Nat) (r : Rp) : macOnce w r =
    let x := r.access (bits w 20 15)
    let y := x.2.access (bits w 14 9)
    let product := inFormat (bits w 16 15) (r.word x.1) * inFormat (bits w 10 9) (r.word y.1)
    y.2.setAcc (bits w 22 21) (plusMinus (bitOf w 23) (r.accOf (bits w 22 21)) product) := by
  unfold macOnce
  simp only [Rp.accOf_access]

theorem loadOnce_eq (keep : Bool) (w : Nat) (r : Rp) : loadOnce keep w r =
    let x := r.access (bits w 20 15)
    let v := inFormat (bits w 16 15) (r.word x.1) * 2 ^ bits w 13 8
    x.2.setAcc (bits w 22 21) (plusMinus (bitOf w 23) (if keep then r.accOf (bits w 22 21) else 0) v) := by
  unfold loadOnce
  simp only [Rp.accOf_access]

/-- Settles O46: each instruction is one write of an accumulator or of a word, made after pointers alone have changed. -/
theorem rpArithmetic : Obligations.RpArithmetic := by
  intro w r hacc hmem a neg x y sum acc at_ stored width tooBig pair inCode
  have ha : a < 4 := bits_lt w 22 21
  have hwidth : stWidth (bits w 16 15) = width := by
    have hfmt : bits w 16 15 < 4 := bits_lt w 16 15
    unfold width
    generalize bits w 16 15 = fmt at hfmt ⊢
    match fmt with
    | 0 | 1 | 2 | 3 => rfl
  have hst (hdata : ¬inCode at_) :
      (stOnce w r).word at_ = placed (bits w 16 15) (r.word at_) (stored (stWidth (bits w 16 15))) := stOnce_word hmem hdata
  refine ⟨?_, ?_, ?_, ?_, ?_, fun hdata => ⟨fun hfmt => ?_, fun hfmt => ?_, fun hfmt => ?_, fun hfmt => ?_, fun b hb => ?_⟩, ?_, ?_,
    fun hcode => ?_, fun b hb => ?_⟩
  · rw [macOnce_eq]
    exact leavesAcc_setAcc hacc ha (r.access_access_frame ..)
  · rw [loadOnce_eq]
    exact leavesAcc_setAcc hacc ha (r.access_frame _)
  · rw [loadOnce_eq]
    exact leavesAcc_setAcc hacc ha (r.access_frame _)
  · exact leavesAcc_setAcc hacc ha rfl
  · exact leavesAcc_setAcc hacc ha rfl
  · rw [hst hdata, hfmt]; rfl
  · rw [hst hdata, hfmt]; rfl
  · rw [hst hdata, hfmt]; rfl
  · rw [hst hdata, hfmt]; rfl
  · exact stOnce_word_other hb
  · exact hwidth ▸ stOnce_satst
  · exact stcOnce_satst
  · exact stOnce_inCode hcode
  · exact accOf_clrOnce hacc hb

end Sys2Proof.Machine
end

section
/-! What the repeatable instructions keep of a read-out processor (R275, R283, R284, R286). -/

namespace Sys2Proof.Machine

/-- Every accumulator holds a 48-bit number, in a canonical table. -/
def Rp.AccsFit (r : Rp) : Prop := Store.wf 0 r.acc = true ∧ ∀ a, -(2 ^ 47) ≤ r.accOf a ∧ r.accOf a < 2 ^ 47

/-- Between `r` and `t` accumulators that fit still do, no flag is cleared, and kernel and queue are the same. -/
structure KeepsSticky (r t : Rp) : Prop where
  accs : r.AccsFit → t.AccsFit
  ovf : ∀ i, r.ovf.getLsbD i = true → t.ovf.getLsbD i = true
  satst : r.satst = true → t.satst = true
  codew : r.codew = true → t.codew = true
  kernel : t.kernel = r.kernel
  queue : t.queue = r.queue

section
variable {r t u : Rp}

theorem KeepsSticky.refl (r : Rp) : KeepsSticky r r := ⟨id, fun _ => id, id, id, rfl, rfl⟩

theorem KeepsSticky.trans (h : KeepsSticky r t) (g : KeepsSticky t u) : KeepsSticky r u where
  accs := g.accs ∘ h.accs
  ovf i := g.ovf i ∘ h.ovf i
  satst := g.satst ∘ h.satst
  codew := g.codew ∘ h.codew
  kernel := g.kernel.trans h.kernel
  queue := g.queue.trans h.queue

/-! The operations on the state. -/

theorem Rp.AccsFit.setAcc (h : r.AccsFit) (a : Nat) (v : Int) : (r.setAcc a v).AccsFit := by
  obtain ⟨hwf, hfit⟩ := h
  refine ⟨Store.wf_set hwf, fun b => ?_⟩
  by_cases hb : b % 4 = a % 4
  · rw [Rp.accOf, hb, ← Rp.accOf, Rp.accOf_setAcc_same hwf]
    exact satTo_fits 48 v
  · rw [Rp.accOf_setAcc_other hb]
    exact hfit b

theorem keepsSticky_setAcc (r : Rp) (a : Nat) (v : Int) : KeepsSticky r (r.setAcc a v) where
  accs h := h.setAcc a v
  ovf i hi := by rw [Rp.setAcc_ovf_bit (BitVec.lt_of_getLsbD hi), hi, Bool.true_or]
  satst := id
  codew := id
  kernel := rfl
  queue := rfl

theorem keepsSticky_access (r : Rp) (spec : Nat) : KeepsSticky r (r.access spec).2 := by
  rw [r.access_frame]
  exact ⟨id, fun _ => id, id, id, rfl, rfl⟩

theorem keepsSticky_narrow (r : Rp) (n : Nat) (v : Int) : KeepsSticky r (r.narrow n v).2 := by
  rw [r.narrow_snd]
  exact ⟨id, fun _ => id, fun h => by simp [h], id, rfl, rfl⟩

theorem keepsSticky_put (r : Rp) (a n : Nat) : KeepsSticky r (r.put a n) := by
  by_cases h : r.inCode a
  · rw [Rp.put_of_inCode h]
    exact ⟨id, fun _ => id, id, fun _ => rfl, rfl, rfl⟩
  · rw [Rp.put_of_not_inCode h]
    exact ⟨id, fun _ => id, id, id, rfl, rfl⟩

end

/-! The repeatable instructions, each a sequence of such operations. -/

section
variable (w : Nat) (r : Rp)

theorem keepsSticky_macOnce : KeepsSticky r (macOnce w r) :=
  ((keepsSticky_access r _).trans (keepsSticky_access _ _)).trans (keepsSticky_setAcc _ _ _)

theorem keepsSticky_cmacOnce : KeepsSticky r (cmacOnce w r) :=
  (((keepsSticky_access r _).trans (keepsSticky_access _ _)).trans (keepsSticky_setAcc _ _ _)).trans (keepsSticky_setAcc _ _ _)

theorem keepsSticky_loadOnce (keep : Bool) : KeepsSticky r (loadOnce keep w r) :=
  (keepsSticky_access r _).trans (keepsSticky_setAcc _ _ _)

theorem keepsSticky_stOnce : KeepsSticky r (stOnce w r) := by
  rw [stOnce_eq]
  exact ((keepsSticky_access r _).trans (keepsSticky_narrow _ _ _)).trans (keepsSticky_put _ _ _)

theorem keepsSticky_stcOnce : KeepsSticky r (stcOnce w r) :=
  (((keepsSticky_access r _).trans (keepsSticky_narrow _ _ _)).trans (keepsSticky_narrow _ _ _)).trans (keepsSticky_put _ _ _)

theorem keepsSticky_movwOnce : KeepsSticky r (movwOnce w r) :=
  ((keepsSticky_access r _).trans (keepsSticky_access _ _)).trans (keepsSticky_put _ _ _)

theorem keepsSticky_repeatOnce : KeepsSticky r (repeatOnce w r) := by
  unfold repeatOnce
  split
  · exact keepsSticky_macOnce w r
  · exact keepsSticky_cmacOnce w r
  · exact keepsSticky_loadOnce w r false
  · exact keepsSticky_loadOnce w r true
  · exact keepsSticky_setAcc r _ _
  · exact keepsSticky_setAcc r _ _
  · exact keepsSticky_stOnce w r
  · exact keepsSticky_stcOnce w r
  · exact keepsSticky_movwOnce w r
  · exact .refl r

theorem keepsSticky_iterate (n : Nat) : KeepsSticky r (iterate (repeatOnce w) n r) := by
  induction n generalizing r with
  | zero => exact .refl r
  | succ n ih => exact (keepsSticky_repeatOnce w r).trans (ih _)

end

/-- Settles O47: each repeatable instruction keeps what `KeepsSticky` says, and so do any number of them. -/
theorem accumulatorsStayIn48Bits : Obligations.AccumulatorsStayIn48Bits := by
  intro w n r hwf hfit t
  have hkeeps : KeepsSticky r t := keepsSticky_iterate w r n
  obtain ⟨-, haccs⟩ := hkeeps.accs ⟨hwf, hfit⟩
  exact ⟨haccs, hkeeps.ovf, hkeeps.satst, hkeeps.codew, hkeeps.kernel, hkeeps.queue⟩

end Sys2Proof.Machine
end

section
/-! The instructions of a read-out processor (R278, R286, R287, R291, R292): the word it executes, and what each row does with it. -/

namespace Sys2Proof.Machine

theorem Dev.rp_setRp_same {d : Dev} (h : Store.wf {} d.core.rps = true) (p : Nat) (r : Rp) : (d.setRp p r).rp p = r := Store.get_set_same h

theorem Dev.rp_congr {d e : Dev} (h : e.core.rps = d.core.rps) (p : Nat) : e.rp p = d.rp p := by rw [Dev.rp, h, Dev.rp]

/-! The word executed (R289, R290). -/

section
variable {p w op : Nat} {k : Kernel} {d : Dev}

theorem rpExec_rpAt {f : Nat → Rp → Dev → Dev} (hat : rpAt d p k w) (hop : bits w 31 24 = op) : rpExec op p f d = f w (d.rp p) d := by
  obtain ⟨hkernel, hword, hfirmware, hmode⟩ := hat
  have hop : rpOp w = op := hop
  unfold rpExec
  simp only [hkernel, hword, hfirmware, hop]
  obtain hmode | hmode := hmode
  · simp [hmode]
  · simp [hmode]

theorem doRpRep_eq (hat : rpAt d p k w) (hop : bits w 31 24 = 0x04) (x : Ctx) :
    let r := d.rp p
    let v := r.fetch k (r.pc + 1)
    doRpRep p x d = d.setRp p { iterate (repeatOnce v) (bits w 15 0) r with
      pc := r.pc + 2, cycles := r.cycles + 1 + bits w 15 0 * cyclesRep v } := by
  have ⟨hkernel, _⟩ := hat
  simp only [doRpRep, rpExec_rpAt hat hop, hkernel]

theorem doRpWaitr_takes {q : RpResult} {rest : List RpResult} (hat : rpAt d p k w) (hop : bits w 31 24 = 0x30) (x : Ctx)
    (hqueue : (d.rp p).queue = q :: rest) : doRpWaitr p x d =
      d.setRp p { (((d.rp p).setAcc 0 q.i).setAcc 1 q.q).next 1 with
        queue := rest, waiting := false, res := q, state := 0, taken := addW 64 (d.rp p).taken 1 } := by
  simp only [doRpWaitr, rpExec_rpAt hat hop, hqueue]

theorem doRpWaitr_waits (hat : rpAt d p k w) (hop : bits w 31 24 = 0x30) (x : Ctx) (hqueue : (d.rp p).queue = []) :
    doRpWaitr p x d = d.setRp p { d.rp p with waiting := true } := by
  simp only [doRpWaitr, rpExec_rpAt hat hop, hqueue]

end

/-! What the record and the chord of an EMIT leave alone (R292, R294). -/

/-- Between `d` and `e` no read-out processor differs, and only host writes are queued more. -/
structure SparesRps (d e : Dev) : Prop where
  rps : e.core.rps = d.core.rps
  wr : ∃ ws, e.wr = d.wr ++ ws ∧ HostOnly ws

section
variable {d e f : Dev}

theorem sparesRps_of_eq (hrps : e.core.rps = d.core.rps) (hwr : e.wr = d.wr) : SparesRps d e :=
  ⟨hrps, [], by simp [hwr], by simp [HostOnly]⟩

theorem SparesRps.trans (h : SparesRps d e) (g : SparesRps e f) : SparesRps d f := by
  obtain ⟨hrps, ws, hws, hhost⟩ := h
  obtain ⟨grps, vs, hvs, ghost⟩ := g
  exact ⟨grps.trans hrps, ws ++ vs, by rw [hvs, hws, List.append_assoc], List.forall_mem_append.mpr ⟨hhost, ghost⟩⟩

/-- Such a step after an update of other fields. -/
theorem SparesRps.after (g : SparesRps e f) (hrps : e.core.rps = d.core.rps) (hwr : e.wr = d.wr) : SparesRps d f :=
  (sparesRps_of_eq hrps hwr).trans g

theorem SparesRps.ite {p : Prop} [Decidable p] (he : SparesRps d e) (hf : SparesRps d f) : SparesRps d (if p then e else f) := by
  split
  · exact he
  · exact hf

theorem Raised.sparesRps (h : Raised d e) : SparesRps d e := ⟨by rw [h.frame], h.wr⟩

end

theorem sparesRps_offerResult (ring : Nat) (o : Offer) (d : Dev) : SparesRps d (offerResult ring o d) := by
  unfold offerResult
  split
  · exact sparesRps_of_eq rfl rfl
  · split
    · exact (raised_event ..).sparesRps
    · extract_lets r d1
      have hfails : SparesRps d d1 := sparesRps_of_eq rfl rfl
      exact .ite hfails ((raised_event ..).sparesRps.after rfl rfl)

theorem sparesRps_exportChord (c : Chord) (d : Dev) : SparesRps d (exportChord c d) :=
  List.foldlRecOn (motive := SparesRps d) _ _ (sparesRps_of_eq rfl rfl) fun _ h _ _ =>
    h.trans (.ite (sparesRps_of_eq rfl rfl) (sparesRps_of_eq rfl rfl))

theorem sparesRps_sendChord (slow : Bool) (chan ord shot : Nat) (st : Option (BitVec 2)) (d : Dev) :
    SparesRps d (sendChord slow chan ord shot st d) := by
  unfold sendChord
  exact .ite (sparesRps_of_eq rfl rfl) ((sparesRps_exportChord ..).after rfl rfl)

/-! EMIT (R284, R292, R294). -/

/-- The record of an EMIT is INVALID: an accumulator has overflowed (R284). -/
def Rp.emitsInvalid (r : Rp) : Bool := decide (r.ovf ≠ 0)

/-- The state that an EMIT puts into its record and its chord (R292). -/
def Rp.emitState (r : Rp) (w : Nat) : Nat := if bitOf w 1 then r.res.state % 4 else r.state.toNat

/-- The cause of an EMIT's record (R284, R294). -/
def Rp.emitCause (r : Rp) : Nat := if r.res.cause ≠ 0 then r.res.cause else if r.emitsInvalid then Cause.overflow else 0

/-- The record of an EMIT at lattice time `lat` (R294). -/
def Rp.emitBytes (r : Rp) (w tag lat : Nat) : List Byte :=
  let a := if bitOf w 0 then 2 else 0
  let flags := r.emitState w + flag r.emitsInvalid 2 + flag (bitOf w 2 && !r.emitsInvalid && decide (r.res.ordinal < 4)) 3 +
    flag (bitOf w 1) 4
  postBytes r.res flags (r.accOf a) (r.accOf (a + 1)) r.emitCause tag (lat - r.res.lat).toNat

/-- The device once processor `p` has counted its EMIT, and an INVALID record for the shot of its result (R284, R292). -/
def emitCounted (p : Nat) (r : Rp) (d : Dev) : Dev :=
  let d1 := d.setRp p { r.next 1 with emitted := addW 64 r.emitted 1 }
  if r.emitsInvalid then
    onShot r.res.shot (fun s => { s with rpOverflow := Store.set 0 s.rpOverflow p (Store.get 0 s.rpOverflow p + 1) }) d1
  else d1

/-- The record of an EMIT is offered, once the shot has failed where the record carries a cause (R292, R294). -/
def emitOffered (w tag : Nat) (r : Rp) (now : Dev) (d : Dev) : Dev :=
  let f : ShotFail := { at4096 := nowFine now, inst := chanInst r.res.chan, cause := r.emitCause, detail := 0 }
  offerResult r.postRing
    { bytes := r.emitBytes w tag now.time.lat, kind := false, shot := some r.res.shot, inst := chanInst r.res.chan, at4096 := nowFine now
      cause := r.emitCause }
    (if r.emitCause = 0 then d else failShot r.res.shot f 1 d)

theorem sparesRps_emitCounted (p : Nat) (r : Rp) (d : Dev) :
    SparesRps (d.setRp p { r.next 1 with emitted := addW 64 r.emitted 1 }) (emitCounted p r d) :=
  .ite (sparesRps_of_eq rfl rfl) (sparesRps_of_eq rfl rfl)

theorem sparesRps_emitOffered (w tag : Nat) (r : Rp) (now d : Dev) : SparesRps d (emitOffered w tag r now d) := by
  unfold emitOffered
  extract_lets f
  have hfails : SparesRps d (if r.emitCause = 0 then d else failShot r.res.shot f 1 d) :=
    .ite (sparesRps_of_eq rfl rfl) (sparesRps_of_eq rfl rfl)
  exact hfails.trans (sparesRps_offerResult ..)

section
variable {p w : Nat} {k : Kernel} {d : Dev}

theorem nowFine_emitCounted (p : Nat) (r : Rp) (d : Dev) : nowFine (emitCounted p r d) = nowFine d := by
  unfold emitCounted
  split <;> rfl

/-- EMIT counts, offers its record, and sends its chord where asked. -/
theorem doRpEmit_eq (hat : rpAt d p k w) (hop : bits w 31 24 = 0x31) (x : Ctx) :
    let r := d.rp p
    let d2 := emitOffered w k.tag r d (emitCounted p r d)
    doRpEmit p x d = if bitOf w 2 then
      sendChord true r.res.chan r.res.ordinal r.res.shot (if r.emitsInvalid then none else some (BitVec.ofNat 2 (r.emitState w))) d2
    else d2 := by
  intro r d2
  have ⟨hkernel, _⟩ := hat
  have hoffered : d2 = offerPost r.postRing r.res (r.emitBytes w k.tag d.time.lat) r.emitCause (emitCounted p r d) := by
    rw [offerPost, nowFine_emitCounted]
    rfl
  rw [hoffered]
  simp only [doRpEmit, rpExec_rpAt hat hop, hkernel, emitCounted, Rp.emitState, Rp.emitCause, Rp.emitBytes, Rp.emitsInvalid,
    decide_eq_true_eq, r]

/-- It touches no other processor. -/
theorem doRpEmit_sparesRps (hat : rpAt d p k w) (hop : bits w 31 24 = 0x31) (x : Ctx) :
    SparesRps (d.setRp p { (d.rp p).next 1 with emitted := addW 64 (d.rp p).emitted 1 }) (doRpEmit p x d) := by
  rw [doRpEmit_eq hat hop]
  have hoffers := (sparesRps_emitCounted p (d.rp p) d).trans (sparesRps_emitOffered w k.tag (d.rp p) d _)
  exact .ite (hoffers.trans (sparesRps_sendChord ..)) hoffers

end

/-- Settles O45: the word at the processor's PC is the row's own, and each row does with it what its clause says. -/
theorem rpInstructions : Obligations.RpInstructions := by
  intro p k w s hat hwr r op goes plain one n ptr count
  have hplain {o : Nat} {g : Nat → Rp → Rp} (hop : op = o) :
      (Host.Outcome.next (s.on (rpPlain o p g)) : Host.Outcome State Fault Refusal) =
        .next { s with dev := s.dev.setRp p ((g w r).next (cyclesOf w)) } := next_on_eq (rpExec_rpAt hat hop) hwr
  refine ⟨fun hop => next_on_congr (rpExec_rpAt hat hop), hplain, fun hop => next_on_eq (doRpRep_eq hat hop s.ctx) hwr,
    fun hop => next_on_eq (rpExec_rpAt hat hop) hwr, fun hop => ⟨fun hcount => ?_, fun hcount => ?_⟩, hplain, hplain, hplain, hplain,
    hplain, hplain, hplain, hplain, hplain, hplain, hplain, hplain, hplain, hplain, hplain, fun q rest hop hqueue => ?_,
    fun hop hqueue => ?_, fun hop hwf => ?_, fun hop => ?_⟩
  · exact next_on_eq ((rpExec_rpAt hat hop).trans (congrArg (s.dev.setRp p) (if_pos hcount))) hwr
  · exact next_on_eq ((rpExec_rpAt hat hop).trans (congrArg (s.dev.setRp p) (if_neg (Nat.not_le.mpr hcount)))) hwr
  · exact next_on_eq (doRpWaitr_takes hat hop s.ctx hqueue) hwr
  · exact next_on_eq (doRpWaitr_waits hat hop s.ctx hqueue) hwr
  · obtain ⟨hrps, ws, hws, hhost⟩ := doRpEmit_sparesRps hat hop s.ctx
    refine ⟨_, rfl, (Dev.rp_congr hrps p).trans (Dev.rp_setRp_same hwf p _), ?_⟩
    have hqueued : (doRpEmit p s.ctx s.dev).wr = ws := by rw [hws, Dev.setRp_wr, hwr, List.nil_append]
    exact (congrArg (List.foldl ddrAfter s.ddr) hqueued).trans (foldl_ddrAfter_hostOnly hhost _)
  · exact next_on_congr (doRpEmit_eq hat hop s.ctx)

end Sys2Proof.Machine
end

section
/-! A second write to the same entry of a table: the first leaves no trace. -/

namespace Sys2Proof

variable {α : Type} [DecidableEq α] {dflt : α}

/-- A key below every listed one is written in front. -/
theorem Store.set_below {m : Store α} {k : Nat} (hbelow : ∀ i ∈ m.map Prod.fst, k < i) (v : α) :
    Store.set dflt m k v = if v = dflt then m else (k, v) :: m := by
  cases m with
  | nil => rfl
  | cons p rest => rw [Store.set, if_pos (hbelow p.1 (List.mem_cons_self ..))]

theorem Store.Rises.set_set {m : Store α} (h : m.Rises) (k : Nat) (v w : α) :
    Store.set dflt (Store.set dflt m k v) k w = Store.set dflt m k w := by
  induction m with
  | nil =>
    simp only [Store.set]
    split <;> simp [Store.set]
  | cons p rest ih =>
    obtain ⟨j, u⟩ := p
    obtain ⟨habove, hrest⟩ := Store.rises_cons.mp h
    obtain hlt | rfl | hgt := Nat.lt_trichotomy k j
    · simp only [Store.set, if_pos hlt]
      split <;> simp [Store.set, hlt]
    · simp only [Store.set, Nat.lt_irrefl, if_false, if_true]
      split
      · exact Store.set_below habove w
      · simp [Store.set]
    · simp [Store.set, Nat.lt_asymm hgt, Nat.ne_of_gt hgt, ih hrest]

end Sys2Proof
end

section
/-! The commands of the read-out processors and the rows that end a kernel (R290, R296, R300 to R308). -/

namespace Sys2Proof.Machine

theorem Dev.setRp_setRp {d : Dev} (h : Store.wf {} d.core.rps = true) (p : Nat) (r t : Rp) : (d.setRp p r).setRp p t = d.setRp p t := by
  simp only [Dev.setRp, (Store.rises_of_wf h).set_set]

section
variable {x : Ctx} {c : Cmd} {d : Dev}

/-- A command that is not staged, put into the list in its new form, leaves nothing staged. -/
theorem stagedCmds_putCmd (hstaged : stagedCmds d = []) (hc : c.staged = false) : stagedCmds (putCmd c d) = [] := by
  unfold stagedCmds at *
  rw [List.filter_eq_nil_iff] at *
  intro q hq
  obtain ⟨u, hu, rfl⟩ := List.mem_map.mp hq
  split
  · simp [hc]
  · exact hstaged u hu

/-! RP_APPLY (R307). -/

theorem applyNow_rpApply (hop : c.op = 0x0607) :
    applyNow x c d = doneCmd c 0x0600 (if c.aux = 0 then applyWeights c d else applyDisc c d) := by
  simp [applyNow, stagedEffect, goesOn, groupDone, hop, applyFromRp]

theorem rpApply_stages (hrun : running d = true) :
    let c1 := { c with payload := applyPayload d c, aux := c.arg 1 1 }
    rpApplySpec.act x c d = putCmd { c1 with staged := true } (putCmd c1 d) :=
  stageOrApply_of_running hrun

theorem rpApply_applies (hop : c.op = 0x0607) (hidle : running d = false) :
    let c1 := { c with payload := applyPayload d c, aux := c.arg 1 1 }
    rpApplySpec.act x c d = doneCmd c1 0x0600 (if c.arg 1 1 = 0 then applyWeights c1 (putCmd c1 d) else applyDisc c1 (putCmd c1 d)) := by
  intro c1
  exact (stageOrApply_of_idle (d := putCmd c1 d) hidle).trans (applyNow_rpApply (c := c1) hop)

end

/-! Detaching (R296). -/

/-- The commands of `seqs` end with the detach that they wait for (R305). -/
def endDetached (seqs : List Nat) (d : Dev) : Dev := seqs.foldl (fun d n => endSeq (some n) (fun c d => doneCmd c 0x0600 d) d) d

theorem reports_endDetached (seqs : List Nat) (d : Dev) : Reports d (endDetached seqs d) :=
  reports_foldl _ (fun d n => reports_endSeq (some n) (fun c d => reports_doneCmd c 0x0600 d) d) seqs d

/-- A processor whose kernel is detached (R296). -/
def Rp.detached (r : Rp) : Rp := { r with mode := .idle, detaching := false, detachSeqs := [] }

section
variable {p : Nat} {d : Dev} {r : Rp}

theorem detachNow_eq (hr : d.rp p = r) : detachNow p d = endDetached r.detachSeqs (d.setRp p r.detached) := by
  subst hr
  rfl

/-- The kernel is detached whatever has been noted of its processor just before. -/
theorem detachNow_setRp (hwf : Store.wf {} d.core.rps = true) (r : Rp) :
    detachNow p (d.setRp p r) = endDetached r.detachSeqs (d.setRp p r.detached) := by
  rw [detachNow_eq (Dev.rp_setRp_same hwf p r), Dev.setRp_setRp hwf]

theorem rp_endDetached (hwf : Store.wf {} d.core.rps = true) (seqs : List Nat) (r : Rp) : (endDetached seqs (d.setRp p r)).rp p = r := by
  rw [Dev.rp, (reports_endDetached seqs (d.setRp p r)).1]
  exact Dev.rp_setRp_same hwf p r

/-- A kernel that one live command waits for: the detach ends that command. -/
theorem detachNow_one {c : Cmd} {n : Nat} (hr : d.rp p = r) (hseqs : r.detachSeqs = [n]) (hcmd : cmdOf d n = some c)
    (hlive : c.dead = false) : detachNow p d = doneCmd c 0x0600 (d.setRp p r.detached) := by
  rw [detachNow_eq hr, hseqs]
  exact endSeq_live hcmd hlive

/-- A detaching kernel that waits with an empty queue is detached. -/
theorem rpDetachComplete_detaches (hr : d.rp p = r) (hmode : r.mode = .attached) (hdetaching : r.detaching = true) (hqueue : r.queue = [])
    (hwaiting : r.waiting = true) (x : Ctx) : rpDetachComplete p x d = detachNow p d :=
  if_pos (by simp [hr, hmode, hdetaching, Rp.drained, hqueue, hwaiting])

end

/-! Commands of one processor (R301, R304, R305, R308). -/

section
variable {x : Ctx} {c : Cmd} {d : Dev} {r : Rp} (hr : d.rp (c.arg 0 1) = r)
include hr

/-- RP_STATUS with CLEAR clears the counters of its processor, and nothing else of it (R308). -/
theorem rpStatus_clears (hclear : bitOf (c.arg 1 1) 0 = true) (hwf : Store.wf {} d.core.rps = true) :
    (rpStatusSpec.act x c d).rp (c.arg 0 1) = { r with taken := 0, dropped := 0, emitted := 0 } := by
  have hact : ∃ out, rpStatusSpec.act x c d =
      okCmd c 0x0600 0 out false (d.setRp (c.arg 0 1) { r with taken := 0, dropped := 0, emitted := 0 }) := by
    simp only [rpStatusSpec, hr, hclear, Bool.not_true, if_true]
    exact ⟨_, rfl⟩
  obtain ⟨out, hact⟩ := hact
  rw [hact, Dev.rp, (reports_okCmd ..).1]
  exact Dev.rp_setRp_same hwf _ _

theorem rpMemWrite_act_eq : rpMemWriteSpec.act x c d =
    doneCmd c 0x0600 (d.setRp (c.arg 0 1) { r with mem := putWords r.mem (c.arg 2 2) (memWords x c) }) := by
  subst hr
  rfl

theorem rpLoad_act_eq {cy loop : Nat} (hcode : kernelFail (kernelCode c) (c.arg 1 1 = 1) (c.arg 8 2) = .ok (cy, loop)) :
    let slow := if c.arg 1 1 = 1 then slowNs cy else 0
    let k : Kernel := {
      post := decide (c.arg 1 1 = 1), tag := c.arg 2 2, base := c.arg 4 2, words := c.arg 6 2, entry := c.arg 8 2
      cycles := cy, cyclesLoop := loop, slowNs := slow }
    rpLoadSpec.act x c d = okCmd c 0x0600 slow (le 4 cy ++ le 4 loop ++ le 4 slow ++ zeros 4) false
      (d.setRp (c.arg 0 1) { r with kernel := some k, mode := .idle, mem := putWords r.mem k.base (kernelCode c) }) := by
  simp only [rpLoadSpec, hr, hcode]

theorem rpRun_act_eq {k : Kernel} (hkernel : r.kernel = some k) : rpRunSpec.act x c d =
    d.setRp (c.arg 0 1) { r.fresh k with
      mode := if (d.slackOf d.hif.core).throttled then .paused else .running, maxUs := c.arg 4 4, seq := c.seq
      startLat := d.time.raw, pausedAt := d.time.raw } := by
  simp only [rpRunSpec, hr, hkernel]

/-! RP_STOP (R305). -/

theorem rpStop_ends (hmode : r.mode = .running ∨ r.mode = .paused) :
    rpStopSpec.act x c d = doneCmd c 0x0600 (endRun (c.arg 0 1) 0x0616 d) := by
  obtain hmode | hmode := hmode
  · simp only [rpStopSpec, hr, hmode]
  · simp only [rpStopSpec, hr, hmode]

/-- With nothing staged the processor will stand as it does. -/
theorem rpStop_unchanged (hmode : r.mode = .idle ∨ r.mode = .none) (hstaged : stagedCmds d = []) :
    rpStopSpec.act x c d = okCmd c 0x0002 0 [] true d := by
  have hproj : projected x d = d := by rw [projected, hstaged, List.foldl_nil]
  obtain hmode | hmode := hmode
  · simp [rpStopSpec, hr, hmode, rpBusySoon, rpBusy, hproj]
  · simp [rpStopSpec, hr, hmode, rpBusySoon, rpBusy, hproj]

section
variable (hmode : r.mode = .attached)
include hmode

theorem rpStop_attached : rpStopSpec.act x c d = stageOrApply x c d := by
  simp [rpStopSpec, hr, hmode, rpBusySoon, rpBusy]

theorem rpStop_stages (hrun : running d = true) : rpStopSpec.act x c d = putCmd { c with staged := true } d :=
  (rpStop_attached hr hmode).trans (stageOrApply_of_running hrun)

section
variable (hop : c.op = 0x0606) (hidle : running d = false) (hdrained : r.drained = true) (hwf : Store.wf {} d.core.rps = true)
include hop hidle hdrained hwf

/-- With no program running a drained kernel is detached at once, and the command ends with those that wait for it. -/
theorem rpStop_detaches : rpStopSpec.act x c d =
    doneCmd c 0x0600 (endDetached (if r.detaching then r.detachSeqs else []) (d.setRp (c.arg 0 1) r.detached)) := by
  have heffect : stagedEffect x c d =
      endDetached (if r.detaching then r.detachSeqs else []) (d.setRp (c.arg 0 1) r.detached) := by
    refine Eq.trans ?_ (detachNow_setRp hwf { r with detachSeqs := if r.detaching then r.detachSeqs else [] })
    simp [stagedEffect, hop, applyDetach, hr, hmode, hdrained]
  have hends : goesOn c (stagedEffect x c d) = false := by
    rw [heffect]
    simp [goesOn, hop, rp_endDetached hwf, Rp.detached]
  rw [rpStop_attached hr hmode, stageOrApply_of_idle hidle, applyNow_ends hends, heffect, groupDone, hop]

theorem rpStop_detaches_alone (hfirst : r.detaching = false) :
    rpStopSpec.act x c d = doneCmd c 0x0600 (d.setRp (c.arg 0 1) { r with mode := .idle, detachSeqs := [] }) := by
  rw [rpStop_detaches hr hmode hop hidle hdrained hwf, if_neg (by simp [hfirst]), Rp.detached, ← hfirst]
  rfl

theorem rpStop_detaches_all (hdetaching : r.detaching = true) :
    rpStopSpec.act x c d = doneCmd c 0x0600 (endDetached r.detachSeqs (d.setRp (c.arg 0 1) r.detached)) := by
  rw [rpStop_detaches hr hmode hop hidle hdrained hwf, if_pos hdetaching]

end
end
end

/-- Settles O44: each command's row is its effect, and the rows that end a kernel end its run or detach it. -/
theorem rpCommandsAndRows : Obligations.RpCommandsAndRows := by
  intro mb h s c p a r own
  have hbegun : (putCmd c (s.sync h).dev).rp a = r := rfl
  refine ⟨fun hb => ⟨cmdRow_begins hb, fun hclear _ hwf => ⟨_, cmdRow_begins hb, ?_⟩⟩, fun hb => ?_, fun hb => ?_,
    fun hb cy loop hcode => ?_, fun hb k hkernel => ?_, fun hb => ⟨fun hmode => ?_, fun hmode hrun => ?_,
      fun hmode hidle hdrained hfirst hwf => ?_, fun hmode hidle hdrained hdetaching hwf => ?_, fun hmode hstaged hc => ?_⟩,
    fun hb => ⟨fun hrun => ?_, fun hidle => ?_⟩, fun hmode => next_on_congr (if_pos hmode), fun hmode hdetaching hqueue hwaiting => ?_⟩
  · obtain ⟨us, hdev⟩ := s.during_dev h c fun x d => rpStatusSpec.act x c d
    rw [hdev]
    exact rpStatus_clears hbegun hclear hwf
  · exact cmdRow_effect hb (rpMemWrite_act_eq hbegun)
  · exact cmdRow_effect hb rfl
  · exact cmdRow_effect hb (rpLoad_act_eq hbegun hcode)
  · exact cmdRow_effect hb (rpRun_act_eq hbegun hkernel)
  · exact cmdRow_effect hb (rpStop_ends hbegun hmode)
  · exact cmdRow_effect hb (rpStop_stages hbegun hmode hrun)
  · exact cmdRow_effect hb (rpStop_detaches_alone hbegun hmode (begins_op hb) hidle hdrained hwf hfirst)
  · exact cmdRow_effect hb (rpStop_detaches_all hbegun hmode (begins_op hb) hidle hdrained hwf hdetaching)
  · exact cmdRow_effect hb (rpStop_unchanged hbegun hmode (stagedCmds_putCmd hstaged hc))
  · exact cmdRow_effect hb (rpApply_stages (d := putCmd c (s.sync h).dev) hrun)
  · exact cmdRow_effect hb (rpApply_applies (d := putCmd c (s.sync h).dev) (begins_op hb) hidle)
  · have hdetaches : rpDetachComplete p s.ctx s.dev = detachNow p s.dev :=
      rpDetachComplete_detaches rfl hmode hdetaching hqueue hwaiting s.ctx
    exact ⟨next_on_congr hdetaches, fun n hseqs hcmd hlive => next_on_congr (hdetaches.trans (detachNow_one rfl hseqs hcmd hlive))⟩

end Sys2Proof.Machine
end

section
/-! The step of the block: the front command runs on the rest of the queue. -/

namespace Sys2Proof.Machine

/-- Settles O1: `step` looks at the queue, whose front the state names. -/
theorem stepRunsTheFrontCommand : Obligations.StepRunsTheFrontCommand := fun _ _ _ => rfl

end Sys2Proof.Machine
end

section
/-! The facet interpolation (R369): its value at an entry, beyond the ends, and between two entries. -/

namespace Sys2Proof.Machine

/-- At or below the lowest entry the interpolation gives that entry's trims. -/
theorem interpolate_below {a : Entry} {rest : List Entry} {t : Int} (h : t ≤ a.temp) : interpolate (a :: rest) t = a.trim := by
  cases rest with
  | nil => rfl
  | cons b rest => exact if_pos h

/-- From the second entry on the first one has no part in the interpolation. -/
theorem interpolate_above {a b : Entry} {rest : List Entry} {t : Int} (hab : a.temp < b.temp) (h : b.temp ≤ t) :
    interpolate (a :: b :: rest) t = interpolate (b :: rest) t := by
  rw [interpolate, if_neg (by omega), if_neg (by omega)]

theorem interpolate_between {a b : Entry} {rest : List Entry} {t : Int} (ha : a.temp < t) (hb : t < b.temp) :
    interpolate (a :: b :: rest) t = mixed a b t := by
  rw [interpolate, if_neg (by omega), if_pos hb]

/-- At an entry's temperature the interpolation gives that entry's trims. -/
theorem interpolate_entry {points : List Entry} (hp : points.Pairwise (fun a b => a.temp < b.temp)) {e : Entry} (he : e ∈ points) :
    interpolate points e.temp = e.trim := by
  induction points with
  | nil => cases he
  | cons a rest ih =>
    obtain ⟨hlow, hrest⟩ := List.pairwise_cons.mp hp
    rcases List.mem_cons.mp he with rfl | he
    · exact interpolate_below le_rfl
    · cases rest with
      | nil => cases he
      | cons b rest =>
        have hb : b.temp ≤ e.temp := by
          rcases List.mem_cons.mp he with rfl | hin
          · exact le_rfl
          · exact ((List.pairwise_cons.mp hrest).1 e hin).le
        rw [interpolate_above (hlow b List.mem_cons_self) hb]
        exact ih hrest he

/-- At or above the highest entry it gives that entry's trims. -/
theorem interpolate_last {front : List Entry} {z : Entry} {t : Int} (hp : (front ++ [z]).Pairwise (fun a b => a.temp < b.temp))
    (h : z.temp ≤ t) : interpolate (front ++ [z]) t = z.trim := by
  induction front with
  | nil => rfl
  | cons a front ih =>
    obtain ⟨hlow, hrest⟩ := List.pairwise_cons.mp hp
    cases front with
    | nil => exact interpolate_above (hlow z (by simp)) h
    | cons b front =>
      have hb : b.temp < z.temp := (List.pairwise_cons.mp hrest).1 z (by simp)
      exact (interpolate_above (hlow b (by simp)) (by omega)).trans (ih hrest)

/-- A value at `num / den` of the way from `u` to `v` lies between them. -/
theorem between_bounds {u v num : Int} {den : Nat} (h0 : 0 ≤ num) (h1 : num ≤ den) (hden : 0 < den) :
    min u v ≤ between u v num den ∧ between u v num den ≤ max u v := by
  have hlo : min u v * den ≤ u * den + (v - u) * num := by
    rcases le_total u v with h | h
    · rw [min_eq_left h]; nlinarith
    · rw [min_eq_right h]; nlinarith
  have hhi : u * den + (v - u) * num ≤ max u v * den := by
    rcases le_total u v with h | h
    · rw [max_eq_right h]; nlinarith
    · rw [max_eq_left h]; nlinarith
  unfold between roundHalfUp
  rw [Int.fdiv_eq_ediv_of_nonneg _ (by omega)]
  constructor
  · rw [Int.le_ediv_iff_mul_le (by omega)]; nlinarith
  · rw [← Int.lt_add_one_iff, Int.ediv_lt_iff_lt_mul (by omega)]; nlinarith

/-- Settles O52: at an entry and beyond the ends by induction on the entries, between two of them by `between_bounds`. -/
theorem interpolationMeetsItsEntries : Obligations.InterpolationMeetsItsEntries := by
  intro points t hp
  refine ⟨fun e he => interpolate_entry hp he, fun a rest hpoints ht => ?_, fun front z hpoints ht => ?_, fun a b hpoints ha hb => ?_⟩
  · rw [hpoints]; exact interpolate_below ht
  · subst hpoints; exact interpolate_last hp ht
  · subst hpoints
    have hab : a.temp < b.temp := (List.pairwise_cons.mp hp).1 b (by simp)
    rcases ha.eq_or_lt with rfl | ha
    · rw [interpolate_below le_rfl]; exact ⟨min_le_left _ _, le_max_left _ _⟩
    · rcases hb.eq_or_lt with rfl | hb
      · rw [interpolate_entry hp (by simp)]; exact ⟨min_le_right _ _, le_max_right _ _⟩
      · rw [interpolate_between ha hb]
        exact between_bounds (by omega) (by omega) (by omega)

end Sys2Proof.Machine
end

section
/-! The layout of a link frame (R442, R443): its parts, their lengths, and what a receiver reads of each. -/

namespace Sys2Proof.Machine

/-! The check sequence. -/

theorem crcBit_lt {c : Nat} (h : c < 2 ^ 32) : crcBit c < 2 ^ 32 := by
  unfold crcBit
  split
  · exact Nat.xor_lt_two_pow (by omega) (by decide)
  · omega

theorem crcByte_lt {c : Nat} (h : c < 2 ^ 32) (b : Byte) : crcByte c b < 2 ^ 32 :=
  crcBit_lt <| crcBit_lt <| crcBit_lt <| crcBit_lt <| crcBit_lt <| crcBit_lt <| crcBit_lt <| crcBit_lt <|
    Nat.xor_lt_two_pow h (lt_of_lt_of_le b.isLt (by decide))

/-- A CRC-32C fits its field of 4 bytes. -/
theorem crc32c_lt (bs : List Byte) : crc32c bs < 2 ^ 32 := by
  have hfold : ∀ (bs : List Byte) (c : Nat), c < 2 ^ 32 → bs.foldl crcByte c < 2 ^ 32 := by
    intro bs
    induction bs with
    | nil => exact fun _ h => h
    | cons b bs ih => exact fun c h => ih _ (crcByte_lt h b)
  exact Nat.xor_lt_two_pow (hfold bs _ (by decide)) (by decide)

/-! The parts of a frame. -/

@[simp] theorem length_zeros (n : Nat) : (zeros n).length = n := List.length_replicate

theorem fromLe_zeros (n : Nat) : fromLe (zeros n) = 0 := by
  induction n with
  | zero => rfl
  | succ n ih => rw [zeros, List.replicate_succ, fromLe, ← zeros, ih]; rfl

/-- Bytes 0 to 15: sequence number, slot, shot base, chord count, timed, acknowledgement. -/
def frameHead (f : LinkFrame) : List Byte :=
  le 2 f.seq ++ (le 4 f.slot ++ (le 6 f.shotBase ++ (le 1 f.chords.length ++ (le 1 (flag f.timed 0) ++ le 2 f.ack))))

/-- The entries of the chords, 3 bytes each. -/
def chordEntries (base : Nat) (cs : List Chord) : List Byte := cs.flatMap (fun c => le 3 (chordEntry base c))

/-- Bytes 16 to 159: places for 48 chords. -/
def chordPart (f : LinkFrame) : List Byte := chordEntries f.shotBase f.chords ++ zeros (3 * (48 - f.chords.length))

/-- Bytes 160 to 175. -/
def firePart (m : Option FireMsg) : List Byte := (m.map fireBytes).getD (zeros 16)

/-- Bytes 176 to 199. -/
def ctrlPart (m : Option CtrlMsg) : List Byte := (m.map ctrlBytes).getD (zeros 24)

/-- The bytes of a segment with its number. -/
def segBytes (g : Segment) : List Byte := le 1 1 ++ (le 2 g.seq ++ (g.bytes.take 32 ++ zeros (32 - g.bytes.length)))

/-- Bytes 201 to 235. -/
def segPart (g : Option Segment) : List Byte := (g.map segBytes).getD (zeros 35)

theorem frameBody_eq (f : LinkFrame) : frameBody f =
    frameHead f ++ (chordPart f ++ (firePart f.fire ++ (ctrlPart f.ctrl ++ (le 1 f.creditRet ++ segPart f.seg)))) := by
  obtain ⟨seq, slot, base, timed, ack, chords, fire, ctrl, ret, seg⟩ := f
  simp only [frameBody, frameHead, chordPart, List.append_assoc]
  cases fire <;> cases ctrl <;> cases seg <;> simp [firePart, ctrlPart, segPart, segBytes, chordEntries]

@[simp] theorem length_frameHead (f : LinkFrame) : (frameHead f).length = 16 := by simp [frameHead]

@[simp] theorem length_chordEntries (base : Nat) (cs : List Chord) : (chordEntries base cs).length = 3 * cs.length := by
  induction cs with
  | nil => rfl
  | cons c cs ih => rw [chordEntries, List.flatMap_cons, List.length_append, ← chordEntries, ih, length_le, List.length_cons]; omega

theorem length_chordPart {f : LinkFrame} (h : f.chords.length ≤ 48) : (chordPart f).length = 144 := by
  rw [chordPart, List.length_append, length_chordEntries, length_zeros]; omega

@[simp] theorem length_fireBytes (m : FireMsg) : (fireBytes m).length = 16 := by simp [fireBytes]

@[simp] theorem length_ctrlBytes (m : CtrlMsg) : (ctrlBytes m).length = 24 := by simp [ctrlBytes]

@[simp] theorem length_firePart (m : Option FireMsg) : (firePart m).length = 16 := by cases m <;> simp [firePart]

@[simp] theorem length_ctrlPart (m : Option CtrlMsg) : (ctrlPart m).length = 24 := by cases m <;> simp [ctrlPart]

@[simp] theorem length_segPart (g : Option Segment) : (segPart g).length = 35 := by
  cases g with
  | none => simp [segPart]
  | some g => simp [segPart, segBytes]; omega

theorem length_frameBody {f : LinkFrame} (h : f.chords.length ≤ 48) : (frameBody f).length = 236 := by
  simp [frameBody_eq, length_chordPart h]

theorem length_frameBytes {f : LinkFrame} (h : f.chords.length ≤ 48) : (frameBytes f).length = 240 := by
  simp [frameBytes, length_frameBody h]

/-! What a receiver reads of a part. -/

/-- The part that begins where those before it end. -/
theorem take_drop_part {a b c : List Byte} {off n : Nat} (ha : a.length = off) (hb : b.length = n) :
    ((a ++ (b ++ c)).drop off).take n = b := by
  rw [← ha, List.drop_left, ← hb, List.take_left]

/-- A field that lies inside the leading part of a list. -/
theorem fld_append_left (a b : List Byte) (off n : Nat) (h : off + n ≤ a.length) : fld (a ++ b) off n = fld a off n := by
  unfold fld
  rw [List.drop_append_of_le_length (by omega), List.take_append_of_le_length (by rw [List.length_drop]; omega)]

/-- The entry of the chord at place `i`. -/
theorem fld_chordEntries {base i : Nat} {cs : List Chord} (h : i < cs.length) (rest : List Byte) :
    fld (chordEntries base cs ++ rest) (3 * i) 3 = chordEntry base cs[i] % 2 ^ 24 := by
  induction cs generalizing i with
  | nil => cases h
  | cons c cs ih =>
    rw [chordEntries, List.flatMap_cons, ← chordEntries, List.append_assoc]
    cases i with
    | zero => exact fld_append_le _ 3 _
    | succ i =>
      rw [fld_append_right _ _ _ _ (by rw [length_le]; omega), length_le, show 3 * (i + 1) - 3 = 3 * i by omega]
      exact ih (by simpa using h)

/-- The bits of an entry that say a chord's state: bit 18 where it is missing, else the state in bits 17 and 16. -/
def stateCode (st : Option (BitVec 2)) : Nat := (st.map BitVec.toNat).getD 4

theorem stateCode_lt (st : Option (BitVec 2)) : stateCode st < 8 := by
  cases st with
  | none => decide
  | some s => exact lt_trans s.isLt (by decide)

theorem state_of_stateCode (st : Option (BitVec 2)) :
    (if stateCode st / 4 = 1 then none else some (BitVec.ofNat 2 (stateCode st % 4))) = st := by
  cases st with
  | none => rfl
  | some s =>
    have hs : s.toNat < 4 := s.isLt
    change (if s.toNat / 4 = 1 then none else some (BitVec.ofNat 2 (s.toNat % 4))) = some s
    rw [if_neg (by omega), Nat.mod_eq_of_lt hs, BitVec.ofNat_toNat, BitVec.setWidth_eq]

/-- An entry as its fields stand beside one another. -/
theorem chordEntry_eq (base : Nat) (c : Chord) (hdev : c.dev < 16) (hchan : c.chan < 256) (hord : c.ord < 4) :
    chordEntry base c =
      c.chan + 256 * c.dev + 4096 * c.slow.toNat + 8192 * c.ord + 32768 * (c.shot - base) + 65536 * stateCode c.state := by
  have hflag : flag c.slow 12 = 4096 * c.slow.toNat := by cases c.slow <;> rfl
  simp only [chordEntry, bits, hflag, Nat.mod_eq_of_lt hord, Nat.mod_eq_of_lt hdev, Nat.pow_zero, Nat.div_one,
    Nat.mod_eq_of_lt (show c.chan < 2 ^ (7 - 0 + 1) from hchan)]
  cases c.state <;> rfl

/-- A chord of the shot base's shot or the next one fits its 24 bits, and is read back from them. -/
theorem chordOf_chordEntry {base : Nat} {c : Chord} (hdev : c.dev < 16) (hchan : c.chan < 256) (hord : c.ord < 4)
    (hshot : c.shot = base ∨ c.shot = base + 1) : chordOf base (chordEntry base c % 2 ^ 24) = c := by
  have hentry := chordEntry_eq base c hdev hchan hord
  have hcode := stateCode_lt c.state
  have hstate := state_of_stateCode c.state
  obtain ⟨dev, slow, chan, ord, shot, state⟩ := c
  simp only at hentry hdev hchan hord hshot hcode hstate
  generalize stateCode state = w at hentry hcode hstate
  subst hstate
  have hslow : slow.toNat < 2 := slow.toNat_lt
  have hslowBit : (slow.toNat == 1) = slow := by cases slow <;> rfl
  generalize hn : chordEntry base _ % 2 ^ 24 = n
  have hfields : n % 256 = chan ∧ n / 256 % 16 = dev ∧ n / 4096 % 2 = slow.toNat ∧ n / 8192 % 4 = ord ∧
      base + n / 32768 % 2 = shot ∧ n / 65536 % 4 = w % 4 ∧ n / 262144 % 2 = w / 4 := by
    omega
  obtain ⟨h1, h2, h3, h4, h5, h6, h7⟩ := hfields
  simp [chordOf, bits, bitOf, h1, h2, h3, h4, h5, h6, h7, hslowBit]

/-- The chords read back from their places. -/
theorem chords_read_back {base : Nat} {cs : List Chord} (rest : List Byte)
    (h : ∀ c ∈ cs, c.dev < 16 ∧ c.chan < 256 ∧ c.ord < 4 ∧ (c.shot = base ∨ c.shot = base + 1)) :
    (List.range cs.length).map (fun i => chordOf base (fld (chordEntries base cs ++ rest) (3 * i) 3)) = cs := by
  apply List.ext_getElem
  · simp
  · intro i hi hi'
    obtain ⟨hdev, hchan, hord, hshot⟩ := h cs[i] (List.getElem_mem hi')
    rw [List.getElem_map, List.getElem_range, fld_chordEntries hi', chordOf_chordEntry hdev hchan hord hshot]

theorem bitOf_flag (b : Bool) : bitOf (flag b 0 % 2 ^ 8) 0 = b := by cases b <;> rfl

theorem fireOf_firePart {m : Option FireMsg} (h : ∀ q, m = some q → q.origin < 2 ^ 8 ∧ q.t < 2 ^ 64) : fireOf (firePart m) = m := by
  cases m with
  | none => rfl
  | some q =>
    obtain ⟨horigin, ht⟩ := h q rfl
    simp only [fireOf, firePart, Option.map_some, Option.getD_some, fireBytes, List.append_assoc, fld_append_right, fld_append_le, fld_le,
      length_le, length_zeros, Nat.reduceLeDiff, Nat.reduceSub, Nat.reduceMul, bitOf_flag, Nat.mod_eq_of_lt horigin, Nat.mod_eq_of_lt ht]
    rfl

/-- The two flags of a control message are read back from their byte. -/
theorem bitOf_two_flags (a b : Bool) : bitOf ((flag a 0 + flag b 1) % 2 ^ 8) 0 = a ∧ bitOf ((flag a 0 + flag b 1) % 2 ^ 8) 1 = b := by
  cases a <;> cases b <;> decide

theorem ctrlOf_ctrlPart {m : Option CtrlMsg} (h : ∀ q, m = some q → (q.type = 2 ∨ q.type = 3 ∨ q.type = 4) ∧ q.origin < 2 ^ 8 ∧
    q.members < 2 ^ 16 ∧ q.fireDelay < 2 ^ 16 ∧ q.armAt < 2 ^ 64 ∧ q.count < 2 ^ 32 ∧ q.cycle < 2 ^ 32) : ctrlOf (ctrlPart m) = m := by
  cases m with
  | none => rfl
  | some q =>
    obtain ⟨htype, horigin, hmembers, hdelay, harm, hcount, hcycle⟩ := h q rfl
    have hbyte : q.type % 2 ^ 8 = q.type := Nat.mod_eq_of_lt (by omega)
    obtain ⟨hcontinuous, hcopy⟩ := bitOf_two_flags q.continuous q.copy
    simp only [ctrlOf, ctrlPart, Option.map_some, Option.getD_some, ctrlBytes, List.append_assoc, fld_append_right, fld_append_le, fld_le,
      length_le, length_zeros, Nat.reduceLeDiff, Nat.reduceSub, Nat.reduceMul, hbyte, hcontinuous, hcopy, Nat.mod_eq_of_lt horigin,
      Nat.mod_eq_of_lt hmembers, Nat.mod_eq_of_lt hdelay, Nat.mod_eq_of_lt harm, Nat.mod_eq_of_lt hcount, Nat.mod_eq_of_lt hcycle, if_pos htype]

/-- The segment of 35 bytes, if they hold one. -/
def segOf (b : List Byte) : Option Segment :=
  if bitOf (fld b 0 1) 0 then some { seq := fld b 1 2, bytes := (b.drop 3).take 32 } else none

theorem segOf_segPart {g : Option Segment} (rest : List Byte)
    (h : ∀ q, g = some q → q.seq < 2 ^ 16 ∧ q.bytes.length = 32 ∧ q.age = 0 ∧ q.again = false ∧ q.lost = false) :
    segOf (segPart g ++ rest) = g := by
  cases g with
  | none =>
    have hmark : bitOf (fld (segPart none ++ rest) 0 1) 0 = false := by
      rw [fld_append_left _ _ _ _ (by simp)]
      rfl
    rw [segOf, hmark]
    rfl
  | some q =>
    obtain ⟨hseq, hlen, hage, hagain, hlost⟩ := h q rfl
    obtain ⟨seq, bytes, age, again, lost⟩ := q
    simp only at hseq hlen hage hagain hlost
    subst hage hagain hlost
    have hpart : segPart (some ⟨seq, bytes, 0, false, false⟩) ++ rest = le 1 1 ++ (le 2 seq ++ (bytes ++ rest)) := by
      simp [segPart, segBytes, hlen, zeros, List.take_of_length_le hlen.le]
    have hbytes : ((le 1 1 ++ (le 2 seq ++ (bytes ++ rest))).drop 3).take 32 = bytes := by
      rw [← List.append_assoc]
      exact take_drop_part (by simp) hlen
    simp only [segOf, hpart, hbytes, fld_append_right, fld_append_le, length_le, Nat.reduceLeDiff, Nat.reduceSub, Nat.reduceMul,
      Nat.mod_eq_of_lt hseq]
    rfl

/-! The whole frame. -/

/-- A field, counted from an offset before it. -/
theorem fld_drop (b : List Byte) (a off n : Nat) : fld (b.drop a) off n = fld b (a + off) n := by rw [fld, List.drop_drop, fld]

/-- The fields of the first 16 bytes. -/
theorem frameHead_fields {f : LinkFrame} (rest : List Byte) (hseq : f.seq < 2 ^ 16) (hslot : f.slot < 2 ^ 32) (hbase : f.shotBase < 2 ^ 48)
    (hack : f.ack < 2 ^ 16) (hcount : f.chords.length ≤ 48) :
    let b := frameHead f ++ rest
    fld b 0 2 = f.seq ∧ fld b 2 4 = f.slot ∧ fld b 6 6 = f.shotBase ∧ fld b 12 1 = f.chords.length ∧ bitOf (fld b 13 1) 0 = f.timed ∧
      fld b 14 2 = f.ack := by
  have hlen : f.chords.length < 2 ^ 8 := by omega
  simp only [frameHead, List.append_assoc, fld_append_right, fld_append_le, length_le, Nat.reduceLeDiff, Nat.reduceSub, Nat.reduceMul,
    Nat.mod_eq_of_lt hseq, Nat.mod_eq_of_lt hslot, Nat.mod_eq_of_lt hbase, Nat.mod_eq_of_lt hack, Nat.mod_eq_of_lt hlen, bitOf_flag,
    and_self]

/-- A frame of 240 bytes whose CRC holds is what its parts hold. -/
theorem frameOf_eq {b : List Byte} (hlen : b.length = 240) (hcrc : fld b 236 4 = crc32c (b.take 236)) : frameOf b = some {
    seq := fld b 0 2, slot := fld b 2 4, shotBase := fld b 6 6, timed := bitOf (fld b 13 1) 0, ack := fld b 14 2
    chords := (List.range (min 48 (fld b 12 1))).map (fun i => chordOf (fld b 6 6) (fld b (16 + 3 * i) 3))
    fire := fireOf ((b.drop 160).take 16), ctrl := ctrlOf ((b.drop 176).take 24), creditRet := fld b 200 1, seg := segOf (b.drop 201) } := by
  rw [frameOf, if_neg (by simp [hlen, hcrc]), segOf, fld_drop, fld_drop, List.drop_drop]

/-- Where the parts after the head begin. -/
theorem frame_parts {head chords fire ctrl rest : List Byte} (hhead : head.length = 16) (hchords : chords.length = 144)
    (hfire : fire.length = 16) (hctrl : ctrl.length = 24) :
    let b := head ++ (chords ++ (fire ++ (ctrl ++ rest)))
    b.drop 16 = chords ++ (fire ++ (ctrl ++ rest)) ∧ (b.drop 160).take 16 = fire ∧ (b.drop 176).take 24 = ctrl ∧ b.drop 200 = rest := by
  have h160 : (head ++ chords).length = 160 := by simp [hhead, hchords]
  have h176 : (head ++ chords ++ fire).length = 176 := by simp [hhead, hchords, hfire]
  have h200 : (head ++ chords ++ fire ++ ctrl).length = 200 := by simp [hhead, hchords, hfire, hctrl]
  refine ⟨List.drop_left' hhead, ?_, ?_, ?_⟩
  · rw [← List.append_assoc]; exact take_drop_part h160 hfire
  · rw [← List.append_assoc, ← List.append_assoc]; exact take_drop_part h176 hctrl
  · rw [← List.append_assoc, ← List.append_assoc, ← List.append_assoc]; exact List.drop_left' h200

/-- Settles O56: the CRC holds, and each part, which begins where those before it end, is read back on its own. -/
theorem linkFrameReadsBackWhole : Obligations.LinkFrameReadsBackWhole := by
  intro f hseq hslot hbase hack hret hcount hchords hfire hctrl hseg
  have hlen := length_frameBytes hcount
  have hbody := length_frameBody hcount
  refine ⟨hlen, ?_⟩
  have hcrc : fld (frameBytes f) 236 4 = crc32c ((frameBytes f).take 236) := by
    rw [frameBytes, fld_append_right _ _ _ _ hbody.le, hbody, fld_le, Nat.mod_eq_of_lt (crc32c_lt _), List.take_left' hbody]
  obtain ⟨tail, hbytes⟩ : ∃ tail, frameBytes f = frameHead f ++ (chordPart f ++ (firePart f.fire ++ (ctrlPart f.ctrl ++
      (le 1 f.creditRet ++ (segPart f.seg ++ tail))))) := ⟨_, by simp only [frameBytes, frameBody_eq, List.append_assoc]; rfl⟩
  obtain ⟨h0, h2, h6, h12, h13, h14⟩ := frameHead_fields (rest := chordPart f ++ (firePart f.fire ++ (ctrlPart f.ctrl ++
    (le 1 f.creditRet ++ (segPart f.seg ++ tail))))) hseq hslot hbase hack hcount
  obtain ⟨h16, h160, h176, h200⟩ := frame_parts (rest := le 1 f.creditRet ++ (segPart f.seg ++ tail)) (length_frameHead f)
    (length_chordPart hcount) (length_firePart f.fire) (length_ctrlPart f.ctrl)
  rw [← hbytes] at h0 h2 h6 h12 h13 h14 h16 h160 h176 h200
  have hchordsRead : (List.range f.chords.length).map (fun i => chordOf f.shotBase (fld (frameBytes f) (16 + 3 * i) 3)) = f.chords := by
    simp only [← fld_drop _ 16, h16, chordPart, List.append_assoc]
    exact chords_read_back _ hchords
  have hretRead : fld (frameBytes f) 200 1 = f.creditRet := by
    rw [← Nat.add_zero 200, ← fld_drop, h200, fld_append_le, Nat.mod_eq_of_lt hret]
  have hsegRead : (frameBytes f).drop 201 = segPart f.seg ++ tail := by
    rw [← List.drop_drop (i := 1) (j := 200), h200, List.drop_left' (length_le _ _)]
  rw [frameOf_eq hlen hcrc, h0, h2, h6, h12, h13, h14, h160, h176, hretRead, hsegRead, Nat.min_eq_right hcount, hchordsRead,
    fireOf_firePart hfire, ctrlOf_ctrlPart hctrl, segOf_segPart tail hseg]

end Sys2Proof.Machine
end

section
/-! ACQ_RING_REBASE with a geometry staged (R342, R528): the report carries the generation after the rebase. -/

namespace Sys2Proof.Machine

/-- ACQ_RING_REBASE of ring 0, accepted and not begun: opcode 0x0702, LENGTH 4, every other byte 0. -/
def rebaseRing0 : Cmd := { seq := 1, bytes := le 2 0x0702 ++ zeros 6 ++ le 4 4 }

/-- A ready device in which that command waits, ring 0 running in generation 0 with a geometry staged. -/
def rebaseStaged : State := { dev := {
  hif := { state := .ready }
  core := { cmds := [rebaseRing0] }
  acq := { rings := [(0, { enabled := true, everEnabled := true, geo := ⟨16, 32, 4096⟩, staged := some ⟨32, 32, 4096⟩ })] } } }

/-- The generations that the KIND 2 reports of a state carry. -/
def reportedGens (s : State) : List Nat := s.dev.ledger.reports.map (·.c)

theorem rebaseStaged_begins : rebaseStaged.begins acqRingRebaseSpec 0 {} = some { rebaseRing0 with begun := true } := by decide

/-- The staged geometry takes effect with the rebase, so the generation reported is the next one. -/
theorem exec_rebaseStaged : ∃ t, exec (.acqRingRebase 0 {}) rebaseStaged = .next t ∧ reportedGens t = [1] :=
  ⟨_, cmdRow_begins rebaseStaged_begins, by decide⟩

/-- Refutes O48: for ACQ_RING_REBASE it says that the report's C is the generation before the rebase. With a geometry staged that
generation is 0, and C is 1, the generation in force after the rebase, as R528 asks. -/
theorem not_acquisitionCommands : ¬ Obligations.AcquisitionCommands := by
  intro h
  obtain ⟨-, -, hrebase, -⟩ := h 0 {} [] rebaseStaged { rebaseRing0 with begun := true }
  obtain ⟨t, hexec, hgens⟩ := exec_rebaseStaged
  obtain rfl : t = _ := Host.Outcome.next.inj (hexec.symm.trans (hrebase rebaseStaged_begins))
  exact absurd hgens (by decide)

end Sys2Proof.Machine
end

section
/-! What the end of a command leaves: shared blocks, HIF registers and pending events. -/

namespace Sys2Proof.Machine

/-- Reports are no part of the shared blocks. -/
theorem Reports.sharedOf {d e : Dev} (h : Reports d e) : sharedOf e = sharedOf d := by
  rw [h.1]
  rfl

theorem Reports.time {d e : Dev} (h : Reports d e) : e.time = d.time := by rw [h.1]
theorem Reports.marker {d e : Dev} (h : Reports d e) : e.marker = d.marker := by rw [h.1]

/-- What is sent out after a change that only reports see, is sent out. -/
theorem SentOut.after {d e f : Dev} (g : SentOut e f) (honly : OnlyReports d e) (hwr : e.wr = d.wr) (hhif : e.hif = d.hif)
    (hevt : e.evt = d.evt) : SentOut d f :=
  SentOut.trans ⟨.quiet honly hwr, hhif, by rw [hevt], fun _ h => by rw [hevt]; exact h⟩ g

theorem sentOut_event (src inst arg : Nat) (d : Dev) : SentOut d (event src inst arg d) := (raised_event src inst arg d).sentOut

theorem sentOut_publish (r : Report) (d : Dev) : SentOut d (publish r d) :=
  (sentOut_event _ _ _ _).after rfl rfl rfl rfl

theorem sentOut_settleFlrs (d : Dev) : SentOut d (settleFlrs d) :=
  (sentOut_foldl _ (fun _ _ => sentOut_publish _ _) _ _).after rfl rfl rfl rfl

theorem sentOut_deliver (m : Nat) (k : Completion) (d : Dev) : SentOut d (deliver m k d) := by
  unfold deliver
  split
  · exact sentOut_postNow m k d
  · exact sentOut_setMb _ _ d

/-- The end of a command loses no pending event and leaves the HIF registers. -/
theorem sentOut_finishWith (c : Cmd) (k : Completion) (d : Dev) : SentOut d (finishWith c k d) := by
  unfold finishWith flrEnded
  simp only
  split
  · exact (sentOut_settleFlrs _).after rfl rfl rfl rfl
  · exact (sentOut_deliver _ _ _).after rfl rfl rfl rfl

theorem sentOut_doneCmd (c : Cmd) (status : Nat) (d : Dev) : SentOut d (doneCmd c status d) := sentOut_finishWith _ _ _

/-- Ending a command with a failure is no effect on shared blocks, so the journal keeps none of it. -/
theorem journal_failCmd (c : Cmd) (f : Fail) (d : Dev) : journal c.seq (failCmd c f) d = failCmd c f d :=
  journal_same (reports_failCmd c f d).sharedOf

end Sys2Proof.Machine
end

section
/-! Wall time (R408 to R412, R417 to R420): a step, a rate, and what a pulse generator does with its pin. -/

namespace Sys2Proof.Machine

/-- From `d` to `e` pulse generators pass targets: of the time only they and the count of skipped pulses differ, and no pending event
is lost. -/
structure PassesTargets (d e : Dev) : Prop where
  time : ∃ gens skipped, e.time = { d.time with gens := gens, pulsesSkipped := skipped }
  pend : ∀ i, d.evt.pend.getLsbD i = true → e.evt.pend.getLsbD i = true

theorem PassesTargets.refl (d : Dev) : PassesTargets d d := ⟨⟨_, _, rfl⟩, fun _ h => h⟩

theorem PassesTargets.trans {d e f : Dev} (h : PassesTargets d e) (g : PassesTargets e f) : PassesTargets d f := by
  obtain ⟨gens, skipped, hd⟩ := h.time
  obtain ⟨gens', skipped', he⟩ := g.time
  exact ⟨⟨gens', skipped', by rw [he, hd]⟩, fun i hi => g.pend i (h.pend i hi)⟩

theorem PassesTargets.after {d e f : Dev} {gens : Store WallGen} {skipped : Nat} (g : PassesTargets e f)
    (htime : e.time = { d.time with gens := gens, pulsesSkipped := skipped }) (hevt : e.evt = d.evt) : PassesTargets d f :=
  PassesTargets.trans ⟨⟨_, _, htime⟩, fun _ h => by rw [hevt]; exact h⟩ g

theorem SentOut.passesTargets {d e : Dev} (h : SentOut d e) : PassesTargets d e := ⟨⟨_, _, h.reports.time⟩, h.pend⟩

theorem passesTargets_setGen (n : Nat) (g : WallGen) (d : Dev) : PassesTargets d (d.setGen n g) := ⟨⟨_, _, rfl⟩, fun _ h => h⟩

theorem passesTargets_releaseGen (n : Nat) (d : Dev) : PassesTargets d (releaseGen n d) := ⟨⟨_, _, rfl⟩, fun _ h => h⟩

theorem passesTargets_useTargets (n k : Nat) (d : Dev) : PassesTargets d (useTargets n k d) := by
  unfold useTargets
  extract_lets g left g1
  split_ifs
  · exact passesTargets_setGen n _ d
  · exact passesTargets_setGen n _ d
  · exact (passesTargets_setGen n g1 d).trans (passesTargets_releaseGen n _)

theorem passesTargets_skipTargets (w n : Nat) (d : Dev) : PassesTargets d (skipTargets w n d) := by
  unfold skipTargets
  simp only
  split
  · exact .refl d
  · exact (passesTargets_useTargets _ _ _).after rfl rfl

theorem passesTargets_forAll {f : Nat → Dev → Dev} (hf : ∀ n d, PassesTargets d (f n d)) (ns : List Nat) (d : Dev) :
    PassesTargets d (d.forAll ns f) :=
  List.foldlRecOn (motive := PassesTargets d) ns _ (.refl d) fun _ h n _ => h.trans (hf n _)

theorem passesTargets_stepForward (w : Nat) (d : Dev) : PassesTargets d (stepForward w d) := by
  unfold stepForward
  have hskips := passesTargets_forAll (passesTargets_skipTargets w) (List.range 4) d
  simp only
  split
  · exact hskips
  · exact hskips.trans (sentOut_event _ _ _ _).passesTargets

section
variable {c : Cmd} {d : Dev}

/-- A wall time once stepped is not stepped again without FORCE (R409, R418). -/
theorem applyStep_refused (hstepped : d.time.stepped = true) (hforce : bitOf (c.arg 1 1) 0 = false) :
    applyStep c d = failCmd c (atPayload 0x0915 1) d := by
  simp [applyStep, hstepped, hforce]

/-- The device of a step that takes effect, before it passes any target (R409). -/
def stepped (c : Cmd) (d : Dev) : Dev :=
  event 113 0xFFFF (addW 32 d.time.steps 1)
    { d with time := { d.time with w0 := stepValue c d, r0 := d.time.raw, stepped := true, steps := addW 32 d.time.steps 1 } }

theorem stepped_time (c : Cmd) (d : Dev) : (stepped c d).time =
    { d.time with w0 := stepValue c d, r0 := d.time.raw, stepped := true, steps := addW 32 d.time.steps 1 } :=
  (sentOut_event _ _ _ _).reports.time

theorem applyStep_steps (h : d.time.stepped = false ∨ bitOf (c.arg 1 1) 0 = true) : PassesTargets (stepped c d) (applyStep c d) := by
  have hmay : (d.time.stepped && !bitOf (c.arg 1 1) 0) = false := by rcases h with h | h <;> simp [h]
  unfold applyStep
  rw [hmay, if_neg Bool.false_ne_true]
  refine PassesTargets.trans ?_ (sentOut_doneCmd _ _ _).passesTargets
  show PassesTargets (stepped c d) (if wallNow d < stepValue c d then stepForward (stepValue c d) (stepped c d) else stepped c d)
  split
  · exact passesTargets_stepForward _ _
  · exact .refl _

theorem wtStepApply_eq (hnext : nextStep d = some c) (x : Ctx) :
    wtStepApply x d = journal c.seq (applyStep c) (advanceTo c.aux d) := by
  simp [wtStepApply, hnext]

end

/-- A rate takes effect one tick on, without a step (R409). -/
theorem wtRate_time (x : Ctx) (c : Cmd) (d : Dev) : (wtRateSpec.act x c d).time =
    { (advance 1 d).time with w0 := wallNow (advance 1 d), r0 := (advance 1 d).time.raw, rate := c.argS 0 4 } :=
  (reports_doneCmd _ _ _).time

section
variable {x : Ctx} {c : Cmd} {d : Dev} {n : Nat}

/-- The schedule a WT_PULSE that turns its generator on gives it (R420). -/
def pulseGen (c : Cmd) (g : WallGen) : WallGen := {
  on := true, pin := c.arg 1 1, continuous := bitOf (c.arg 2 1) 1, lowPulse := bitOf (c.arg 2 1) 2, width := c.arg 4 4
  target := c.arg 8 8, period := c.arg 16 8, left := c.arg 24 8, pulseEnd := g.pulseEnd, pulsePin := g.pulsePin, stopping := false }

/-- A generator that is off takes its pin, at its inactive level. -/
theorem wtPulse_takes (hon : bitOf (c.arg 2 1) 0 = true) (hoff : (d.gen (c.arg 0 1)).on = false)
    (hidle : (d.gen (c.arg 0 1)).pulseEnd = none) : wtPulseSpec.act x c d =
      let g := pulseGen c (d.gen (c.arg 0 1))
      doneCmd c 0x0900 (driveGen g false
        ({ d with marker := { d.marker with owned := d.marker.owned ||| BitVec.ofNat 32 (2 ^ c.arg 1 1) } }.setGen (c.arg 0 1) g)) := by
  simp [wtPulseSpec, hon, hoff, hidle, pulseGen]

theorem wtPulse_takes_leaves (hon : bitOf (c.arg 2 1) 0 = true) (hoff : (d.gen (c.arg 0 1)).on = false)
    (hidle : (d.gen (c.arg 0 1)).pulseEnd = none) :
    (wtPulseSpec.act x c d).time = { d.time with gens := Store.set {} d.time.gens (c.arg 0 1) (pulseGen c (d.gen (c.arg 0 1))) } ∧
    (wtPulseSpec.act x c d).marker = { d.marker with
      owned := d.marker.owned ||| BitVec.ofNat 32 (2 ^ c.arg 1 1)
      pins := Store.set 2 d.marker.pins (c.arg 1 1) (if bitOf (c.arg 2 1) 2 then 1 else 0) } := by
  rw [wtPulse_takes hon hoff hidle]
  refine ⟨(reports_doneCmd _ _ _).time, (reports_doneCmd _ _ _).marker.trans ?_⟩
  simp [driveGen, pulseGen, Dev.setGen]

theorem wtPulse_already_off (hflag : bitOf (c.arg 2 1) 0 = false) (hoff : (d.gen (c.arg 0 1)).on = false) :
    wtPulseSpec.act x c d = okCmd c 0x0002 0 [] true d := by
  simp [wtPulseSpec, hflag, hoff]

theorem wtPulse_stops (hflag : bitOf (c.arg 2 1) 0 = false) (hon : (d.gen (c.arg 0 1)).on = true)
    (hpulse : (d.gen (c.arg 0 1)).pulseEnd ≠ none) :
    wtPulseSpec.act x c d = doneCmd c 0x0900 (d.setGen (c.arg 0 1) { d.gen (c.arg 0 1) with stopping := true }) := by
  simp [wtPulseSpec, hflag, hon, Option.isSome_iff_ne_none.mpr hpulse]

theorem wtPulse_releases (hflag : bitOf (c.arg 2 1) 0 = false) (hon : (d.gen (c.arg 0 1)).on = true)
    (hidle : (d.gen (c.arg 0 1)).pulseEnd = none) : wtPulseSpec.act x c d = doneCmd c 0x0900 (releaseGen (c.arg 0 1) d) := by
  simp [wtPulseSpec, hflag, hon, hidle]

theorem Dev.gen_setGen_same (h : Store.wf {} d.time.gens = true) (n : Nat) (g : WallGen) : (d.setGen n g).gen n = g :=
  Store.get_set_same h

theorem Dev.wf_gens_setGen (h : Store.wf {} d.time.gens = true) (n : Nat) (g : WallGen) : Store.wf {} (d.setGen n g).time.gens = true :=
  Store.wf_set h

/-- A continuous generator goes on to its next target (R411). -/
theorem useTargets_continuous (k : Nat) (h : (d.gen n).continuous = true) :
    useTargets n k d = d.setGen n { d.gen n with target := (d.gen n).target + k * (d.gen n).period } := by
  simp [useTargets, h]

/-- A generator that runs, plays no pulse and may drive its pin begins its pulse at its target. -/
theorem wtPulseTarget_drives (hon : (d.gen n).on = true) (hstop : (d.gen n).stopping = false) (hidle : (d.gen n).pulseEnd = none)
    (hsafe : d.marker.safe = false) : wtPulseTarget n x d =
      let d1 := advance (ticksToWall d (d.gen n).target) d
      useTargets n 1 (driveGen (d.gen n) true
        (d1.setGen n { d.gen n with pulseEnd := some (d1.time.raw + (d.gen n).width), pulsePin := (d.gen n).pin })) := by
  simp [wtPulseTarget, hon, hstop, hidle, hsafe]

theorem wtPulseTarget_gen (hon : (d.gen n).on = true) (hstop : (d.gen n).stopping = false) (hidle : (d.gen n).pulseEnd = none)
    (hsafe : d.marker.safe = false) (hcont : (d.gen n).continuous = true) (hwf : Store.wf {} d.time.gens = true) :
    (wtPulseTarget n x d).gen n = { d.gen n with
      pulseEnd := some ((wtPulseTarget n x d).time.raw + (d.gen n).width), pulsePin := (d.gen n).pin
      target := (d.gen n).target + (d.gen n).period } ∧
    (wtPulseTarget n x d).marker = { d.marker with
      pins := Store.set 2 d.marker.pins (d.gen n).pin (if (d.gen n).lowPulse then 0 else 1) } := by
  rw [wtPulseTarget_drives hon hstop hidle hsafe]
  extract_lets d1
  generalize hg1 : ({ d.gen n with pulseEnd := some (d1.time.raw + (d.gen n).width), pulsePin := (d.gen n).pin } : WallGen) = g1
  have hwf1 : Store.wf {} (driveGen (d.gen n) true (d1.setGen n g1)).time.gens = true := Store.wf_set hwf
  have hgen : (driveGen (d.gen n) true (d1.setGen n g1)).gen n = g1 := Store.get_set_same hwf
  rw [useTargets_continuous 1 (by rw [hgen, ← hg1]; exact hcont), hgen]
  refine ⟨?_, ?_⟩
  · rw [Dev.gen_setGen_same hwf1, ← hg1, Nat.one_mul]
    rfl
  · cases hlow : (d.gen n).lowPulse <;> simp only [driveGen, Dev.setGen, hlow] <;> rfl

/-- The trailing edge of a generator that goes on: its pin takes its inactive level, or, where it has left that pin, the pin is free. -/
theorem wtPulseTrailingEdge_ends {e : Nat} (hpulse : (d.gen n).pulseEnd = some e) (hstop : (d.gen n).stopping = false) :
    wtPulseTrailingEdge n x d =
      let d1 := (advance (e - d.time.raw) d).setGen n { d.gen n with pulseEnd := none }
      if (d.gen n).pulsePin = (d.gen n).pin then driveGen (d.gen n) false d1 else freePin (d.gen n).pulsePin d1 := by
  have hgen : (advance (e - d.time.raw) d).gen n = d.gen n := rfl
  simp only [wtPulseTrailingEdge, hpulse, hgen, hstop]
  rfl

theorem wtPulseTrailingEdge_gen {e : Nat} (hpulse : (d.gen n).pulseEnd = some e) (hstop : (d.gen n).stopping = false)
    (hwf : Store.wf {} d.time.gens = true) :
    (wtPulseTrailingEdge n x d).gen n = { d.gen n with pulseEnd := none } ∧
    (wtPulseTrailingEdge n x d).marker = if (d.gen n).pulsePin = (d.gen n).pin
      then { d.marker with pins := Store.set 2 d.marker.pins (d.gen n).pin (if (d.gen n).lowPulse then 1 else 0) }
      else (freePin (d.gen n).pulsePin d).marker := by
  rw [wtPulseTrailingEdge_ends hpulse hstop]
  have hgen : ((advance (e - d.time.raw) d).setGen n { d.gen n with pulseEnd := none }).gen n = { d.gen n with pulseEnd := none } :=
    Dev.gen_setGen_same hwf n _
  simp only
  split
  · exact ⟨hgen, by simp [driveGen, Dev.setGen]⟩
  · exact ⟨hgen, rfl⟩

end

/-- Settles O54: the commands have their own effects; a step passes targets after it has set wall time; a target and a trailing edge
change the generator and its pin. -/
theorem wallTimeRows : Obligations.WallTimeRows := by
  intro mb h s c n t0 g own pin
  refine ⟨fun hb => cmdRow_effect hb rfl, fun hb => cmdRow_effect hb rfl, fun hnext => ⟨fun hstepped hforce => ?_, fun hmay => ?_⟩, fun hb => ?_,
    fun hb => ⟨fun hflag hoff hidle => ?_, fun hflag hoff => ?_, fun hflag hon hpulse => ?_, fun hflag hon hidle => ?_⟩,
    fun hon hstop hidle hsafe hcont hwf hwr => ?_, fun e hpulse hstop hwf => ?_⟩
  · refine next_on_congr ?_
    rw [wtStepApply_eq hnext]
    exact (journal_congr (applyStep_refused (d := advanceTo c.aux s.dev) hstepped hforce)).trans (journal_failCmd _ _ _)
  · obtain ⟨⟨gens, skipped, htime⟩, hpend⟩ := applyStep_steps (d := advanceTo c.aux s.dev) hmay
    refine ⟨_, next_on_writes (wtStepApply_eq hnext s.ctx), ?_⟩
    simp only [journal_time, journal_evt, htime, stepped_time, true_and]
    exact ⟨rfl, hpend 113 (event_pend_self _ _ _ (by decide))⟩
  · obtain ⟨us, hdev⟩ := s.during_dev h c fun x d => wtRateSpec.act x c d
    refine ⟨_, cmdRow_begins hb, ?_⟩
    rw [hdev]
    simp only [wtRate_time, true_and]
    exact ⟨rfl, rfl⟩
  · obtain ⟨us, hdev⟩ := s.during_dev h c fun x d => wtPulseSpec.act x c d
    refine ⟨_, cmdRow_begins hb, ?_⟩
    rw [hdev]
    exact wtPulse_takes_leaves (d := putCmd c (s.sync h).dev) hflag hoff hidle
  · exact cmdRow_effect hb (wtPulse_already_off hflag hoff)
  · exact cmdRow_effect hb (wtPulse_stops hflag hon hpulse)
  · exact cmdRow_effect hb (wtPulse_releases hflag hon hidle)
  · exact ⟨_, next_on_writes rfl, wtPulseTarget_gen hon hstop hidle hsafe hcont hwf⟩
  · exact ⟨_, next_on_writes rfl, wtPulseTrailingEdge_gen hpulse hstop hwf⟩

end Sys2Proof.Machine
end

section
/-! Device links: what each operation does to its own link, and that it leaves the others (R446 to R449, R452, R457). -/

namespace Sys2Proof.Machine

theorem Reports.links {d e : Dev} (h : Reports d e) : e.links = d.links := by rw [h.1]
theorem Reports.domain {d e : Dev} (h : Reports d e) : e.domain = d.domain := by rw [h.1]
theorem LinksOnly.time {d e : Dev} (h : LinksOnly d e) : e.time = d.time := by rw [h]

theorem Dev.link_congr {d e : Dev} (h : e.links = d.links) (l : Nat) : e.link l = d.link l := by rw [Dev.link, h, Dev.link]

section
variable {l : Nat} {d e f : Dev}

theorem Dev.link_setLink_same (h : Store.wf {} d.links = true) (l : Nat) (k : Link) : (d.setLink l k).link l = k := Store.get_set_same h

theorem Dev.link_setLink_other {j : Nat} (k : Link) (h : j ≠ l) : (d.setLink l k).link j = d.link j := Store.get_set_other h

theorem Dev.wf_links_setLink (h : Store.wf {} d.links = true) (l : Nat) (k : Link) : Store.wf {} (d.setLink l k).links = true :=
  Store.wf_set h

theorem Dev.setLink_setLink (h : Store.wf {} d.links = true) (l : Nat) (k q : Link) : (d.setLink l k).setLink l q = d.setLink l q := by
  unfold Dev.setLink
  rw [(Store.rises_of_wf h).set_set]

/-- From `d` to `e`, of the links only link `l` differs. -/
structure OneLink (l : Nat) (d e : Dev) : Prop where
  other : ∀ j, j ≠ l → e.link j = d.link j
  wf : Store.wf {} d.links = true → Store.wf {} e.links = true

theorem OneLink.of_links (h : e.links = d.links) : OneLink l d e := ⟨fun j _ => Dev.link_congr h j, by rw [h]; exact id⟩

theorem OneLink.refl (d : Dev) : OneLink l d d := .of_links rfl

theorem OneLink.trans (h : OneLink l d e) (g : OneLink l e f) : OneLink l d f :=
  ⟨fun j hj => (g.other j hj).trans (h.other j hj), fun hwf => g.wf (h.wf hwf)⟩

theorem OneLink.ite {p : Prop} [Decidable p] (he : OneLink l d e) (hf : OneLink l d f) : OneLink l d (if p then e else f) := by
  split
  · exact he
  · exact hf

theorem OneLink.foldl {α : Type} {g : Dev → α → Dev} (hg : ∀ d a, OneLink l d (g d a)) (xs : List α) (d : Dev) : OneLink l d (xs.foldl g d) :=
  List.foldlRecOn (motive := OneLink l d) xs g (.refl d) fun _ h a _ => h.trans (hg _ a)

theorem oneLink_setLink (l : Nat) (k : Link) (d : Dev) : OneLink l d (d.setLink l k) :=
  ⟨fun _ hj => Dev.link_setLink_other k hj, fun h => Dev.wf_links_setLink h l k⟩

theorem Reports.oneLink (h : Reports d e) : OneLink l d e := .of_links h.links

end

/-! A count of CRC failures and a stage. -/

section
variable {l : Nat} {d : Dev}

theorem oneLink_flushCrc (l : Nat) (d : Dev) : OneLink l d (flushCrc l d) :=
  .ite (.refl d) ((oneLink_setLink _ _ d).trans (reports_event _ _ _ _).oneLink)

theorem flushCrc_domain (l : Nat) (d : Dev) : (flushCrc l d).domain = d.domain := by
  unfold flushCrc
  extract_lets k
  split
  · rfl
  · exact (reports_event _ _ _ _).domain

theorem flushCrc_link (h : Store.wf {} d.links = true) : (flushCrc l d).link l = { d.link l with crcWindow := 0 } := by
  unfold flushCrc
  extract_lets k
  split
  next hzero => rw [← hzero]
  next => exact (Dev.link_congr (reports_event _ _ _ _).links l).trans (Dev.link_setLink_same h l _)

theorem oneLink_enterStage (l stage : Nat) (d : Dev) : OneLink l d (enterStage l stage d) := by
  unfold enterStage
  extract_lets d1 k
  have h1 : OneLink l d d1 := .ite (oneLink_flushCrc l d) (.refl d)
  exact h1.trans (oneLink_setLink _ _ d1)

/-- A link that goes back to stage 0, 1 or 2 ends its count of CRC failures. -/
theorem enterStage_link_low {stage : Nat} (h : Store.wf {} d.links = true) (hlow : stage ≤ 2) : (enterStage l stage d).link l =
    { (if stage = 2 then seedLanes (d.link l) else d.link l) with crcWindow := 0, stage := stage, stageAt := d.time.raw, failAt := none } := by
  unfold enterStage
  simp only [if_pos hlow, Dev.link_setLink_same ((oneLink_flushCrc l d).wf h), flushCrc_link h, (linksOnly_flushCrc l d).time]
  split <;> rfl

/-- From stage 3 on a link only notes the stage it enters. -/
theorem enterStage_high {stage : Nat} (hhigh : 2 < stage) :
    enterStage l stage d = d.setLink l { d.link l with stage := stage, stageAt := d.time.raw, failAt := none } := by
  unfold enterStage
  simp only [if_neg (show ¬ stage ≤ 2 by omega), if_neg (show ¬ stage = 2 by omega)]

/-! Leaving the active state (R315, R448, R457). -/

theorem oneLink_markOne (l s k : Nat) (d : Dev) : OneLink l d (markOne l s k d) :=
  .ite (.refl d) (OneLink.trans (e := storeChord _ d) (.of_links rfl) (oneLink_setLink l _ _))

theorem markOne_domain (l s k : Nat) (d : Dev) : (markOne l s k d).domain = d.domain := by
  unfold markOne
  split <;> rfl

/-- Marking a chord missing counts it, and leaves the rest of the link. -/
theorem markOne_link (h : Store.wf {} d.links = true) (s k : Nat) : ∃ n, (markOne l s k d).link l = { d.link l with markedMissing := n } := by
  unfold markOne
  split
  · exact ⟨_, rfl⟩
  · exact ⟨_, Dev.link_setLink_same (d := storeChord _ d) h l _⟩

/-- From `d` to `e` chords awaited over link `l` are marked missing. -/
structure MarksMissing (l : Nat) (d e : Dev) : Prop where
  one : OneLink l d e
  domain : e.domain = d.domain
  link : Store.wf {} d.links = true → ∃ n, e.link l = { d.link l with markedMissing := n }

theorem MarksMissing.refl (d : Dev) : MarksMissing l d d := ⟨.refl d, rfl, fun _ => ⟨_, rfl⟩⟩

theorem MarksMissing.trans {d e f : Dev} (h : MarksMissing l d e) (g : MarksMissing l e f) : MarksMissing l d f := by
  refine ⟨h.one.trans g.one, g.domain.trans h.domain, fun hwf => ?_⟩
  obtain ⟨_, he⟩ := h.link hwf
  obtain ⟨n, hf⟩ := g.link (h.one.wf hwf)
  exact ⟨n, by rw [hf, he]⟩

theorem MarksMissing.foldl {α : Type} {g : Dev → α → Dev} (hg : ∀ d a, MarksMissing l d (g d a)) (xs : List α) (d : Dev) :
    MarksMissing l d (xs.foldl g d) :=
  List.foldlRecOn (motive := MarksMissing l d) xs g (.refl d) fun _ h a _ => h.trans (hg _ a)

theorem marksMissing_markOne (l s k : Nat) (d : Dev) : MarksMissing l d (markOne l s k d) :=
  ⟨oneLink_markOne l s k d, markOne_domain l s k d, fun h => markOne_link h s k⟩

theorem marksMissing_markMissing (l : Nat) (d : Dev) : MarksMissing l d (markMissing l d) := by
  unfold markMissing
  split
  · exact .refl d
  · exact .foldl (fun d (k : Shot) => .foldl (fun d s => marksMissing_markOne l s k.num d) _ d) _ d

/-- A link that carries no chord and no message any more. -/
def Link.untimed (k : Link) : Link :=
  { k with timed := false, chordQ := [], fires := [], ctrls := [], fireAgain := none, ctrlAgain := none }

theorem oneLink_stopTimed (l : Nat) (d : Dev) : OneLink l d (stopTimed l d) :=
  (oneLink_setLink _ _ d).trans (marksMissing_markMissing l _).one

theorem stopTimed_domain (l : Nat) (d : Dev) : (stopTimed l d).domain = d.domain := (marksMissing_markMissing l _).domain

theorem stopTimed_link (h : Store.wf {} d.links = true) : ∃ n, (stopTimed l d).link l = { (d.link l).untimed with markedMissing := n } := by
  obtain ⟨n, hn⟩ := (marksMissing_markMissing l (d.setLink l (d.link l).untimed)).link (Dev.wf_links_setLink h l _)
  exact ⟨n, hn.trans (by rw [Dev.link_setLink_same h])⟩

theorem reports_endAlign (d : Dev) : Reports { d with domain := { d.domain with alignSeq := none } } (endAlign d) :=
  reports_endSeq _ (fun c d => reports_failCmd c _ d) _

theorem endAlign_links (d : Dev) : (endAlign d).links = d.links := (reports_endAlign d).links

theorem loseParent_links (l : Nat) (d : Dev) : (loseParent l d).links = d.links := by
  unfold loseParent
  split
  · exact endAlign_links _
  · rfl

/-- The link to the parent lost, the device is no longer aligned (R457). -/
theorem loseParent_aligned (h : isParent d l = true) : (loseParent l d).domain.aligned = false := by
  unfold loseParent
  rw [if_pos h, (reports_endAlign _).domain]

theorem isParent_iff : isParent d l = true ↔ d.domain.id ≠ 0 ∧ d.domain.parent = l := by simp [isParent]

theorem oneLink_leaveActive (l : Nat) (d : Dev) : OneLink l d (leaveActive l d) := by
  unfold leaveActive
  refine .ite (.refl d) ?_
  extract_lets d1
  have h1 : OneLink l d d1 := (oneLink_stopTimed l d).trans (.of_links (loseParent_links l _))
  exact h1.trans ((oneLink_setLink _ _ d1).trans (reports_event _ _ _ _).oneLink)

theorem leaveActive_other (h : (d.link l).stage ≠ 5) : leaveActive l d = d := if_pos h

theorem leaveActive_link (h : Store.wf {} d.links = true) (hactive : (d.link l).stage = 5) :
    ∃ n, (leaveActive l d).link l = { (d.link l).untimed with markedMissing := n, wasActive := true, isIdle := false, exitAt := none } := by
  obtain ⟨n, hn⟩ := stopTimed_link (l := l) h
  have hwf : Store.wf {} (loseParent l (stopTimed l d)).links = true := by
    rw [loseParent_links]
    exact (oneLink_stopTimed l d).wf h
  refine ⟨n, ?_⟩
  unfold leaveActive
  rw [if_neg (not_not_intro hactive)]
  rw [Dev.link_congr (reports_event _ _ _ _).links l, Dev.link_setLink_same hwf, Dev.link_congr (loseParent_links l _), hn]

/-! A retrain (R446 to R448, R525). -/

theorem oneLink_openRetrain (l : Nat) (d : Dev) : OneLink l d (openRetrain l d) := .ite (.refl d) (oneLink_setLink _ _ d)

theorem openRetrain_link (h : Store.wf {} d.links = true) : ∃ at_ lost resent marked, (openRetrain l d).link l =
    { d.link l with retrainAt := at_, lostSegs := lost, resent := resent, markedMissing := marked } := by
  unfold openRetrain
  extract_lets k
  split
  · exact ⟨_, _, _, _, rfl⟩
  · exact ⟨_, _, _, _, Dev.link_setLink_same h l _⟩

theorem oneLink_startRetrain (l : Nat) (d : Dev) : OneLink l d (startRetrain l d) := by
  unfold startRetrain
  extract_lets d1 k
  have h1 : OneLink l d d1 := (oneLink_openRetrain l d).trans (oneLink_leaveActive l _)
  exact h1.trans ((oneLink_setLink _ _ d1).trans (oneLink_enterStage l 2 _))

/-- Leaving the active state keeps the count of retrains, and a link that was active is timed no more. -/
theorem leaveActive_retrains (h : Store.wf {} d.links = true) : ((leaveActive l d).link l).retrains = (d.link l).retrains ∧
    ((d.link l).stage = 5 → ((leaveActive l d).link l).timed = false) := by
  by_cases hactive : (d.link l).stage = 5
  · obtain ⟨n, hn⟩ := leaveActive_link h hactive
    rw [hn]
    exact ⟨rfl, fun _ => rfl⟩
  · rw [leaveActive_other hactive]
    exact ⟨rfl, fun h5 => absurd h5 hactive⟩

/-- A retrain begins at stage 2 and is counted; an active link is timed no more. -/
theorem startRetrain_link (h : Store.wf {} d.links = true) : ((startRetrain l d).link l).stage = 2 ∧
    ((startRetrain l d).link l).retrains = ((d.link l).retrains + 1) % 2 ^ 32 ∧
    ((d.link l).stage = 5 → ((startRetrain l d).link l).timed = false) := by
  obtain ⟨_, _, _, _, hopen⟩ := openRetrain_link (l := l) h
  have hwf := (oneLink_openRetrain l d).wf h
  have hleft := leaveActive_retrains (l := l) hwf
  have hwf1 := (oneLink_leaveActive l _).wf hwf
  unfold startRetrain
  extract_lets d1 k
  rw [enterStage_link_low (Dev.wf_links_setLink hwf1 l _) (le_refl 2), Dev.link_setLink_same hwf1]
  rw [hopen] at hleft
  exact ⟨rfl, congrArg (fun n => addW 32 n 1) hleft.1, hleft.2⟩

/-! The end of LNK_TRAIN. -/

theorem reports_endTrains (l : Nat) {g : Cmd → Dev → Dev} (hg : ∀ c d, Reports d (g c d)) (d : Dev) :
    Reports (d.setLink l { d.link l with trainSeqs := [] }) (endTrains l g d) :=
  List.foldlRecOn (motive := Reports _) _ _ (.refl _) fun _ h n _ => h.trans (reports_endSeq (some n) hg _)

end

end Sys2Proof.Machine
end

section
/-! The link commands (R452 to R456, R460 to R465). -/

namespace Sys2Proof.Machine

section
variable {l : Nat} {d : Dev}

/-- Electrical idle: the link carries nothing more, and its count of CRC failures ends. -/
theorem goIdle_link (h : Store.wf {} d.links = true) : ∃ n, (goIdle l d).link l =
    { (d.link l).untimed with markedMissing := n, crcWindow := 0, isIdle := true, exitAt := none } := by
  have hstop := (oneLink_stopTimed l (advanceTo (frameBoundary d) d)).wf h
  obtain ⟨n, hn⟩ := stopTimed_link (l := l) (d := advanceTo (frameBoundary d) d) h
  have hlose : Store.wf {} (loseParent l (stopTimed l (advanceTo (frameBoundary d) d))).links = true := by rw [loseParent_links]; exact hstop
  refine ⟨n, ?_⟩
  unfold goIdle
  simp only [Dev.link_setLink_same ((oneLink_flushCrc l _).wf hlose), flushCrc_link hlose, Dev.link_congr (loseParent_links l _), hn]
  rfl

/-- A link to the parent that goes idle takes the device's alignment with it. -/

theorem goIdle_aligned (hid : d.domain.id ≠ 0) (hparent : d.domain.parent = l) : (goIdle l d).domain.aligned = false := by
  refine (congrArg Domain.aligned (flushCrc_domain l _)).trans (loseParent_aligned (isParent_iff.mpr ?_))
  rw [stopTimed_domain]
  exact ⟨hid, hparent⟩

variable {en idle : Bool} {codes : List Nat}

/-- A link with the settings of an LNK_CONFIG (R461). -/
def Link.config (k : Link) (en idle : Bool) (codes : List Nat) : Link := { k with enable := en, idle := idle, ctleCodes := codes }

/-- A link that is enabled anew begins at stage 1 with nothing under way. -/
theorem configLink_begins (h : Store.wf {} d.links = true) (hstage : (d.link l).stage = 0) :
    (configLink l true idle codes d).link l = { (d.link l).config true idle codes with
      stage := 1, stageAt := d.time.raw, failAt := none, crcWindow := 0, segSeq := 0, ack := 0, sending := [], unacked := [], segIn := [] } := by
  unfold configLink
  simp only [Bool.not_true, Bool.false_eq_true, if_false, Dev.link_setLink_same h, hstage, if_true]
  rw [enterStage_link_low (Dev.wf_links_setLink (Dev.wf_links_setLink h l _) l _) (by decide)]
  rw [if_neg (by decide), Dev.link_setLink_same (Dev.wf_links_setLink h l _)]
  rfl

theorem configLink_between (h : Store.wf {} d.links = true) (hzero : (d.link l).stage ≠ 0) (hfive : (d.link l).stage ≠ 5) :
    configLink l true idle codes d = d.setLink l ((d.link l).config true idle codes) := by
  unfold configLink
  simp only [Bool.not_true, Bool.false_eq_true, if_false, Dev.link_setLink_same h, if_neg hzero, if_pos hfive]
  rfl

/-- At stage 5 an LNK_CONFIG goes by IDLE and by whether the link is idle. -/
theorem configLink_active (h : Store.wf {} d.links = true) (hstage : (d.link l).stage = 5) : configLink l true idle codes d =
    if idle then
      if (d.link l).isIdle then d.setLink l { (d.link l).config true idle codes with exitAt := none }
      else goIdle l (d.setLink l ((d.link l).config true idle codes))
    else if (d.link l).isIdle then
      d.setLink l { (d.link l).config true idle codes with exitAt := some ((d.link l).exitAt.getD d.time.raw) }
    else d.setLink l ((d.link l).config true idle codes) := by
  unfold configLink
  have hzero : (d.link l).stage ≠ 0 := by omega
  have hfive : ¬(d.link l).stage ≠ 5 := not_not_intro hstage
  simp only [Bool.not_true, Bool.false_eq_true, if_false, Dev.link_setLink_same h, if_neg hzero, if_neg hfive, Dev.setLink_setLink h]
  rfl

/-- With no link active none retrains. -/
theorem retrainActive_none (h : ∀ j : Fin 4, linkActive (d.link j) = false) : retrainActive d = d := by
  have h0 : linkActive (d.link 0) = false := h 0
  have h1 : linkActive (d.link 1) = false := h 1
  have h2 : linkActive (d.link 2) = false := h 2
  have h3 : linkActive (d.link 3) = false := h 3
  simp [retrainActive, Dev.forAll, h0, h1, h2, h3]

/-- An operation on each of several links meets each as it was. -/
theorem forAll_oneLink {f : Nat → Dev → Dev} (hf : ∀ l d, OneLink l d (f l d)) {j : Nat} {ls : List Nat} (hls : ls.Nodup) (hj : j ∈ ls)
    (d : Dev) : ∃ e, e.link j = d.link j ∧ (Store.wf {} d.links = true → Store.wf {} e.links = true) ∧
      (d.forAll ls f).link j = (f j e).link j := by
  induction ls generalizing d with
  | nil => cases hj
  | cons l ls ih =>
    obtain ⟨hl, hrest⟩ := List.nodup_cons.mp hls
    rcases List.mem_cons.mp hj with rfl | hj
    · refine ⟨d, rfl, id, ?_⟩
      exact List.foldlRecOn (motive := fun e => e.link j = (f j d).link j) ls _ rfl fun e he i hi =>
        ((hf i e).other j fun heq => hl (heq ▸ hi)).trans he
    · obtain ⟨e, he, hwf, hlink⟩ := ih hrest hj (f l d)
      exact ⟨e, he.trans ((hf l d).other j fun heq => hl (heq ▸ hj)), fun h => hwf ((hf l d).wf h), hlink⟩

theorem retrainActive_link (h : Store.wf {} d.links = true) {j : Fin 4} (hactive : linkActive (d.link j) = true) :
    ((retrainActive d).link j).stage = 2 ∧ ((retrainActive d).link j).timed = false ∧
      ((retrainActive d).link j).retrains = ((d.link j).retrains + 1) % 2 ^ 32 := by
  have hone (l : Nat) (d : Dev) : OneLink l d (if linkActive (d.link l) then startRetrain l d else d) :=
    .ite (oneLink_startRetrain l d) (.refl d)
  obtain ⟨e, he, hwf, hlink⟩ := forAll_oneLink hone (j := j) (ls := [0, 1, 2, 3]) (by decide) (by have := j.isLt; simp; omega) d
  have hfive : (e.link j).stage = 5 := by rw [he]; simp [linkActive] at hactive; exact hactive.1
  obtain ⟨hstage, hretrains, htimed⟩ := startRetrain_link (l := j) (hwf h)
  unfold retrainActive
  rw [hlink, he, if_pos hactive, hstage, hretrains, he]
  exact ⟨rfl, htimed hfive, rfl⟩

end

/-! The device after an effect of a command, in its links and its domain. -/

theorem State.during_link (s : State) (h : HostSide) (c : Cmd) (f : Ctx → Dev → Dev) (l : Nat) :
    (s.during h c f).dev.link l = (f (s.sync h).ctx (putCmd c (s.sync h).dev)).link l := by
  obtain ⟨us, hdev⟩ := s.during_dev h c f
  rw [hdev]
  rfl

theorem State.during_domain (s : State) (h : HostSide) (c : Cmd) (f : Ctx → Dev → Dev) :
    (s.during h c f).dev.domain = (f (s.sync h).ctx (putCmd c (s.sync h).dev)).domain := by
  obtain ⟨us, hdev⟩ := s.during_dev h c f
  rw [hdev]

theorem doneCmd_link (c : Cmd) (status : Nat) (d : Dev) (l : Nat) : (doneCmd c status d).link l = d.link l :=
  Dev.link_congr (reports_doneCmd c status d).links l

/-- A command that ends with an effect on links and domain leaves just that of them. -/
theorem cmdRow_doneCmd {sp : CmdSpec} {mb : Nat} {h : HostSide} {s : State} {c : Cmd} {status : Nat} {e : Dev}
    (hb : s.begins sp mb h = some c) (hact : sp.act (s.sync h).ctx c (putCmd c (s.sync h).dev) = doneCmd c status e) :
    ∃ t, cmdRow sp mb h s = .next t ∧ (∀ l, t.dev.link l = e.link l) ∧ t.dev.domain = e.domain := by
  refine ⟨_, cmdRow_begins hb, fun l => ?_, ?_⟩
  · rw [State.during_link, hact, doneCmd_link]
  · rw [State.during_domain, hact, (reports_doneCmd _ _ _).domain]

/-! Each command in the case that meets it. -/

section
variable {x : Ctx} {c : Cmd} {d : Dev}

theorem lnkConfig_act_enabled (hen : bitOf (c.arg 1 1) 0 = true) : lnkConfigSpec.act x c d =
    doneCmd c 0x0B00 (configLink (c.arg 0 1) true (bitOf (c.arg 1 1) 1) ((List.range 4).map fun i => c.arg (2 + i) 1) d) := by
  rw [← hen]
  rfl

/-- The link with the settings of an LNK_CONFIG. -/
def Cmd.linkConfig (c : Cmd) (k : Link) : Link :=
  k.config (bitOf (c.arg 1 1) 0) (bitOf (c.arg 1 1) 1) ((List.range 4).map fun i => c.arg (2 + i) 1)

theorem lnkConfig_act_active (hen : bitOf (c.arg 1 1) 0 = true) (hwf : Store.wf {} d.links = true) (hstage : (d.link (c.arg 0 1)).stage = 5) :
    lnkConfigSpec.act x c d = doneCmd c 0x0B00 (let k := d.link (c.arg 0 1)
      if bitOf (c.arg 1 1) 1 then
        if k.isIdle then d.setLink (c.arg 0 1) { c.linkConfig k with exitAt := none } else goIdle (c.arg 0 1) (d.setLink (c.arg 0 1) (c.linkConfig k))
      else if k.isIdle then d.setLink (c.arg 0 1) { c.linkConfig k with exitAt := some (k.exitAt.getD d.time.raw) }
      else d.setLink (c.arg 0 1) (c.linkConfig k)) := by
  simp only [lnkConfig_act_enabled hen, configLink_active hwf hstage, Cmd.linkConfig, hen]

theorem lnkConfig_act_between (hen : bitOf (c.arg 1 1) 0 = true) (hwf : Store.wf {} d.links = true)
    (hzero : (d.link (c.arg 0 1)).stage ≠ 0) (hfive : (d.link (c.arg 0 1)).stage ≠ 5) :
    lnkConfigSpec.act x c d = doneCmd c 0x0B00 (d.setLink (c.arg 0 1) (c.linkConfig (d.link (c.arg 0 1)))) := by
  simp only [lnkConfig_act_enabled hen, configLink_between hwf hzero hfive, Cmd.linkConfig, hen]

theorem lnkConfig_begins (hen : bitOf (c.arg 1 1) 0 = true) (hwf : Store.wf {} d.links = true) (hstage : (d.link (c.arg 0 1)).stage = 0) :
    (lnkConfigSpec.act x c d).link (c.arg 0 1) = { c.linkConfig (d.link (c.arg 0 1)) with
      stage := 1, stageAt := d.time.raw, failAt := none, crcWindow := 0, segSeq := 0, ack := 0, sending := [], unacked := [], segIn := [] } := by
  simp only [lnkConfig_act_enabled hen, doneCmd_link, configLink_begins hwf hstage, Cmd.linkConfig, hen]

theorem lnkConfig_act_disabled (hen : bitOf (c.arg 1 1) 0 = false) : lnkConfigSpec.act x c d =
    doneCmd c 0x0B00 (endTrains (c.arg 0 1) (fun q d => failCmd q { status := 0x0B11, detail := 32 } d) (enterStage (c.arg 0 1) 0
      (leaveActive (c.arg 0 1) (d.setLink (c.arg 0 1) ((d.link (c.arg 0 1)).config (bitOf (c.arg 1 1) 0) (bitOf (c.arg 1 1) 1)
        ((List.range 4).map fun i => c.arg (2 + i) 1)))))) := by
  show doneCmd c 0x0B00 (configLink _ _ _ _ d) = _
  unfold configLink
  rw [hen]
  rfl

/-- The domain that an LNK_DOMAIN gives the device (R463). -/
def Cmd.domainOf (c : Cmd) (phaseFs : Int) : Domain := {
  id := c.arg 0 2, dev := c.arg 2 1, parent := c.arg 3 1, phaseFs := phaseFs
  ingress := (List.range 16).foldl (fun q v => Store.set 0 q v (c.arg (4 + v) 1)) []
  relay := (List.range 4).foldl (fun q j => Store.set 0 q j (BitVec.ofNat 16 (c.arg (20 + 2 * j) 2))) []
  depth := if c.arg 0 2 ≠ 0 ∧ c.arg 3 1 = 0xFF then 0 else 0xFF }

theorem lnkDomain_act_eq (x : Ctx) (c : Cmd) (d : Dev) : lnkDomainSpec.act x c d =
    doneCmd c 0x0B00 (retrainActive { endAlign d with domain := c.domainOf d.domain.phaseFs }) := by
  simp only [lnkDomainSpec, Cmd.domainOf]

theorem lnkTrain_act_active (h : (d.link (c.arg 0 1)).stage = 5) : lnkTrainSpec.act x c d =
    let d1 := startRetrain (c.arg 0 1) d
    d1.setLink (c.arg 0 1) { d1.link (c.arg 0 1) with trainSeqs := (d1.link (c.arg 0 1)).trainSeqs ++ [c.seq] } := by
  simp only [lnkTrainSpec, if_pos h]

theorem lnkTrain_act_waiting (h : (d.link (c.arg 0 1)).stage ≠ 5) : lnkTrainSpec.act x c d =
    d.setLink (c.arg 0 1) { d.link (c.arg 0 1) with trainSeqs := (d.link (c.arg 0 1)).trainSeqs ++ [c.seq] } := by
  simp only [lnkTrainSpec, if_neg h]

end

theorem parentMean_parentMean (mean : Int) (d : Dev) : parentMean (parentMean mean d) d = parentMean mean d := by
  unfold parentMean
  cases (d.link d.domain.parent).peerMean <;> rfl

theorem lnkAlign_act_eq (dPC mean : Int) (x : Ctx) (c : Cmd) (d : Dev) : (lnkAlignSpec dPC (parentMean mean d)).act x c d =
    (let delay := Int.fdiv (dPC + parentMean mean d) 2
     let theta := Int.fdiv (dPC - parentMean mean d - c.argS 8 8) 2
     { d.setLink d.domain.parent { d.link d.domain.parent with delayFs := delay, peerMean := none } with domain := { d.domain with
        aligned := false, alignSeq := some c.seq, alignDelay := delay, alignTheta := theta, phaseFs := d.domain.phaseFs - theta
        alignEnd := d.time.raw + 1000 * ((theta.natAbs + 999) / 1000) } }) := by
  simp only [lnkAlignSpec, parentMean_parentMean, halfOf]

/-- Where the parent's mean has come in a segment, the operand plays no part. -/
theorem begins_lnkAlign {mb : Nat} {h : HostSide} (dPC mean : Int) (s : State) :
    s.begins (lnkAlignSpec dPC (parentMean mean s.dev)) mb h = s.begins (lnkAlignSpec dPC mean) mb h := by
  have hcheck (x : Ctx) (c : Cmd) : (lnkAlignSpec dPC (parentMean mean s.dev)).check x c (s.sync h).dev =
      (lnkAlignSpec dPC mean).check x c (s.sync h).dev := by
    have hmean : parentMean (parentMean mean s.dev) (s.sync h).dev = parentMean mean (s.sync h).dev := parentMean_parentMean mean s.dev
    simp only [lnkAlignSpec, hmean]
  unfold State.begins passing checked firstFault
  simp only [hcheck]
  rfl

/-- Settles O57: each command has its own effect; LNK_CONFIG goes by the stage and the idle state of its link, and a retrain of every
active link meets each as it was. -/
theorem linkCommands : Obligations.LinkCommands := by
  intro mb h s c dPC dCP l k m set
  have hlink (l : Nat) : (putCmd c (s.sync h).dev).link l = s.dev.link l := rfl
  refine ⟨fun hb => ?_,
    fun hb => ⟨fun hen => ?_, fun hen hstage hwf => ?_, fun hen hzero hfive hwf => ?_,
      fun hen hstage hwf => ?_⟩,
    fun hb => ⟨fun hstage => ?_, fun hstage => ?_⟩,
    fun hb => ⟨fun hnone => ?_, ?_, fun hwf => ?_⟩, fun hb => ?_⟩
  · refine cmdRow_effect hb ?_
    simp only [lnkStatusSpec, hlink]
    rfl
  · refine cmdRow_effect hb ((lnkConfig_act_disabled hen).trans ?_)
    rw [hlink]
    rfl
  · refine ⟨_, cmdRow_begins hb, ?_⟩
    refine (s.during_link h c _ _).trans ((lnkConfig_begins (d := putCmd c (s.sync h).dev) hen hwf hstage).trans ?_)
    rw [hlink]
    rfl
  · refine cmdRow_effect hb ((lnkConfig_act_between (d := putCmd c (s.sync h).dev) hen hwf hzero hfive).trans ?_)
    rw [hlink]
    rfl
  · have hact := @lnkConfig_act_active (s.sync h).ctx c (putCmd c (s.sync h).dev) hen hwf hstage
    rw [hlink] at hact
    simp only [show c.linkConfig (s.dev.link (c.arg 0 1)) = set from rfl] at hact
    refine ⟨fun hidle hup => ⟨?_, ?_⟩, fun hidle hup => ?_, fun hidle hup => ?_, fun hidle hup => ?_⟩
    all_goals
      have hidle : bitOf (c.arg 1 1) 1 = _ := hidle
      have hup : (s.dev.link (c.arg 0 1)).isIdle = _ := hup
      simp only [hidle, hup, if_true, Bool.false_eq_true, if_false] at hact
    · obtain ⟨n, hn⟩ := @goIdle_link l ((putCmd c (s.sync h).dev).setLink l set) (Store.wf_set hwf)
      obtain ⟨t, ht, hlinks, hdomain⟩ := cmdRow_doneCmd hb hact
      refine ⟨t, ht, ?_⟩
      rw [hlinks, hdomain, hn]
      exact ⟨rfl, rfl, rfl, rfl, fun hid hparent => goIdle_aligned (d := (putCmd c (s.sync h).dev).setLink l set) hid hparent⟩
    · exact cmdRow_effect hb hact
    · exact cmdRow_effect hb hact
    · exact cmdRow_effect hb hact
    · exact cmdRow_effect hb hact
  · have hstage : ((putCmd c (s.sync h).dev).link (c.arg 0 1)).stage ≠ 5 := hstage
    refine cmdRow_effect hb ((lnkTrain_act_waiting hstage).trans ?_)
    rw [hlink]
  · have hstage : ((putCmd c (s.sync h).dev).link (c.arg 0 1)).stage = 5 := hstage
    exact cmdRow_effect hb (lnkTrain_act_active hstage)
  · refine cmdRow_effect hb ((lnkDomain_act_eq _ _ _).trans ?_)
    rw [retrainActive_none fun j => ?_]
    · rfl
    · exact (congrArg linkActive (Dev.link_congr (endAlign_links _) j)).trans (hnone j)
  · exact cmdRow_effect hb (lnkDomain_act_eq _ _ _)
  · obtain ⟨t, ht, hlinks, -⟩ := cmdRow_doneCmd hb (lnkDomain_act_eq _ _ _)
    refine ⟨t, ht, fun j hactive => ?_⟩
    have hj : ({ endAlign (putCmd c (s.sync h).dev) with domain := c.domainOf s.dev.domain.phaseFs } : Dev).link j = s.dev.link j :=
      Dev.link_congr (endAlign_links (putCmd c (s.sync h).dev)) j
    have hwf : Store.wf {} (endAlign (putCmd c (s.sync h).dev)).links = true := by rw [endAlign_links]; exact hwf
    have hretrain := @retrainActive_link { endAlign (putCmd c (s.sync h).dev) with domain := c.domainOf s.dev.domain.phaseFs } hwf j
    rw [hj] at hretrain
    rw [hlinks]
    exact hretrain hactive
  · exact cmdRow_effect ((begins_lnkAlign dPC dCP s).trans hb) (lnkAlign_act_eq dPC dCP _ c (putCmd c (s.sync h).dev))

end Sys2Proof.Machine
end

section
/-! Bring-up of a link, row by row (R448 to R452, R457). -/

namespace Sys2Proof.Machine

theorem sentOut_endSeq (seq : Option Nat) {g : Cmd → Dev → Dev} (hg : ∀ c d, SentOut d (g c d)) (d : Dev) : SentOut d (endSeq seq g d) := by
  unfold endSeq
  split
  · exact .refl d
  · split
    · exact .refl d
    · split
      · exact .refl d
      · exact hg _ d

section
variable {l : Nat} {d : Dev}

/-- The end of LNK_TRAIN loses no pending event. -/
theorem endTrains_pend {g : Cmd → Dev → Dev} (hg : ∀ c d, SentOut d (g c d)) {i : Nat} (h : d.evt.pend.getLsbD i = true) :
    (endTrains l g d).evt.pend.getLsbD i = true :=
  (sentOut_foldl (fun d n => endSeq (some n) g d) (fun d n => sentOut_endSeq (some n) hg d) (d.link l).trainSeqs
    (d.setLink l { d.link l with trainSeqs := [] })).pend i h

theorem endTrains_link (hwf : Store.wf {} d.links = true) {g : Cmd → Dev → Dev} (hg : ∀ c d, Reports d (g c d)) :
    (endTrains l g d).link l = { d.link l with trainSeqs := [] } :=
  (Dev.link_congr (reports_endTrains l hg d).links l).trans (Dev.link_setLink_same hwf l _)

/-! Failures (R448). -/

theorem linksOnly_linkFail (l reason : Nat) (d : Dev) : LinksOnly d (linkFail l reason d) := by
  unfold linkFail
  extract_lets k d1 d2
  have h1 : LinksOnly d d1 := (linksOnly_setLink _ _ d).trans (linksOnly_flushCrc l _)
  have h2 : LinksOnly d1 d2 := .ite (raised_event _ _ _ _).linksOnly (.refl d1)
  exact (h1.trans h2).trans (linksOnly_endTrains l (fun c d => (reports_failCmd c _ d).linksOnly) _)

theorem linkFail_link (h : Store.wf {} d.links = true) (reason : Nat) : (linkFail l reason d).link l =
    { d.link l with reason := reason, failAt := some d.time.raw, wasActive := false, crcWindow := 0, trainSeqs := [] } := by
  have hset := Dev.wf_links_setLink h l { d.link l with reason := reason, failAt := some d.time.raw, wasActive := false }
  unfold linkFail
  extract_lets k d1 d2
  have h1 : d1.link l = { d.link l with reason := reason, failAt := some d.time.raw, wasActive := false, crcWindow := 0 } :=
    (flushCrc_link hset).trans (by rw [Dev.link_setLink_same h])
  have hwf1 : Store.wf {} d1.links = true := (oneLink_flushCrc l _).wf hset
  have h2 : d2.links = d1.links := by
    show (if k.wasActive then _ else _ : Dev).links = _
    split
    · exact (reports_event _ _ _ _).links
    · rfl
  rw [endTrains_link (by rw [h2]; exact hwf1) (fun c d => reports_failCmd c _ d), Dev.link_congr h2, h1]

/-! The stages (R448, R449). -/

variable {x : Ctx}

theorem atStage_true {n : Nat} (hstage : (d.link l).stage = n) (hfail : (d.link l).failAt = none) : atStage d l n = true := by
  simp [atStage, hstage, hfail]

theorem linkReceiverDetect_eq (hstage : (d.link l).stage = 1) (hfail : (d.link l).failAt = none) : linkReceiverDetect l true x d =
    enterStage l 2 ((paced (.detect l) d).setLink l { d.link l with ctle := ctlePreset (d.link l) d.thermal.band }) := by
  simp only [linkReceiverDetect, atStage_true hstage hfail, Bool.not_true, Bool.false_eq_true, if_false, if_true]
  rfl

/-- A receiver found: the CTLE code of the band, and the lanes' sequences at their seeds. -/
theorem linkReceiverDetect_link (hwf : Store.wf {} d.links = true) (hstage : (d.link l).stage = 1) (hfail : (d.link l).failAt = none) :
    (linkReceiverDetect l true x d).link l = { d.link l with
      ctle := (d.link l).ctleCodes.getD d.thermal.band 0, stage := 2, stageAt := (linkReceiverDetect l true x d).time.raw, crcWindow := 0
      scramble := (List.range 4).map fun m => Config.laneSeed m % 2 ^ 31 } := by
  rw [linkReceiverDetect_eq hstage hfail, (linksOnly_enterStage l 2 _).time]
  rw [enterStage_link_low (Dev.wf_links_setLink (d := paced _ d) hwf l _) (le_refl 2), Dev.link_setLink_same (d := paced _ d) hwf, ← hfail]
  rfl

theorem linkBitLock_eq (hstage : (d.link l).stage = 2) (hfail : (d.link l).failAt = none) :
    linkBitLock l x d = d.setLink l { d.link l with stage := 3, stageAt := d.time.raw } := by
  simp only [linkBitLock, atStage_true hstage hfail, if_true, enterStage_high (show 2 < 3 by decide), ← hfail]

theorem linkMarkerLock_skewed {reversed : Bool} {skew : Nat} (hstage : (d.link l).stage = 3) (hfail : (d.link l).failAt = none)
    (hskew : 64 < skew) : linkMarkerLock l reversed skew x d = linkFail l 4 d := by
  simp [linkMarkerLock, atStage_true hstage hfail, hskew]

/-- Markers found on every lane: credits anew, everything unacknowledged again, the capability segment first. -/
theorem linkMarkerLock_link {reversed : Bool} {skew : Nat} (hwf : Store.wf {} d.links = true) (hstage : (d.link l).stage = 3)
    (hfail : (d.link l).failAt = none) (hskew : skew ≤ 64) :
    let k := (linkMarkerLock l reversed skew x d).link l
    k.stage = 4 ∧ k.credits = 32 ∧ k.reversed = reversed ∧ k.sending = capabilityBytes x d :: (d.link l).sending ∧
      k.unacked = (d.link l).unacked.map (fun q => { q with again := true, lost := true }) ∧ k.toReturn = 0 := by
  simp only [linkMarkerLock, atStage_true hstage hfail, Bool.not_true, Bool.false_eq_true, if_false, if_neg (show ¬ 64 < skew by omega),
    enterStage_high (show 2 < 4 by decide), Dev.link_setLink_same (Dev.wf_links_setLink hwf l _), Dev.link_setLink_same hwf, and_self]

/-- The limit of stage 2, 3 or 4 passed: the bring-up fails for the reason of its stage. -/
theorem linkStageTimeout_fails (hfail : (d.link l).failAt = none)
    (hstage : (d.link l).stage = 2 ∨ (d.link l).stage = 3 ∨ (d.link l).stage = 4) : linkStageTimeout l x d =
    linkFail l (if (d.link l).stage = 4 then 5 else (d.link l).stage)
      (advance ((d.link l).stageAt + stageLimit (d.link l).stage - d.time.raw) d) := by
  rcases hstage with h | h | h <;> simp [linkStageTimeout, hfail, h]

/-- A failed bring-up goes on at stage 1; of a retrain it keeps the interval. -/
theorem linkRetry_link {n : Nat} (hwf : Store.wf {} d.links = true) (hfail : (d.link l).failAt = some n) :
    ((linkRetry l x d).link l).stage = 1 ∧ ((linkRetry l x d).link l).failAt = none ∧
      ((linkRetry l x d).link l).retrainAt = (d.link l).retrainAt := by
  obtain ⟨e, heq, he, hkept⟩ : ∃ e, linkRetry l x d = enterStage l 1 e ∧ Store.wf {} e.links = true ∧
      (e.link l).retrainAt = (d.link l).retrainAt := by
    simp only [linkRetry, hfail]
    refine ⟨_, rfl, ?_⟩
    split
    · exact ⟨hwf, rfl⟩
    · exact ⟨Dev.wf_links_setLink (d := advance _ d) hwf l _, by rw [Dev.link_setLink_same (d := advance _ d) hwf]; rfl⟩
  rw [heq, enterStage_link_low he (by decide), if_neg (by decide)]
  exact ⟨rfl, rfl, hkept⟩

/-! The capability exchange (R450). -/

theorem takeCapability_link (hwf : Store.wf {} d.links = true) (g : Segment) : (takeCapability l g d).link l = { d.link l with
    peerDev := fld g.bytes 1 1, peerDomain := fld g.bytes 2 2, peerDepth := fld g.bytes 4 1, peerSerial := fld g.bytes 8 8 } :=
  Dev.link_setLink_same hwf l _

theorem takeMean_link (hwf : Store.wf {} d.links = true) {g : Segment} (htype : fld g.bytes 0 1 = 2) : (takeMean l g d).link l =
    { d.link l with peerMean := some (fldS g.bytes 8 8), peerMeanSeq := fld g.bytes 16 2 } := by
  rw [takeMean, if_pos htype, Dev.link_setLink_same hwf]

theorem freeBuffer_link (hwf : Store.wf {} d.links = true) (g : Segment) : (freeBuffer l g d).link l = { d.link l with
    segIn := (d.link l).segIn.erase g, toReturn := if g.lost then (d.link l).toReturn else (d.link l).toReturn + 1 } :=
  Dev.link_setLink_same hwf l _

/-- The device once the exchange has taken the peer's segment and the delay. -/
def exchanged (l : Nat) (g : Segment) (delay : Int) (d : Dev) : Dev :=
  let d1 := takeCapability l g (freeBuffer l g d)
  d1.setLink l { d1.link l with delayFs := delay }

/-- The device once the link is active, link-up raised. -/
def opened (l : Nat) (g : Segment) (delay : Int) (d : Dev) : Dev :=
  let d2 := exchanged l g delay d
  event 136 l 0 (enterStage l 5 (d2.setLink l { d2.link l with wasActive := false }))

theorem opened_link (hwf : Store.wf {} d.links = true) (g : Segment) (delay : Int) : Store.wf {} (opened l g delay d).links = true ∧
    (opened l g delay d).link l = { (takeCapability l g (freeBuffer l g d)).link l with
      delayFs := delay, wasActive := false, stage := 5, stageAt := d.time.raw, failAt := none } := by
  have htake : Store.wf {} (takeCapability l g (freeBuffer l g d)).links = true :=
    Dev.wf_links_setLink (Dev.wf_links_setLink hwf l _) l _
  have hwf2 : Store.wf {} (exchanged l g delay d).links = true := Dev.wf_links_setLink htake l _
  have hwf3 := Dev.wf_links_setLink hwf2 l { (exchanged l g delay d).link l with wasActive := false }
  have h2 : (exchanged l g delay d).link l = { (takeCapability l g (freeBuffer l g d)).link l with delayFs := delay } :=
    Dev.link_setLink_same htake l _
  have hlinks : (opened l g delay d).links = _ := (reports_event _ _ _ _).links
  refine ⟨?_, ?_⟩
  · rw [hlinks]
    exact (oneLink_enterStage l 5 _).wf hwf3
  · rw [Dev.link_congr hlinks, enterStage_high (by decide), Dev.link_setLink_same hwf3, Dev.link_setLink_same hwf2, h2]
    rfl

/-- The end of a retrain's interval is reported (R528). -/
def reportRetrain (l : Nat) (k : Link) (d : Dev) : Dev :=
  match k.retrainAt with
  | none => d
  | some t => publish { kind := 3, inst := l, seq := 0, start := t, finish := d.time.lat, a := k.lostSegs, b := k.resent,
                        c := k.markedMissing, d := 0, e := 0 } d

theorem sentOut_reportRetrain (l : Nat) (k : Link) (d : Dev) : SentOut d (reportRetrain l k d) := by
  unfold reportRetrain
  split
  · exact .refl d
  · exact sentOut_publish _ d

theorem capabilityExchange_eq {g : Segment} {delay : Int} (hstage : (d.link l).stage = 4) (hfail : (d.link l).failAt = none)
    (hseg : (d.link l).segIn.find? isCapability = some g) (hid : d.domain.id = 0) (hdelay : delay ≤ 20000000) :
    capabilityExchange l delay x d =
      let d4 := reportRetrain l ((takeCapability l g (freeBuffer l g d)).link l) (opened l g delay d)
      endTrains l (fun c d => doneCmd c 0x0B00 d) (d4.setLink l { d4.link l with retrainAt := none, markedMissing := 0 }) := by
  simp only [capabilityExchange, atStage_true hstage hfail, if_true, hseg, hid, ne_eq, not_true, false_and, if_false,
    if_neg (show ¬ (20000000 : Int) < delay by omega)]
  rfl

/-- What the exchange leaves of its link, and that it is reported. -/
theorem capabilityExchange_link {g : Segment} {delay : Int} (hwf : Store.wf {} d.links = true) (hstage : (d.link l).stage = 4)
    (hfail : (d.link l).failAt = none) (hseg : (d.link l).segIn.find? isCapability = some g) (hid : d.domain.id = 0)
    (hdelay : delay ≤ 20000000) :
    let e := capabilityExchange l delay x d
    (e.link l).stage = 5 ∧ (e.link l).delayFs = delay ∧ (e.link l).peerDev = fld g.bytes 1 1 ∧ (e.link l).trainSeqs = [] ∧
      e.evt.pend.getLsbD 136 = true := by
  obtain ⟨hwf3, h3⟩ := opened_link (l := l) hwf g delay
  have hsent := sentOut_reportRetrain l ((takeCapability l g (freeBuffer l g d)).link l) (opened l g delay d)
  have hpend := hsent.pend 136 (event_pend_self _ _ _ (by decide))
  rw [capabilityExchange_eq hstage hfail hseg hid hdelay]
  generalize reportRetrain l ((takeCapability l g (freeBuffer l g d)).link l) (opened l g delay d) = d4 at hsent hpend
  have hwf4 : Store.wf {} d4.links = true := by rw [hsent.reports.links]; exact hwf3
  intro e
  have hend : e.link l = { d4.link l with retrainAt := none, markedMissing := 0, trainSeqs := [] } :=
    (endTrains_link (Dev.wf_links_setLink hwf4 l _) fun c d => reports_doneCmd c _ d).trans (by rw [Dev.link_setLink_same hwf4])
  rw [hend, Dev.link_congr hsent.reports.links, h3, takeCapability_link (d := freeBuffer l g d) (Dev.wf_links_setLink hwf l _)]
  exact ⟨rfl, rfl, rfl, rfl, endTrains_pend (fun c d => sentOut_doneCmd c _ d) hpend⟩

end

end Sys2Proof.Machine
end

section
/-! Frames out (R442 to R447): what a slot takes of a link. -/

namespace Sys2Proof.Machine

section
variable {l : Nat} {d : Dev} {k : Link}

/-- A slot takes at most the 48 chords that a frame holds. -/
theorem length_takeChords (dev slot : Nat) (q : List (Nat × Chord)) : (takeChords dev slot q).2.length ≤ 48 := by
  unfold takeChords
  split
  · exact Nat.zero_le _
  · exact List.length_take_le _ _

/-- Class 1 takes only messages of a link. -/
theorem classOne_link (k : Link) : ∃ fireAgain fires ctrlAgain ctrls, (classOne k).2.2 =
    { k with fireAgain := fireAgain, fires := fires, ctrlAgain := ctrlAgain, ctrls := ctrls } := by
  unfold classOne
  cases k.fireAgain <;> cases k.ctrlAgain <;> exact ⟨_, _, _, _, rfl⟩

/-- Class 2 takes only segments and credits of a link. -/
theorem classTwo_link (k : Link) : ∃ segSeq sending unacked credits outstanding, (classTwo k).2 =
    { k with segSeq := segSeq, sending := sending, unacked := unacked, credits := credits, outstanding := outstanding } := by
  unfold classTwo
  split
  · simp only
    split_ifs <;> exact ⟨_, _, _, _, _, rfl⟩
  · split
    · exact ⟨_, _, _, _, _, rfl⟩
    · split <;> exact ⟨_, _, _, _, _, rfl⟩

/-- With no credit and nothing to resend no segment goes out. -/
theorem classTwo_spent (hcredits : k.credits = 0) (hunacked : k.unacked = []) : classTwo k = (none, k) := by
  have hnone : k.unacked.find? (·.again) = none := by rw [hunacked, List.find?_nil]
  unfold classTwo
  rw [hnone]
  cases k.sending with
  | nil => rfl
  | cons b rest => exact if_pos hcredits

/-- A link whose segments have waited one frame more. -/
def Link.aged (k : Link) : Link := { k with unacked := k.unacked.map (fun g => { g with age := g.age + 1 }) }

/-- Class 1 of a slot leaves what class 2 and the frame's numbers speak of. -/
def Link.Kept (k q : Link) : Prop := q.seq = k.seq ∧ q.credits = k.credits ∧ q.sending = k.sending ∧ (k.unacked = [] → q.unacked = [])

theorem classOne_kept (k : Link) : k.Kept (if k.timed then classOne k else (none, none, k)).2.2.aged := by
  split
  · obtain ⟨_, _, _, _, hone⟩ := classOne_link k
    rw [hone]
    exact ⟨rfl, rfl, rfl, fun h => by rw [Link.aged, h, List.map_nil]⟩
  · exact ⟨rfl, rfl, rfl, fun h => by rw [Link.aged, h, List.map_nil]⟩

theorem classTwo_kept {q : Link} (h : k.Kept q) (p : Prop) [Decidable p] : (if p then (none, q) else classTwo q).2.seq = k.seq ∧
    (k.credits = 0 → k.unacked = [] → (if p then (none, q) else classTwo q).2.sending = k.sending) := by
  obtain ⟨hseq, hcredits, hsending, hunacked⟩ := h
  split
  · exact ⟨hseq, fun _ _ => hsending⟩
  · refine ⟨?_, fun hc hu => ?_⟩
    · obtain ⟨_, _, _, _, _, htwo⟩ := classTwo_link q
      rw [htwo]
      exact hseq
    · rw [classTwo_spent (hcredits.trans hc) (hunacked hu)]
      exact hsending

theorem oneLink_closeCrcWindow (l : Nat) (d : Dev) : OneLink l d (closeCrcWindow l d) := .ite (oneLink_flushCrc l d) (.refl d)

theorem closeCrcWindow_link (hwf : Store.wf {} d.links = true) : ∃ n, (closeCrcWindow l d).link l = { d.link l with crcWindow := n } := by
  unfold closeCrcWindow
  split
  · exact ⟨0, flushCrc_link hwf⟩
  · exact ⟨_, rfl⟩

/-- The link of `e` has sent the frame after those of `q`, its chords at most 48, and with no credit and nothing to resend no segment. -/
def SendsFrame (l : Nat) (q : Link) (e : Dev) : Prop := ∃ (k : Link) (f : LinkFrame),
  e.link l = sendLanes k (frameBytes f) ∧ f.seq = q.seq ∧ k.seq = addW 16 q.seq 1 ∧ f.chords.length ≤ 48 ∧
    (q.credits = 0 → q.unacked = [] → k.sending = q.sending)

/-! A slot in three steps: what class 0 takes, what class 1 takes, and the frame with the segment of class 2. -/

/-- The frame goes out, with the segment of class 2. -/
def sendSegment (l slot : Nat) (d : Dev) (k : Link) (base : Nat) (out : List (Nat × Chord)) (fire : Option FireMsg) (ctrl : Option CtrlMsg)
    (aged : Link) : Dev :=
  let late := (out.filter (fun c => 16 * ((c.1 + 15) / 16) < slot)).length
  let (seg, k2) := if k.stage = 3 then (none, aged) else classTwo aged
  let ret := if k.stage = 3 then 0 else min 32 k2.toReturn
  let f : LinkFrame := { seq := k2.seq, slot := slot / 16 % 2 ^ 32, shotBase := base, timed := k2.timed, ack := k2.ack,
                         chords := out.map (·.2), fire := fire, ctrl := ctrl, creditRet := ret, seg := seg }
  let k3 : Link := { k2 with seq := addW 16 k2.seq 1, lastSlot := some slot, toReturn := k2.toReturn - ret,
                             chordQ := out.foldl (fun q c => q.erase c) k2.chordQ }
  { d.setLink l (sendLanes k3 (frameBytes f)) with chords := { d.chords with slotDefer := addW 64 d.chords.slotDefer late } }

/-- Class 1 takes its messages. -/
def sendMessages (l slot : Nat) (d : Dev) (k : Link) (base : Nat) (out : List (Nat × Chord)) : Dev :=
  let (fire, ctrl, k1) := if k.timed then classOne k else (none, none, k)
  sendSegment l slot d k base out fire ctrl k1.aged

/-- Class 0 takes its chords. -/
def sendSlot (l slot : Nat) (d : Dev) (k : Link) : Dev :=
  let (base, out) := if k.timed then takeChords d.domain.dev slot k.chordQ else (0, [])
  sendMessages l slot d k base out

theorem sendSegment_sends {slot base : Nat} {out : List (Nat × Chord)} {fire : Option FireMsg} {ctrl : Option CtrlMsg} {aged : Link}
    (hwf : Store.wf {} d.links = true) (hlen : out.length ≤ 48) (haged : k.Kept aged) :
    SendsFrame l k (sendSegment l slot d k base out fire ctrl aged) := by
  have htwo := classTwo_kept haged (k.stage = 3)
  unfold sendSegment
  generalize (if k.stage = 3 then (none, aged) else classTwo aged) = r at htwo
  obtain ⟨seg, k2⟩ := r
  exact ⟨_, _, Dev.link_setLink_same hwf l _, htwo.1, congrArg (fun n => addW 16 n 1) htwo.1, by rw [List.length_map]; exact hlen, htwo.2⟩

theorem sendMessages_sends {slot base : Nat} {out : List (Nat × Chord)} (hwf : Store.wf {} d.links = true) (hlen : out.length ≤ 48) :
    SendsFrame l k (sendMessages l slot d k base out) := by
  have hone := classOne_kept k
  unfold sendMessages
  generalize (if k.timed then classOne k else (none, none, k)) = m at hone
  obtain ⟨fire, ctrl, k1⟩ := m
  exact sendSegment_sends hwf hlen hone

theorem sendSlot_sends {slot : Nat} (hwf : Store.wf {} d.links = true) : SendsFrame l k (sendSlot l slot d k) := by
  have hlen : (if k.timed then takeChords d.domain.dev slot k.chordQ else (0, [])).2.length ≤ 48 := by
    split
    · exact length_takeChords _ _ _
    · exact Nat.zero_le _
  unfold sendSlot
  generalize (if k.timed then takeChords d.domain.dev slot k.chordQ else (0, [])) = q at hlen
  obtain ⟨base, out⟩ := q
  exact sendMessages_sends hwf hlen

/-- The device that a slot's frame finds has the link but for its count of CRC failures. -/
theorem closeCrcWindow_kept (hwf : Store.wf {} d.links = true) (slot : Nat) : Store.wf {} (closeCrcWindow l (advanceTo slot d)).links = true ∧
    ((closeCrcWindow l (advanceTo slot d)).link l).Kept (d.link l) ∧
    ((closeCrcWindow l (advanceTo slot d)).link l).unacked = (d.link l).unacked := by
  have hlinks : (advanceTo slot d).links = d.links := advance_links _ _
  have hwf1 : Store.wf {} (advanceTo slot d).links = true := by rw [hlinks]; exact hwf
  obtain ⟨n, hn⟩ := closeCrcWindow_link (l := l) hwf1
  refine ⟨(oneLink_closeCrcWindow l _).wf hwf1, ?_⟩
  rw [hn, Dev.link_congr hlinks]
  exact ⟨⟨rfl, rfl, rfl, id⟩, rfl⟩

/-- A link that may send sends the frame of its slot under the next sequence number. -/
theorem linkFrameTransmit_sends {x : Ctx} (hwf : Store.wf {} d.links = true) (hstage : 3 ≤ (d.link l).stage)
    (hfail : (d.link l).failAt = none) (hidle : (d.link l).isIdle = false) : SendsFrame l (d.link l) (linkFrameTransmit l none x d) := by
  have hsends : ¬((d.link l).stage < 3 ∨ (d.link l).failAt.isSome ∨ (d.link l).isIdle) := by
    simp [hfail, hidle, show ¬ (d.link l).stage < 3 by omega]
  unfold linkFrameTransmit
  rw [show sendMean l none d = d from rfl]
  extract_lets +onlyGivenNames d0 k0
  rw [if_neg (show ¬(k0.stage < 3 ∨ k0.failAt.isSome ∨ k0.isIdle) from hsends)]
  extract_lets +onlyGivenNames here slot e k
  obtain ⟨slot', hslot⟩ : ∃ s, s = slot := ⟨_, rfl⟩
  obtain ⟨e', he⟩ : ∃ e', e' = e := ⟨_, rfl⟩
  obtain ⟨k', hk⟩ : ∃ k', k' = k := ⟨_, rfl⟩
  rw [← hslot, ← he, ← hk]
  have he : e' = closeCrcWindow l (advanceTo slot d0) := he
  have hk : k' = (closeCrcWindow l (advanceTo slot d0)).link l := hk
  obtain ⟨hwfe, hkept⟩ := closeCrcWindow_kept (l := l) (d := d0) hwf slot
  rw [← he] at hwfe
  rw [← hk] at hkept
  obtain ⟨⟨hseq, hcredits, hsending, -⟩, hunacked⟩ := hkept
  have hsent : SendsFrame l k' (sendSlot l slot' e' k') := sendSlot_sends hwfe
  unfold SendsFrame at hsent
  rw [← hseq, ← hcredits, hunacked, ← hsending] at hsent
  exact hsent

/-- A lane begins with the marker. -/
theorem laneFrame_marker (s data : Nat) : (laneFrame s data).1.toNat % 2 ^ 32 = Config.laneMarker % 2 ^ 32 := by
  unfold laneFrame
  rw [BitVec.toNat_ofNat, Nat.mod_mod_of_dvd _ (Nat.pow_dvd_pow 2 (show 32 ≤ 512 by omega)), Nat.add_mul_mod_self_left, Nat.mod_mod]

/-- A frame begins with its sequence number. -/
theorem fld_frameBytes_seq (f : LinkFrame) : fld (frameBytes f) 0 2 = f.seq % 2 ^ 16 := by
  simp only [frameBytes, frameBody_eq, frameHead, List.append_assoc]
  exact fld_append_le f.seq 2 _

/-- What a frame on its lanes looks like (R442): the sequence number in its first bytes, and each lane beginning with the marker. -/
theorem sendsFrame_bytes {q : Link} {e : Dev} (h : SendsFrame l q e) : (e.link l).seq = (q.seq + 1) % 2 ^ 16 ∧
    (e.link l).lastTx.length = 240 ∧ fld (e.link l).lastTx 0 2 = q.seq % 2 ^ 16 ∧ (e.link l).lanes.length = 4 ∧
    ∀ w ∈ (e.link l).lanes, w.toNat % 2 ^ 32 = Config.laneMarker % 2 ^ 32 := by
  obtain ⟨k, f, hlink, hfseq, hkseq, hlen, -⟩ := h
  rw [hlink]
  refine ⟨hkseq, length_frameBytes hlen, ?_, rfl, ?_⟩
  · rw [← hfseq]
    exact fld_frameBytes_seq f
  · intro w hw
    obtain ⟨r, hr, rfl⟩ := List.mem_map.mp (show w ∈ (((List.range 4).map fun m =>
      laneFrame (k.scramble.getD m 0) (laneData (frameBytes f) m)).map (·.1)) from hw)
    obtain ⟨m, -, rfl⟩ := List.mem_map.mp hr
    exact laneFrame_marker _ _

end

end Sys2Proof.Machine
end

section
/-! Frames in, segments, CTLE, idle and alignment (R444 to R447, R451, R452, R454, R456, R457). -/

namespace Sys2Proof.Machine

section
variable {l : Nat} {d : Dev} {x : Ctx}

/-! Frames in (R444 to R446). -/

/-- With no count of CRC failures open there is none to close. -/
theorem closeCrcWindow_zero (h : (d.link l).crcWindow = 0) : closeCrcWindow l d = d := by
  unfold closeCrcWindow flushCrc
  simp only [h, if_true, ite_self]

theorem dropDuplicate_held (k : Link) (g : Segment) : (dropDuplicate k g).held = k.held := by
  unfold dropDuplicate
  split <;> rfl

/-- Class 2 of a frame leaves the frames that are held. -/
theorem classTwoIn_held (k : Link) (f : LinkFrame) : (classTwoIn k f).held = k.held := by
  unfold classTwoIn
  cases f.seg with
  | none => rfl
  | some g =>
    simp only
    split
    · rfl
    · split
      · exact dropDuplicate_held _ g
      · rfl

/-- An active link takes every frame. -/
theorem linkFrameReceive_open {bytes : List Byte} {off : Int} (hstage : (d.link l).stage = 5) (hfail : (d.link l).failAt = none)
    (hidle : (d.link l).isIdle = false) (hwindow : (d.link l).crcWindow = 0) : linkFrameReceive l bytes off x d =
    match frameOf bytes with
    | none => crcFail l d
    | some f =>
      let timed := d.domain.id ≠ 0 && (d.link l).peerDomain = d.domain.id && decide (off.natAbs ≤ 4)
      let d1 := if (d.link l).timed && !timed then stopTimed l d else d
      d1.setLink l { classTwoIn (d1.link l) f with timed := timed, held := (classTwoIn (d1.link l) f).held ++ [f] } := by
  have hopen : ¬((d.link l).stage < 4 ∨ (d.link l).failAt.isSome ∨ (d.link l).isIdle) := by simp [hstage, hfail, hidle]
  unfold linkFrameReceive
  simp only [closeCrcWindow_zero hwindow, if_neg hopen]
  simp only [hstage, decide_true, Bool.true_and] <;> rfl

/-- An intact frame in its slot is held, and makes the link timed. -/
theorem linkFrameReceive_intact {bytes : List Byte} {off : Int} {f : LinkFrame} (hstage : (d.link l).stage = 5)
    (hfail : (d.link l).failAt = none) (hidle : (d.link l).isIdle = false) (hwindow : (d.link l).crcWindow = 0)
    (hframe : frameOf bytes = some f) (hid : d.domain.id ≠ 0) (hpeer : (d.link l).peerDomain = d.domain.id) (hoff : off.natAbs ≤ 4) :
    linkFrameReceive l bytes off x d =
      d.setLink l { classTwoIn (d.link l) f with timed := true, held := (d.link l).held ++ [f] } := by
  have htimed : (decide (d.domain.id ≠ 0) && decide ((d.link l).peerDomain = d.domain.id) && decide (off.natAbs ≤ 4)) = true := by
    simp [hid, hpeer, hoff]
  rw [linkFrameReceive_open hstage hfail hidle hwindow, hframe]
  simp only [htimed, Bool.not_true, Bool.and_false, Bool.false_eq_true, if_false, classTwoIn_held]

/-- A first broken frame opens the count. -/
theorem linkFrameReceive_broken {bytes : List Byte} {off : Int} (hstage : (d.link l).stage = 5)
    (hfail : (d.link l).failAt = none) (hidle : (d.link l).isIdle = false) (hwindow : (d.link l).crcWindow = 0)
    (hframe : frameOf bytes = none) (htimes : (d.link l).crcTimes = []) : linkFrameReceive l bytes off x d = d.setLink l { d.link l with
      crcErrors := ((d.link l).crcErrors + 1) % 2 ^ 64, crcTimes := [d.time.raw], crcWindow := 1, crcWindowAt := d.time.raw } := by
  have hrecent : [d.time.raw].filter (fun t => decide (d.time.raw < t + 1000000)) = [d.time.raw] := by simp
  rw [linkFrameReceive_open hstage hfail hidle hwindow, hframe]
  simp only [crcFail, htimes, List.nil_append, hrecent, List.length_singleton, if_neg (show ¬ 16 ≤ 1 by decide), hwindow, decide_true,
    Bool.true_or, if_true, addW]

/-! Relays (R454). -/

/-- One change on several links, each as it was. -/
theorem forAll_setLink {g : Nat → Link → Link} {j : Nat} {js : List Nat} (hjs : js.Nodup) (hwf : Store.wf {} d.links = true) :
    (d.forAll js fun i d => d.setLink i (g d.time.lat (d.link i))).link j = if j ∈ js then g d.time.lat (d.link j) else d.link j := by
  unfold Dev.forAll
  induction js generalizing d with
  | nil => rfl
  | cons i js ih =>
    obtain ⟨hi, hrest⟩ := List.nodup_cons.mp hjs
    rw [List.foldl_cons, ih hrest (Dev.wf_links_setLink hwf _ _)]
    by_cases hj : j = i
    · subst hj
      rw [if_neg hi, if_pos List.mem_cons_self, Dev.link_setLink_same hwf]
    · rw [Dev.link_setLink_other _ hj]
      simp only [List.mem_cons, hj, false_or]
      rfl

theorem forAll_setLink_frame (g : Nat → Link → Link) (js : List Nat) (d : Dev) :
    let e := d.forAll js fun i d => d.setLink i (g d.time.lat (d.link i))
    e.time = d.time ∧ e.chords = d.chords :=
  List.foldlRecOn (motive := fun e : Dev => e.time = d.time ∧ e.chords = d.chords) js _ ⟨rfl, rfl⟩ fun _ he _ _ => he

/-- Traffic of a source is relayed on link `j`. -/
def relaysOn (d : Dev) (src : Nat) (j : Fin 4) : Bool := (Store.get 0 d.domain.relay j).getLsbD src && linkTimed (d.link j)

/-- What a new value of link `l` keeps of it is kept of every link. -/
theorem Dev.setLink_keeps {α : Type} (p : Link → α) {k : Link} (hwf : Store.wf {} d.links = true) (h : p k = p (d.link l)) (j : Nat) :
    p ((d.setLink l k).link j) = p (d.link j) := by
  by_cases hj : j = l
  · rw [hj, Dev.link_setLink_same hwf, h]
  · rw [Dev.link_setLink_other k hj]

theorem relaysOn_setLink {k : Link} (hwf : Store.wf {} d.links = true) (h : linkTimed k = linkTimed (d.link l)) (src : Nat) (j : Fin 4) :
    relaysOn (d.setLink l k) src j = relaysOn d src j :=
  congrArg ((Store.get 0 d.domain.relay j).getLsbD src && ·) (Dev.setLink_keeps linkTimed hwf h j)

/-- What a relay leaves of each link. -/
theorem relay_link {g : Nat → Link → Link} (src : Nat) (j : Fin 4) (hwf : Store.wf {} d.links = true) :
    (d.forAll (relays d src) fun i d => d.setLink i (g d.time.lat (d.link i))).link j =
      if relaysOn d src j then g d.time.lat (d.link j) else d.link j := by
  have hmem : (j : Nat) ∈ relays d src ↔ relaysOn d src j = true := by
    have hj : (j : Nat) ∈ [0, 1, 2, 3] := by fin_cases j <;> decide
    simp only [relays, relaysOn, List.mem_filter, hj, true_and]
  have hnodup : (relays d src).Nodup := (show [0, 1, 2, 3].Nodup by decide).filter _
  rw [forAll_setLink hnodup hwf]
  simp only [hmem]

/-! A frame that reaches the die (R445, R454). -/

theorem chordIn_misrouted {q : Chord} (h : Store.get 0 d.domain.ingress q.dev ≠ l) :
    chordIn l q d = d.setLink l { d.link l with misrouted := ((d.link l).misrouted + 1) % 2 ^ 32 } := by
  unfold chordIn
  rw [if_pos (by simp [accepts, h])]
  rfl

/-- A link with one more chord to send. -/
def queueChord (q : Chord) (t : Nat) (k : Link) : Link := { k with chordQ := k.chordQ ++ [(t + 16, q)] }

/-- An accepted chord is in the store and counted, and goes on in the slot 16 ticks later. -/
theorem chordIn_accepted {q : Chord} (hwf : Store.wf {} d.links = true) (h : Store.get 0 d.domain.ingress q.dev = l) :
    (chordIn l q d).time = d.time ∧ q ∈ (chordIn l q d).chords.store ∧
      (chordIn l q d).chords.remoteRecv = (d.chords.remoteRecv + 1) % 2 ^ 64 ∧ ∀ j : Fin 4,
      ((chordIn l q d).link j).chordQ = (d.link j).chordQ ++ if relaysOn d q.dev j then [(d.time.lat + 16, q)] else [] := by
  obtain ⟨d1, hd1⟩ : ∃ d1, d1 = storeChord q { d with chords := { d.chords with remoteRecv := addW 64 d.chords.remoteRecv 1 } } := ⟨_, rfl⟩
  have heq : chordIn l q d = d1.forAll (relays d1 q.dev) fun i d => d.setLink i (queueChord q d.time.lat (d.link i)) := by
    rw [chordIn, if_neg (by simp [accepts, h]), hd1]
    rfl
  have hlink (j : Nat) : d1.link j = d.link j := by rw [hd1]; rfl
  have hrelays (j : Fin 4) : relaysOn d1 q.dev j = relaysOn d q.dev j := by rw [hd1]; rfl
  have htime1 : d1.time = d.time := by rw [hd1]; rfl
  have hwf1 : Store.wf {} d1.links = true := by rw [hd1]; exact hwf
  obtain ⟨htime, hchords⟩ := forAll_setLink_frame (queueChord q) (relays d1 q.dev) d1
  rw [heq, htime, hchords]
  refine ⟨htime1, ?_, ?_, fun j => ?_⟩
  · rw [hd1]
    exact List.mem_append_right _ (List.mem_singleton.mpr rfl)
  · rw [hd1]
    rfl
  · rw [relay_link q.dev j hwf1, hrelays, hlink, htime1]
    split
    · rfl
    · exact (List.append_nil _).symm

/-- A message taken on link `l` goes on: it joins the queue `p` of each link that relays it, and leaves what is taken. -/
theorem relay_message {l : Fin 4} {α β : Type} {p : Link → List α} {r : Link → β} {g : Link → Link} {m : α} {k : Link} (src : Nat)
    (hwf : Store.wf {} d.links = true) (htimed : linkTimed k = linkTimed (d.link l)) (hqueue : p k = p (d.link l))
    (hg : ∀ q, p (g q) = p q ++ [m]) (hr : ∀ q, r (g q) = r q) :
    let d1 := d.setLink l k
    let e := d1.forAll (relays d1 src) fun i d => d.setLink i (g (d.link i))
    e.time = d.time ∧ r (e.link l) = r k ∧ ∀ j : Fin 4, p (e.link j) = p (d.link j) ++ if relaysOn d src j then [m] else [] := by
  intro d1 e
  have hlink (j : Fin 4) : e.link j = if relaysOn d src j then g (d1.link j) else d1.link j := by
    rw [← relaysOn_setLink hwf htimed]
    exact relay_link (g := fun _ => g) src j (Dev.wf_links_setLink hwf l k)
  refine ⟨(forAll_setLink_frame (fun _ => g) (relays d1 src) d1).1, ?_, fun j => ?_⟩
  · rw [hlink]
    split
    · rw [hr, Dev.link_setLink_same hwf]
    · rw [Dev.link_setLink_same hwf]
  · rw [hlink, ← Dev.setLink_keeps p hwf hqueue j]
    split
    · exact hg _
    · exact (List.append_nil _).symm

/-- The first copy of a fire is taken, and goes on. -/
theorem fireArrives_first {l : Fin 4} {q : FireMsg} (hwf : Store.wf {} d.links = true) (h : Store.get 0 d.domain.ingress q.origin = l)
    (hfirst : (d.link l).seenFires.contains (q.origin, q.t) = false) :
    (fireArrives l q d).time = d.time ∧ ((fireArrives l q d).link l).fireIn = (d.link l).fireIn ++ [{ q with copy := false }] ∧
      ∀ j : Fin 4, ((fireArrives l q d).link j).fires = (d.link j).fires ++ if relaysOn d q.origin j then [{ q with copy := false }] else [] := by
  unfold fireArrives
  rw [if_neg (by simp [accepts, h])]
  extract_lets k
  rw [if_neg (ne_true_of_eq_false hfirst)]
  exact relay_message (p := Link.fires) (r := Link.fireIn) (g := fun q' => { q' with fires := q'.fires ++ [{ q with copy := false }] })
    q.origin hwf rfl rfl (fun _ => rfl) (fun _ => rfl)

/-- The first copy of a control message is taken, and goes on. -/
theorem ctrlArrives_first {l : Fin 4} {q : CtrlMsg} (hwf : Store.wf {} d.links = true) (h : Store.get 0 d.domain.ingress q.origin = l)
    (hfirst : (d.link l).seenCtrls.contains (q.type, q.origin, q.armAt) = false) :
    (ctrlArrives l q d).time = d.time ∧ ((ctrlArrives l q d).link l).ctrlIn = (d.link l).ctrlIn ++ [{ q with copy := false }] ∧
      ∀ j : Fin 4, ((ctrlArrives l q d).link j).ctrls = (d.link j).ctrls ++ if relaysOn d q.origin j then [{ q with copy := false }] else [] := by
  unfold ctrlArrives
  rw [if_neg (by simp [accepts, h])]
  extract_lets k
  rw [if_neg (ne_true_of_eq_false hfirst)]
  exact relay_message (p := Link.ctrls) (r := Link.ctrlIn) (g := fun q' => { q' with ctrls := q'.ctrls ++ [{ q with copy := false }] })
    q.origin hwf rfl rfl (fun _ => rfl) (fun _ => rfl)

/-- The device once the oldest held frame has been taken, its contents not yet. -/
def frameTaken (l : Nat) (fs : List LinkFrame) (t : Nat) (d : Dev) : Dev := (advanceTo t d).setLink l { d.link l with held := fs }

/-- The contents of a frame reach the die: chords, fire, control message. -/
def frameArrives (l : Nat) (f : LinkFrame) (d : Dev) : Dev :=
  let d1 := f.chords.foldl (fun d q => chordIn l q d) d
  let d2 := match f.fire with | none => d1 | some q => fireArrives l q d1
  match f.ctrl with | none => d2 | some q => ctrlArrives l q d2

theorem linkFrameRelease_untimed {f : LinkFrame} {fs : List LinkFrame} (hheld : (d.link l).held = f :: fs)
    (htimed : (d.link l).timed = false) : linkFrameRelease l x d = d.setLink l { d.link l with held := fs } := by
  have hnot : linkTimed (d.link l) = false := by simp [linkTimed, htimed]
  unfold linkFrameRelease
  simp only [hheld, htimed, hnot, Bool.false_eq_true, if_false, Bool.not_false, if_true]

theorem linkFrameRelease_timed {f : LinkFrame} {fs : List LinkFrame} (hheld : (d.link l).held = f :: fs)
    (htimed : linkTimed (d.link l) = true) :
    linkFrameRelease l x d = frameArrives l f (frameTaken l fs (16 * slotNear d.time.lat f.slot + 48) d) := by
  have hk : (d.link l).timed = true := by simp [linkTimed] at htimed; exact htimed.1
  unfold linkFrameRelease
  simp only [hheld, if_pos hk, htimed, Bool.not_true, Bool.false_eq_true, if_false]
  rfl

/-- Taking a frame moves time on, and leaves every link but for the frames it holds. -/
theorem frameTaken_keeps {α : Type} (p : Link → α) {fs : List LinkFrame} (t : Nat) (hwf : Store.wf {} d.links = true)
    (h : p { d.link l with held := fs } = p (d.link l)) (j : Nat) : p ((frameTaken l fs t d).link j) = p (d.link j) :=
  Dev.setLink_keeps (d := advanceTo t d) p hwf h j

theorem relaysOn_frameTaken {fs : List LinkFrame} (t src : Nat) (hwf : Store.wf {} d.links = true) (j : Fin 4) :
    relaysOn (frameTaken l fs t d) src j = relaysOn d src j :=
  relaysOn_setLink (d := advanceTo t d) (k := { d.link l with held := fs }) hwf rfl src j

/-- Taking a frame in sum: time moves on, and of its link the frames held are fewer. -/
theorem frameTaken_frame {l : Fin 4} {fs : List LinkFrame} (t : Nat) (hwf : Store.wf {} d.links = true) :
    Store.wf {} (frameTaken l fs t d).links = true ∧ (frameTaken l fs t d).time = (advanceTo t d).time ∧
      (frameTaken l fs t d).domain = d.domain ∧ (frameTaken l fs t d).chords = d.chords ∧
      (∀ {α : Type} (p : Link → α), p { d.link l with held := fs } = p (d.link l) →
        ∀ j : Nat, p ((frameTaken l fs t d).link j) = p (d.link j)) ∧
      (∀ src (j : Fin 4), relaysOn (frameTaken l fs t d) src j = relaysOn d src j) ∧
      (frameTaken l fs t d).link l = { d.link l with held := fs } :=
  ⟨Dev.wf_links_setLink (d := advanceTo t d) hwf l _, rfl, rfl, rfl, fun p h j => frameTaken_keeps p t hwf h j,
    fun src j => relaysOn_frameTaken t src hwf j, Dev.link_setLink_same (d := advanceTo t d) hwf l _⟩

/-! Segments, CTLE, idle and missing markers (R446, R447, R451, R452). -/

/-- What firmware does not know it only frees. -/
theorem segmentReceive_eq {g : Segment} {gs : List Segment} (h : (d.link l).segIn = g :: gs) : segmentReceive l x d =
    let d1 := d.setLink l { d.link l with segIn := gs, toReturn := if g.lost then (d.link l).toReturn else (d.link l).toReturn + 1 }
    (if isCapability g then takeCapability l g d1 else takeMean l g d1) := by
  unfold segmentReceive freeBuffer
  simp only [h, List.erase_cons_head]

theorem linkIdleExit_link {n : Nat} (hwf : Store.wf {} d.links = true) (h : (d.link l).exitAt = some n) :
    (linkIdleExit l true x d).link l = { d.link l with isIdle := false, exitAt := none } := by
  unfold linkIdleExit
  simp only [h, if_true]
  exact Dev.link_setLink_same (d := advanceTo _ (advance _ d)) hwf l _

/-- Markers missing on a link that carries frames retrain it. -/
theorem laneMarkersMissing_retrains (hstage : (d.link l).stage = 5 ∨ ((d.link l).stage = 4 ∧ (d.link l).failAt = none))
    (hidle : (d.link l).isIdle = false) : laneMarkersMissing l x d = startRetrain l d := by
  refine if_pos ?_
  rw [hidle]
  rcases hstage with h | ⟨h, hfail⟩
  · simp [h]
  · simp [atStage_true h hfail]

/-! Alignment (R456, R457). -/

theorem alignTrack_eq {theta : Int} (haligned : d.domain.aligned = true) (hactive : linkActive (d.link d.domain.parent) = true) :
    alignTrack theta x d = trackAlignment theta (paced .align d) := by
  simp [alignTrack, haligned, hactive]

/-- An offset within 5 ps asks for a correction, taken at once where no program runs. -/
theorem trackAlignment_within {theta : Int} (h : theta.natAbs ≤ 5000) : trackAlignment theta d = { d with domain :=
    (if running d then { d.domain with theta := theta, corr := clampI (-100) 100 theta }
     else { d.domain with theta := theta, phaseFs := d.domain.phaseFs - clampI (-100) 100 theta, corr := 0 } : Domain) } := by
  unfold trackAlignment
  simp only [if_neg (show ¬ 5000 < theta.natAbs by omega)]
  by_cases hrun : d.core.run.active = true <;> simp [running, hrun, takeCorrection]

/-- An offset beyond 5 ps ends the alignment, which is reported. -/
theorem trackAlignment_beyond {theta : Int} (h : 5000 < theta.natAbs) :
    (trackAlignment theta d).domain.aligned = false ∧ (trackAlignment theta d).evt.pend.getLsbD 140 = true := by
  unfold trackAlignment
  simp only [if_pos h]
  exact ⟨congrArg Domain.aligned (reports_event _ _ _ _).domain, event_pend_self _ _ _ (by decide)⟩

/-- The domain once the verification of a slew has decided (R456). -/
def Domain.verified (m : Domain) (residual : Int) (up : Nat) : Domain :=
  let ok := decide (residual.natAbs ≤ 500)
  { m with alignSeq := none, aligned := ok, theta := if ok then residual else m.theta, depth := if ok ∧ up ≠ 0xFF then up + 1 else m.depth }

/-- The end of a slew leaves the domain verified, and, where the residual is within 0.5 ps, reports it. -/
theorem latticeSlewEnd_domain {residual : Int} {n : Nat} (h : d.domain.alignSeq = some n) :
    (latticeSlewEnd residual x d).domain = d.domain.verified residual (d.link d.domain.parent).peerDepth ∧
      (residual.natAbs ≤ 500 → (latticeSlewEnd residual x d).evt.pend.getLsbD 139 = true) := by
  unfold latticeSlewEnd
  split
  next hnone => exact absurd (hnone.symm.trans h) nofun
  next n hsome =>
  extract_lets d1 m k ok out up m1 finish slew
  have hfinish (c : Cmd) (e : Dev) : SentOut e (finish c e) := by
    show SentOut e (if ok then _ else _ : Dev)
    split
    · exact sentOut_finishWith _ _ _
    · exact sentOut_finishWith _ _ _

  obtain ⟨us, hjournal⟩ := journal_frame n slew d1
  obtain ⟨base, hbase⟩ : ∃ e, e = (if ok then event 139 k (residual % 2 ^ 32).toNat { d1 with domain := m1 } else { d1 with domain := m1 } : Dev) :=
    ⟨_, rfl⟩
  have hslew : slew d1 = endSeq (some n) finish base := by rw [hbase]
  have hdomain : base.domain = m1 := by
    rw [hbase]
    split
    · exact (reports_event _ _ _ _).domain
    · rfl
  have hsent := sentOut_endSeq (some n) hfinish base
  rw [hjournal, hslew]
  refine ⟨hsent.reports.domain.trans hdomain, fun hres => hsent.pend 139 ?_⟩
  rw [hbase, if_pos (decide_eq_true hres)]
  exact event_pend_self _ _ _ (by decide)

/-- What a row leaves of links, time, domain, chords and events is what its operation leaves of them. -/
theorem next_on_links {s : State} {f : Ctx → Dev → Dev} {e : Dev} (h : f s.ctx s.dev = e) :
    ∃ t, (Host.Outcome.next (s.on f) : Host.Outcome State Fault Refusal) = .next t ∧ (∀ j, t.dev.link j = e.link j) ∧ t.dev.time = e.time ∧
      t.dev.domain = e.domain ∧ t.dev.chords = e.chords ∧ t.dev.evt = e.evt :=
  ⟨_, next_on_writes h, fun _ => rfl, rfl, rfl, rfl, rfl⟩

end

/-- A measured mean goes into a segment of TYPE 2, which waits where there is no credit (R456). -/
theorem linkFrameTransmit_mean {l : Nat} {d : Dev} {x : Ctx} {v : Int} {n : Nat} (hwf : Store.wf {} d.links = true)
    (hactive : linkActive (d.link l) = true) (hfail : (d.link l).failAt = none) (hid : d.domain.id ≠ 0) (hparent : d.domain.parent ≠ l)
    (hcredits : (d.link l).credits = 0) (hunacked : (d.link l).unacked = []) : ((linkFrameTransmit l (some (v, n)) x d).link l).sending =
      (d.link l).sending ++ [le 1 2 ++ zeros 7 ++ leI 8 v ++ le 2 n ++ zeros 14] := by
  obtain ⟨d1, hd1⟩ : ∃ d1, d1 = sendMean l (some (v, n)) d := ⟨_, rfl⟩
  have hmean : d1 = d.setLink l { d.link l with sending := (d.link l).sending ++ [le 1 2 ++ zeros 7 ++ leI 8 v ++ le 2 n ++ zeros 14] } := by
    rw [hd1, sendMean]
    exact if_neg (by simp [hactive, hid, isParent, hparent])
  have hrow : linkFrameTransmit l (some (v, n)) x d = linkFrameTransmit l none x d1 := by
    unfold linkFrameTransmit
    rw [show sendMean l none d1 = d1 from rfl, ← hd1]
  have hlink : d1.link l = { d.link l with sending := (d.link l).sending ++ [le 1 2 ++ zeros 7 ++ leI 8 v ++ le 2 n ++ zeros 14] } := by
    rw [hmean, Dev.link_setLink_same hwf]
  have hwf1 : Store.wf {} d1.links = true := by rw [hmean]; exact Dev.wf_links_setLink hwf l _
  obtain ⟨hstage, hidle⟩ : (d.link l).stage = 5 ∧ (d.link l).isIdle = false := by simpa [linkActive] using hactive
  obtain ⟨q, f, hsent, -, -, -, hsending⟩ := linkFrameTransmit_sends (l := l) (x := x) hwf1 (by rw [hlink]; exact (show 3 ≤ 5 by decide).trans hstage.ge) (by rw [hlink]; exact hfail)
    (by rw [hlink]; exact hidle)
  rw [hlink] at hsending
  rw [hrow, hsent]
  exact hsending hcredits hunacked

/-- Settles O58, stage by stage, then frame by frame: each row is its operation's equation, and what a link passes on is said once for
chords, fires and control messages. -/
theorem linkRows : Obligations.LinkRows := by
  intro l bytes off delay res theta found reversed skew f fs g gs c n s hwr hwf k m raw becomes
  have becomes_of {i : Instr} {k1 : Link} {op : Ctx → Dev → Dev} (hrow : exec i s = .next (s.on op))
      (h : op s.ctx s.dev = s.dev.setLink l k1) : becomes i k1 := hrow.trans (next_on_eq h hwr)
  refine ⟨fun hstage hfail hfound => ?_, fun hstage hfail => becomes_of rfl (linkBitLock_eq hstage hfail),
    fun hstage hfail => ⟨fun hskew => ?_, fun hskew => next_on_congr (linkMarkerLock_skewed hstage hfail hskew)⟩,
    fun hstage hfail hseg hid hdelay => ?_, fun hfail hstage => ?_, fun hfail => ?_, fun hstage hfail hidle => ?_,
    fun hactive hfail hid hparent hcredits hunacked => ?_,
    fun hstage hfail hidle hwindow => ⟨fun hframe hid hpeer hoff =>
      becomes_of rfl (linkFrameReceive_intact hstage hfail hidle hwindow hframe hid hpeer hoff),
      fun hframe htimes => becomes_of rfl (linkFrameReceive_broken hstage hfail hidle hwindow hframe htimes)⟩,
    fun hheld htimed => becomes_of rfl (linkFrameRelease_untimed hheld htimed), fun hheld htimed => ?_, fun hseg => ?_, fun hold => ?_, ?_,
    fun hexit hfound => ?_, fun hstage hidle => ?_, fun haligned hactive => ?_, fun hseq hcmd => ?_⟩
  · subst hfound
    obtain ⟨t, ht, hlink, htime, -⟩ := next_on_links (s := s) (f := linkReceiverDetect l true) rfl
    refine ⟨t, ht, ?_⟩
    rw [hlink, htime]
    exact linkReceiverDetect_link hwf hstage hfail
  · obtain ⟨t, ht, hlink, -⟩ := next_on_links (s := s) (f := linkMarkerLock l reversed skew) rfl
    refine ⟨t, ht, ?_⟩
    rw [hlink]
    exact linkMarkerLock_link hwf hstage hfail hskew
  · obtain ⟨t, ht, hlink, -, -, -, hevt⟩ := next_on_links (s := s) (f := capabilityExchange l delay) rfl
    refine ⟨t, ht, ?_⟩
    rw [hlink, hevt]
    exact capabilityExchange_link hwf hstage hfail hseg hid hdelay
  · obtain ⟨t, ht, hlink, htime, -⟩ := next_on_links (s := s) (linkStageTimeout_fails (l := l) (x := s.ctx) hfail hstage)
    refine ⟨t, ht, ?_⟩
    rw [hlink, htime, linkFail_link (d := advance _ s.dev) hwf, (linksOnly_linkFail _ _ _).time]
    exact ⟨rfl, rfl⟩
  · obtain ⟨t, ht, hlink, -⟩ := next_on_links (s := s) (f := linkRetry l) rfl
    refine ⟨t, ht, ?_⟩
    rw [hlink]
    exact linkRetry_link hwf hfail
  · obtain ⟨t, ht, hlink, -⟩ := next_on_links (s := s) (f := linkFrameTransmit l none) rfl
    refine ⟨t, ht, ?_⟩
    rw [hlink]
    exact sendsFrame_bytes (linkFrameTransmit_sends hwf hstage hfail hidle)
  · obtain ⟨t, ht, hlink, -⟩ := next_on_links (s := s) (f := linkFrameTransmit l (some (res, n))) rfl
    refine ⟨t, ht, ?_⟩
    rw [hlink]
    exact linkFrameTransmit_mean hwf hactive hfail hid hparent hcredits hunacked
  · have hrow := linkFrameRelease_timed (x := s.ctx) hheld htimed
    refine ⟨next_on_congr (hrow.trans rfl), fun q hchords hfire hctrl => ?_, fun q hchords hfire hctrl hhere hfirst => ?_,
      fun q hchords hfire hctrl hhere hfirst => ?_⟩
    all_goals
      obtain ⟨hwf1, htime1, hdomain1, hchords1, hkeeps, hrelays, hself⟩ :=
        frameTaken_frame (l := l) (fs := fs) (16 * slotNear s.dev.time.lat f.slot + 48) hwf
      simp only [frameArrives, hchords, hfire, hctrl, List.foldl_cons, List.foldl_nil] at hrow
      generalize frameTaken l fs (16 * slotNear s.dev.time.lat f.slot + 48) s.dev = d1 at *
      obtain ⟨t, ht, hlink, htime, -, hc, -⟩ := next_on_links hrow
    · refine ⟨fun hhere => ⟨t, ht, ?_⟩, fun hhere => ⟨t, ht, ?_⟩⟩
      · obtain ⟨hat, hstore, hcount, hqueue⟩ := chordIn_accepted (d := d1) (q := q) (l := l) hwf1 (by rw [hdomain1]; exact of_decide_eq_true hhere)
        rw [htime, hc, hat, htime1, hcount, hchords1]
        refine ⟨rfl, hstore, rfl, fun j => ?_⟩
        rw [hlink, hqueue, hrelays, htime1, hkeeps Link.chordQ rfl]
        rfl
      · have hrow := chordIn_misrouted (d := d1) (q := q) (l := l) (by rw [hdomain1]; exact of_decide_eq_false hhere)
        rw [htime, hc, hlink, hrow, Dev.link_setLink_same hwf1, hself]
        exact ⟨congrArg Time.lat htime1, hchords1, rfl⟩
    · obtain ⟨hat, hin, hout⟩ := fireArrives_first (d := d1) (q := q) (l := l) hwf1 (by rw [hdomain1]; exact of_decide_eq_true hhere)
        (by rw [hself]; exact hfirst)
      refine ⟨t, ht, ?_, ?_, fun j => ?_⟩
      · rw [htime, hat, htime1]
      · rw [hlink, hin, hself]
      · rw [hlink, hout, hrelays, hkeeps Link.fires rfl]
        rfl
    · obtain ⟨hat, hin, hout⟩ := ctrlArrives_first (d := d1) (q := q) (l := l) hwf1 (by rw [hdomain1]; exact of_decide_eq_true hhere)
        (by rw [hself]; exact hfirst)
      refine ⟨t, ht, ?_, ?_, fun j => ?_⟩
      · rw [htime, hat, htime1]
      · rw [hlink, hin, hself]
      · rw [hlink, hout, hrelays, hkeeps Link.ctrls rfl]
        rfl
  · have hrow := segmentReceive_eq (x := s.ctx) hseg
    have hwf1 (k1 : Link) := Dev.wf_links_setLink hwf l k1
    refine ⟨fun htype => ?_, fun htype => ?_, fun hone htwo => ?_⟩
    · simp only [isCapability, htype, decide_true, if_true] at hrow
      obtain ⟨t, ht, hlink, -⟩ := next_on_links hrow
      refine ⟨t, ht, ?_⟩
      rw [hlink, takeCapability_link (hwf1 _), Dev.link_setLink_same hwf]
    · simp only [isCapability, show fld g.bytes 0 1 ≠ 1 by omega, decide_false, Bool.false_eq_true, if_false] at hrow
      obtain ⟨t, ht, hlink, -⟩ := next_on_links hrow
      refine ⟨t, ht, ?_⟩
      rw [hlink, takeMean_link (hwf1 _) htype, Dev.link_setLink_same hwf]
    · simp only [isCapability, hone, decide_false, Bool.false_eq_true, if_false, takeMean, htwo] at hrow
      exact becomes_of rfl hrow
  · refine becomes_of rfl ?_
    simp only [segmentResend, show (s.dev.link l).unacked.find? _ = some g from hold]
    rfl
  · intro want k1 hstage
    exact next_on_eq (if_neg (not_not_intro hstage)) hwr
  · subst hfound
    obtain ⟨t, ht, hlink, -⟩ := next_on_links (s := s) (f := linkIdleExit l true) rfl
    refine ⟨t, ht, ?_⟩
    rw [hlink]
    exact linkIdleExit_link hwf hexit
  · have hrow : laneMarkersMissing l s.ctx s.dev = startRetrain l s.dev := laneMarkersMissing_retrains hstage hidle
    refine ⟨next_on_congr hrow, ?_⟩
    obtain ⟨t, ht, hlink, -⟩ := next_on_links hrow
    obtain ⟨hstage, hretrains, -⟩ := startRetrain_link (l := l) hwf
    refine ⟨t, ht, ?_⟩
    rw [hlink]
    exact ⟨hstage, hretrains⟩
  · have hrow := alignTrack_eq (theta := theta) (x := s.ctx) haligned hactive
    refine ⟨fun hwithin => next_on_eq (hrow.trans (trackAlignment_within hwithin)) hwr, fun hbeyond => ?_⟩
    obtain ⟨t, ht, -, -, hdomain, -, hevt⟩ := next_on_links hrow
    refine ⟨t, ht, ?_⟩
    rw [hdomain, hevt]
    exact trackAlignment_beyond hbeyond
  · obtain ⟨t, ht, -, -, hdomain, -, hevt⟩ := next_on_links (s := s) (f := latticeSlewEnd res) rfl
    obtain ⟨hverified, hpend⟩ := latticeSlewEnd_domain (residual := res) (x := s.ctx) hseq
    rw [← hdomain] at hverified
    rw [← hevt] at hpend
    refine ⟨fun hres => ⟨t, ht, ?_⟩, fun hres => ⟨t, ht, ?_⟩⟩
    · rw [hverified]
      simp [Domain.verified, hres, hpend hres]
    · rw [hverified]
      simp [Domain.verified, show ¬ res.natAbs ≤ 500 by omega]

end Sys2Proof.Machine
end

section
/-! Temperature, housekeeping and rails (R490 to R509, R514 to R518). -/

namespace Sys2Proof.Machine

theorem Reports.thermal {d e : Dev} (h : Reports d e) : e.thermal = d.thermal := by rw [h.1]
theorem Reports.house {d e : Dev} (h : Reports d e) : e.house = d.house := by rw [h.1]

section
variable {d e : Dev} {x : Ctx}

/-! What keeps the sensors. -/

/-- Calibration's due marks are all that a look for due ports changes. -/
theorem noteDue_frame (x : Ctx) (d : Dev) : ∃ c, noteDue x d = { d with core := c } := by
  unfold noteDue Dev.forAll
  refine List.foldlRecOn (motive := fun e : Dev => ∃ c, e = { d with core := c }) _ _ ⟨d.core, rfl⟩ fun e he p _ => ?_
  obtain ⟨c, rfl⟩ := he
  beta_reduce
  extract_lets q
  split
  · exact ⟨c, rfl⟩
  · split
    · exact ⟨_, rfl⟩
    · split
      · exact ⟨_, rfl⟩
      · exact ⟨c, rfl⟩

theorem noteDue_thermal (x : Ctx) (d : Dev) : (noteDue x d).thermal = d.thermal := by
  obtain ⟨c, h⟩ := noteDue_frame x d
  rw [h]

theorem loopOut_thermal (ps : List Nat) (d : Dev) : (loopOut ps d).thermal = d.thermal :=
  List.foldlRecOn (motive := fun e : Dev => e.thermal = d.thermal) _ _ rfl fun _ he _ _ => he

theorem endCalRun_thermal (cause : Nat) (d : Dev) : (endCalRun cause d).thermal = d.thermal := by
  unfold endCalRun
  extract_lets d1
  split
  · rfl
  · exact (reports_raise _ _).thermal.trans (loopOut_thermal _ d)

/-- A change of the level is all that it does to the sensors' block, but for the counters of throttling. -/
theorem setLevel_thermal (n : Nat) (d : Dev) : ∃ ms since release, (setLevel n d).thermal =
    { d.thermal with level := n, release := release, throttleMs := ms, throttleSince := since } := by
  unfold setLevel
  extract_lets t ms t1 d1 d2
  split
  next hsame => exact ⟨_, _, _, by rw [hsame]⟩
  next =>
    have h2 : d2.thermal = t1 := by
      show (if t.level = 0 then _ else _ : Dev).thermal = t1
      split
      · exact endCalRun_thermal _ d1
      · rfl
    exact ⟨_, _, _, (reports_event _ _ _ _).thermal.trans h2⟩

theorem noteTemperature_sensors (d : Dev) : (noteTemperature d).thermal.sensors = d.thermal.sensors := by
  unfold noteTemperature
  obtain ⟨tUp, src⟩ := topValue d
  dsimp -zeta only
  extract_lets t tDown raw cools band levelCool t1 d1 d2 d3 d4
  have h2 : d2.thermal = t1 := by
    show (if band ≠ t.band then _ else _ : Dev).thermal = _
    split
    · exact (reports_event _ _ _ _).thermal
    · rfl
  have h3 : d3.thermal = t1 := by
    show (if t1.warning && !t.warning then _ else _ : Dev).thermal = _
    split
    · exact (reports_event _ _ _ _).thermal.trans h2
    · exact h2
  have h4 : d4.thermal.sensors = t1.sensors := by
    show (if running d3 then _ else _ : Dev).thermal.sensors = _
    split
    · rw [h3]
    · obtain ⟨ms, since, release, hlevel⟩ := setLevel_thermal (max d3.thermal.level (tempLevel tUp)) d3
      rw [hlevel, h3]
  exact h4

theorem noteRunTemps_thermal (d : Dev) : (noteRunTemps d).thermal = d.thermal := by
  unfold noteRunTemps
  split
  · rfl
  · rfl

theorem scanMux_thermal (chan : Nat) (d : Dev) : (scanMux chan d).thermal = d.thermal := rfl

theorem readRemote_sensors (r : SensorReading) (n : Nat) (d : Dev) : (readRemote r n d).thermal.sensors = d.thermal.sensors := by
  have hevent (src inst arg : Nat) (d : Dev) : (event src inst arg d).thermal.sensors = d.thermal.sensors :=
    congrArg Thermal.sensors (reports_event src inst arg d).thermal
  unfold readRemote
  cases r with
  | openCircuit =>
    simp only
    split
    · rfl
    · exact hevent _ _ _ _
  | shorted =>
    simp only
    split
    · rfl
    · exact hevent _ _ _ _
  | temp v =>
    simp only
    split
    · exact hevent _ _ _ _
    · rfl

/-! Sensors (R493, R494). -/

theorem Dev.sensor_congr (h : e.thermal.sensors = d.thermal.sensors) (n : Nat) : e.sensor n = d.sensor n := by rw [Dev.sensor, h, Dev.sensor]

theorem Dev.sensor_setSensor_same (h : Store.wf {} d.thermal.sensors = true) (n : Nat) (v : Sensor) : (d.setSensor n v).sensor n = v :=
  Store.get_set_same h

theorem Dev.sensor_setSensor_other {m n : Nat} (v : Sensor) (h : m ≠ n) : (d.setSensor n v).sensor m = d.sensor m := Store.get_set_other h

/-- Reading one sensor sets its state, reports aside. -/
theorem readSensor_sensors (fails : List Nat) (vs : List (Option Int)) (n : Nat) (d : Dev) : (readSensor fails vs n d).thermal.sensors =
    (d.setSensor n (sensorAfter (d.sensor n) (fails.getD n 0) ((vs.getD n none).getD 0) d.time.raw)).thermal.sensors := by
  unfold readSensor
  extract_lets q q1 d1
  split
  · exact congrArg Thermal.sensors (reports_event _ _ _ _).thermal
  · split
    · exact congrArg Thermal.sensors (reports_event _ _ _ _).thermal
    · rfl

/-- A sensor in service whose reading passes takes it. -/
theorem sensorAfter_passes {q : Sensor} (h : q.state = 0) (v : Int) (raw : Nat) :
    (sensorAfter q 0 v raw).value = v ∧ (sensorAfter q 0 v raw).state = 0 := by
  simp [sensorAfter, h]

/-- Every sensor in service whose reading passes takes it, whatever the others do. -/
theorem readSensors_passes {fails : List Nat} {vs : List (Option Int)} {n : Nat} (hn : n < 24) (hwf : Store.wf {} d.thermal.sensors = true)
    (hstate : (d.sensor n).state = 0) (hfail : fails.getD n 0 = 0) : let e := d.forAll (List.range 24) (readSensor fails vs)
    Store.wf {} e.thermal.sensors = true ∧ (e.sensor n).value = (vs.getD n none).getD 0 ∧ (e.sensor n).state = 0 := by
  obtain ⟨hwfe, hread, -⟩ := forAll_range_rel (P := fun e : Dev => Store.wf {} e.thermal.sensors = true) (get := Dev.sensor)
    (R := fun n a b => a.state = 0 → fails.getD n 0 = 0 → b.value = (vs.getD n none).getD 0 ∧ b.state = 0) (g := readSensor fails vs)
    (fun n d h => by rw [readSensor_sensors]; exact Store.wf_set h)
    (fun n d h hstate hfail => by
      rw [Dev.sensor_congr (readSensor_sensors fails vs n d), Dev.sensor_setSensor_same h, hfail]
      exact sensorAfter_passes hstate _ _)
    (fun n m d hm => by rw [Dev.sensor_congr (readSensor_sensors fails vs n d), Dev.sensor_setSensor_other _ hm]) 24 hwf
  exact ⟨hwfe, hread n hn hstate hfail⟩

/-- A sensor in service needs no substitute. -/
theorem substituteAll_sensor {n : Nat} (hstate : (d.sensor n).state = 0) : (substituteAll d).sensor n = d.sensor n := by
  unfold substituteAll
  refine List.foldlRecOn (motive := fun e : Dev => e.sensor n = d.sensor n) _ _ rfl fun e he m _ => ?_
  split
  · exact he
  next hm => exact (Dev.sensor_setSensor_other _ fun h => hm (by rw [← h]; exact hstate)).trans he

/-- What follows the reading of the sensors leaves them. -/
theorem afterReading_sensors (td : List SensorReading) (x : Ctx) (d : Dev) :
    (noteDue x (noteRunTemps (noteTemperature (scanMux 27
      (d.forAll (List.range 4) fun n d => readRemote (td.getD n .openCircuit) n d))))).thermal.sensors = d.thermal.sensors := by
  rw [noteDue_thermal, noteRunTemps_thermal, noteTemperature_sensors, scanMux_thermal]
  exact List.foldlRecOn (motive := fun e : Dev => e.thermal.sensors = d.thermal.sensors) _ _ rfl fun e he n _ =>
    (readRemote_sensors _ n e).trans he

theorem takeSample_sensors (ts td : List SensorReading) (x : Ctx) (d : Dev) :
    (takeSample ts td x d).thermal.sensors = (substituteAll (d.forAll (List.range 24)
      (readSensor ((List.range 24).map (checkReading d (ts.map SensorReading.value))) (ts.map SensorReading.value)))).thermal.sensors :=
  afterReading_sensors td x _

/-- A sample gives a sensor in service whose reading passes its value (R493). -/
theorem takeSample_sensor {ts td : List SensorReading} {n : Nat} {u : Int} (hn : n < 24) (hwf : Store.wf {} d.thermal.sensors = true)
    (hvalue : (ts.map SensorReading.value).getD n none = some u) (hstate : (d.sensor n).state = 0)
    (hcheck : checkReading d (ts.map SensorReading.value) n = 0) :
    ((takeSample ts td x d).sensor n).value = u ∧ ((takeSample ts td x d).sensor n).state = 0 := by
  have hfail : ((List.range 24).map (checkReading d (ts.map SensorReading.value))).getD n 0 = 0 := by
    simp [List.getD_eq_getElem?_getD, List.getElem?_range hn, hcheck]
  obtain ⟨-, hread, hkept⟩ := readSensors_passes hn hwf hstate hfail
  rw [Dev.sensor_congr (takeSample_sensors ts td x d), substituteAll_sensor hkept, hread, hvalue]
  exact ⟨rfl, hkept⟩

/-! Bands and throttling (R497 to R500). -/

/-- A band falls at its instant, and is reported. -/
theorem bandFall_frame {since : Nat} (hband : d.thermal.band ≠ 0) (hcool : Store.get none d.thermal.bandCool d.thermal.band = some since) :
    (bandFall x d).time = (advance (since + 1000000000 - d.time.raw) d).time ∧ (bandFall x d).thermal.band = d.thermal.band - 1 ∧
      (bandFall x d).evt.pend.getLsbD 172 = true := by
  unfold bandFall
  simp only [if_neg hband, hcool]
  generalize hbase : event 172 0xFFFF (d.thermal.band - 1) _ = base
  obtain ⟨c, hdue⟩ := noteDue_frame x base
  rw [hdue]
  rw [← hbase]
  exact ⟨(reports_event _ _ _ _).time, congrArg Thermal.band (reports_event _ _ _ _).thermal, event_pend_self _ _ _ (by decide)⟩

/-- A change of the level is reported. -/
theorem setLevel_pend {n : Nat} (h : n ≠ d.thermal.level) : (setLevel n d).evt.pend.getLsbD 174 = true := by
  unfold setLevel
  extract_lets t ms t1 d1 d2
  rw [if_neg h]
  exact event_pend_self _ _ _ (by decide)

theorem thermalWarningClear_eq {since : Nat} (hwarning : d.thermal.warning = true) (hcool : d.thermal.warnCool = some since) :
    thermalWarningClear x d =
      { advance (since + 1000000000 - d.time.raw) d with thermal := { d.thermal with warning := false } } := by
  have hdue : (if d.thermal.warning then d.thermal.warnCool else none) = some since := by rw [if_pos hwarning, hcool]
  unfold thermalWarningClear
  rw [hdue]
  rfl

/-- While a program runs a throttle level waits for a meridian. -/
theorem throttleRelease_running {since : Nat} (hlevel : d.thermal.level ≠ 0)
    (hcool : Store.get none d.thermal.levelCool d.thermal.level = some since) (hrun : running d = true) :
    throttleRelease x d = { advance (since + 100000000 - d.time.raw) d with thermal := { d.thermal with release := true } } := by
  unfold throttleRelease
  simp only [if_neg hlevel, hcool, show running (advance (since + 100000000 - d.time.raw) d) = true from hrun, if_true]
  rfl

/-- With no program a throttle level is let go at its instant. -/
theorem throttleRelease_idle {since : Nat} (hlevel : d.thermal.level ≠ 0)
    (hcool : Store.get none d.thermal.levelCool d.thermal.level = some since) (hidle : running d = false) :
    throttleRelease x d = setLevel (d.thermal.level - 1) (advance (since + 100000000 - d.time.raw) d) := by
  unfold throttleRelease
  simp only [if_neg hlevel, hcool, show running (advance (since + 100000000 - d.time.raw) d) = false from hidle, Bool.false_eq_true, if_false]

/-! Rails (R509). -/

theorem Dev.rail_setRail_same (h : Store.wf {} d.house.rails = true) (r : Nat) (v : Rail) : (d.setRail r v).rail r = v := Store.get_set_same h

theorem Dev.rail_setRail_other {r q : Nat} (v : Rail) (h : q ≠ r) : (d.setRail r v).rail q = d.rail q := Store.get_set_other h

theorem Dev.rail_congr (h : e.house = d.house) (r : Nat) : e.rail r = d.rail r := by rw [Dev.rail, h, Dev.rail]

/-- A scan of a rail notes it, reports aside. -/
theorem scanRail_house (x : Ctx) (volts amps : List Int) (r : Nat) (d : Dev) : ∃ q : Rail, q.v = volts.getD r 0 ∧ q.scanned = true ∧
    (scanRail x volts amps r d).house = (d.setRail r q).house := by
  unfold scanRail
  extract_lets q v w bad out inside flagged d1
  have hset : d1.house = (d.setRail r _).house := rfl
  refine ⟨_, ?_, ?_, Eq.trans ?_ hset⟩
  · rfl
  · rfl
  · split
    · exact (reports_event _ _ _ _).house
    · split
      · exact (reports_event _ _ _ _).house
      · rfl

/-- A scan notes every rail. -/
theorem scanRails_rail {x : Ctx} {volts amps : List Int} {n : Nat} (hn : n < 6) (hwf : Store.wf {} d.house.rails = true) :
    ((d.forAll (List.range 6) (scanRail x volts amps)).rail n).v = volts.getD n 0 ∧
      ((d.forAll (List.range 6) (scanRail x volts amps)).rail n).scanned = true := by
  have hstep (n : Nat) (d : Dev) := scanRail_house x volts amps n d
  refine (forAll_range_rel (P := fun e : Dev => Store.wf {} e.house.rails = true) (get := Dev.rail)
    (R := fun n _ b => b.v = volts.getD n 0 ∧ b.scanned = true) (fun n d h => ?_) (fun n d h => ?_) (fun n m d hm => ?_) 6 hwf).2.1 n hn
  · obtain ⟨q, -, -, hq⟩ := hstep n d
    rw [hq]
    exact Store.wf_set h
  · obtain ⟨q, hv, hscanned, hq⟩ := hstep n d
    rw [Dev.rail_congr hq, Dev.rail_setRail_same h]
    exact ⟨hv, hscanned⟩
  · obtain ⟨q, -, -, hq⟩ := hstep n d
    rw [Dev.rail_congr hq, Dev.rail_setRail_other _ hm]

/-! Housekeeping conversions (R505 to R508). -/

/-- A conversion after one more sample. -/
def Convert.after (v : Convert) (taken : List Byte) (settle due : Nat) : Convert :=
  { v with taken := taken, n := v.n + 1, settle := settle, due := due }

/-- The block once a conversion's sample is taken. -/
def House.sampled (q : House) (v : Convert) (settle : Nat) (conv : Option Convert) : House :=
  { q with conv := conv, lastSel := (v.channel, v.sub, v.gain), lastSettle := settle - 1 }

theorem hkaSample_eq {v : Convert} {code : BitVec 12} {value : Int} {retaken : Bool} (hconv : d.house.conv = some v) :
    hkaSample code value retaken x d =
      let e := advance (v.due - d.time.raw) d
      let settle := if retaken then 2 else v.settle
      let taken := v.taken ++ hkaEntry e.time.lat v code value (decide (0 < settle) || lowPowerNow d) retaken
      if v.count ≤ v.n + 1 then
        endSeq (some v.seq) (fun c d => okCmd c 0x0D00 0 taken false d) { e with house := d.house.sampled v settle none }
      else { e with house := d.house.sampled v settle (some (v.after taken (settle - 1) (e.time.raw + v.interval))) } := by
  unfold hkaSample
  simp only [hconv]
  rfl

/-! Remote diodes (R515). -/

theorem remote_setRemote_same (h : Store.Rises d.thermal.remotes) (n : Nat) (v : Remote) : (d.setRemote n v).remote n = v := h.get_set_same n v

/-- A write leaves every other key alone, whatever default either is read with. -/
theorem get_set_other_default {α : Type} [DecidableEq α] {a b v : α} {k i : Nat} {m : Store α} (hne : i ≠ k) :
    Store.get a (Store.set b m k v) i = Store.get a m i := by
  induction m with
  | nil => by_cases hv : v = b <;> simp [Store.set, Store.get, hv, hne]
  | cons p rest ih =>
    obtain ⟨j, w⟩ := p
    have hskip (r : Store α) : Store.get a ((k, v) :: r) i = Store.get a r i := if_neg hne
    by_cases hlt : k < j
    · by_cases hv : v = b
      · rw [Store.set, if_pos hlt, if_pos hv]
      · rw [Store.set, if_pos hlt, if_neg hv, hskip]
    · by_cases hk : k = j
      · subst hk
        by_cases hv : v = b <;> simp [Store.set, Store.get, hv, hne]
      · simp only [Store.set, hlt, hk, if_false, Store.get, ih]

theorem remote_setRemote_other {m n : Nat} (v : Remote) (h : m ≠ n) : (d.setRemote n v).remote m = d.remote m := get_set_other_default h

theorem Dev.remote_congr (h : e.thermal = d.thermal) (n : Nat) : e.remote n = d.remote n := by rw [Dev.remote, h, Dev.remote]

/-- A diode with the limit and the ideality factor of a THM_CONFIG. -/
def Remote.config (r : Remote) (c : Cmd) (n : Nat) : Remote := { r with limit := c.argS (4 + 2 * n) 2, ideal := c.arg (12 + 2 * n) 2 }

/-- Each diode takes its limit and ideality factor. -/
def configRemotes (c : Cmd) (d : Dev) : Dev := d.forAll (List.range 4) fun n d => d.setRemote n ((d.remote n).config c n)

theorem configRemotes_extend (c : Cmd) (d : Dev) : (configRemotes c d).thermal.extendNext = d.thermal.extendNext ∧
    (configRemotes c d).thermal.extend = d.thermal.extend :=
  List.foldlRecOn (motive := fun e : Dev => e.thermal.extendNext = d.thermal.extendNext ∧ e.thermal.extend = d.thermal.extend) _ _
    ⟨rfl, rfl⟩ fun _ he _ _ => he

theorem configRemotes_remote (c : Cmd) (hrises : Store.Rises d.thermal.remotes) (n : Fin 4) :
    (configRemotes c d).remote n = (d.remote n).config c n :=
  (forAll_range_rel (P := fun e : Dev => Store.Rises e.thermal.remotes) (get := Dev.remote) (R := fun n a b => b = a.config c n)
    (fun n _ h => h.set n _) (fun n _ h => remote_setRemote_same h n _) (fun _ _ _ hm => remote_setRemote_other _ hm) 4 hrises).2.1 n n.isLt

theorem thmConfig_act_eq (x : Ctx) (c : Cmd) (d : Dev) : thmConfigSpec.act x c d =
    doneCmd c 0x0D00 (configRemotes c { d with thermal := { d.thermal with extendNext := some (bitOf (c.arg 0 1) 0) } }) := by
  simp only [thmConfigSpec, configRemotes, Remote.config]

/-- THM_CONFIG (R515): a change of EXTEND waits for a meridian. -/
theorem thmConfig_act_thermal (x : Ctx) (c : Cmd) (d : Dev) : (thmConfigSpec.act x c d).thermal.extendNext = some (bitOf (c.arg 0 1) 0) ∧
    (thmConfigSpec.act x c d).thermal.extend = d.thermal.extend ∧
    (d.thermal.remotes = [] → ∀ n : Fin 4, ∃ r : Remote, (thmConfigSpec.act x c d).remote n = r.config c n) := by
  have hthermal := (reports_doneCmd c 0x0D00
    (configRemotes c { d with thermal := { d.thermal with extendNext := some (bitOf (c.arg 0 1) 0) } })).thermal
  obtain ⟨hnext, hextend⟩ := configRemotes_extend c { d with thermal := { d.thermal with extendNext := some (bitOf (c.arg 0 1) 0) } }
  rw [thmConfig_act_eq, hthermal, hnext, hextend]
  refine ⟨rfl, rfl, fun hempty n => ⟨_, (Dev.remote_congr hthermal n).trans (configRemotes_remote c ?_ n)⟩⟩
  rw [hempty]
  exact List.Pairwise.nil

/-- HKA_CONFIG (R517): the end of low-power mode wakes the ADC. -/
theorem hkaConfig_act_eq (x : Ctx) (c : Cmd) (d : Dev) : hkaConfigSpec.act x c d =
    let low := decide (c.arg 0 1 = 1)
    let d1 := if lowPowerNow d = true ∧ low = false then wakeAdc d else d
    doneCmd c (if low = true ∧ d.thermal.periodUs ≠ 10000 then 0x0D01 else 0x0D00) { d1 with house := { d1.house with lowPower := low } } := by
  simp only [hkaConfigSpec, decide_eq_true_eq, decide_eq_false_iff_not]

/-- What a command's row leaves of the sensors' block. -/
theorem State.during_thermal (s : State) (h : HostSide) (c : Cmd) (f : Ctx → Dev → Dev) :
    (s.during h c f).dev.thermal = (f (s.sync h).ctx (putCmd c (s.sync h).dev)).thermal := by
  obtain ⟨us, hdev⟩ := s.during_dev h c f
  rw [hdev]

/-- What a row leaves of time, the sensors' block, housekeeping and events is what its operation leaves of them. -/
theorem next_on_thermal {s : State} {f : Ctx → Dev → Dev} {e : Dev} (h : f s.ctx s.dev = e) :
    ∃ t, (Host.Outcome.next (s.on f) : Host.Outcome State Fault Refusal) = .next t ∧ t.dev.time = e.time ∧ t.dev.thermal = e.thermal ∧
      t.dev.house = e.house ∧ t.dev.evt = e.evt :=
  ⟨_, next_on_writes h, rfl, rfl, rfl, rfl⟩

end

/-- Settles O60: a fold over sensors, diodes or rails relates each to itself before, and what comes after it leaves them. -/
theorem thermalAndHouseRows : Obligations.ThermalAndHouseRows := by
  intro mb h s c ts td volts amps ch fast code value retaken v since hwr t0 house
  refine ⟨fun hb => cmdRow_effect hb rfl, fun hb => ?_, fun hb => cmdRow_effect hb rfl, fun hb => ?_, fun hb hkeep => cmdRow_effect hb ?_,
    fun hruns hts htd hwf => ?_, fun hband hcool => ?_, fun hwarning hcool => ?_, fun hlevel hcool => ⟨fun hrun => ?_, fun hidle => ?_⟩,
    next_on_eq rfl hwr, fun hruns hvolts hwf => ?_, fun hconv => ⟨fun hmore => ?_, fun hlast hcmd hlive => ?_⟩⟩
  · obtain ⟨hnext, hextend, hremote⟩ := thmConfig_act_thermal (s.sync h).ctx c (putCmd c (s.sync h).dev)
    have hthermal := s.during_thermal h c fun x d => thmConfigSpec.act x c d
    refine ⟨_, cmdRow_begins hb, ?_, ?_, fun n hempty => ?_⟩
    · rw [hthermal, hnext]
    · rw [hthermal, hextend]
      rfl
    · obtain ⟨r, hr⟩ := hremote hempty n
      rw [Dev.remote_congr hthermal, hr]
      exact ⟨rfl, rfl⟩
  · exact cmdRow_effect hb (hkaConfig_act_eq _ c _)
  · simp only [railStatusSpec, hkeep, Bool.not_false, Bool.false_eq_true, if_false]
    rfl
  · have hrow : sensorSample ts td s.ctx s.dev = takeSample ts td s.ctx (paced .sensors s.dev) := if_neg (by simp [hruns, hts, htd])
    obtain ⟨t, ht, -, hthermal, -⟩ := next_on_thermal hrow
    refine ⟨t, ht, fun n u hvalue hstate hcheck => ?_⟩
    rw [Dev.sensor_congr (congrArg Thermal.sensors hthermal)]
    exact takeSample_sensor (d := paced .sensors s.dev) n.isLt hwf hvalue hstate hcheck
  · obtain ⟨t, ht, htime, hthermal, -, hevt⟩ := next_on_thermal (s := s) (f := bandFall) rfl
    refine ⟨t, ht, ?_⟩
    rw [htime, hthermal, hevt]
    exact bandFall_frame hband hcool
  · exact next_on_eq (thermalWarningClear_eq hwarning hcool) hwr
  · exact next_on_eq (throttleRelease_running hlevel hcool hrun) hwr
  · obtain ⟨t, ht, -, hthermal, -, hevt⟩ := next_on_thermal (throttleRelease_idle (x := s.ctx) hlevel hcool hidle)
    obtain ⟨ms, since, release, hlow⟩ := setLevel_thermal (t0.level - 1) (advance (since + 100000000 - s.dev.time.raw) s.dev)
    refine ⟨t, ht, ?_, ?_⟩
    · rw [hthermal, hlow]
    · rw [hevt]
      exact setLevel_pend (show t0.level - 1 ≠ t0.level by omega)
  · have hrow : railScan volts amps s.ctx s.dev = (scanMux 37 (paced .rails s.dev)).forAll (List.range 6) (scanRail s.ctx volts amps) :=
      if_neg (by simp [hruns, hvolts])
    obtain ⟨t, ht, -, -, hhouse, -⟩ := next_on_thermal hrow
    refine ⟨t, ht, fun n => ?_⟩
    rw [Dev.rail_congr hhouse]
    exact scanRails_rail (d := scanMux 37 (paced .rails s.dev)) n.isLt hwf
  · refine next_on_eq ((hkaSample_eq hconv).trans ?_) hwr
    exact if_neg (by omega)
  · refine next_on_congr ((hkaSample_eq hconv).trans ((if_pos hlast).trans ?_))
    exact endSeq_live hcmd hlive

end Sys2Proof.Machine
end

section
/-! The time-interval unit (R396 to R404, R413 to R416). -/

namespace Sys2Proof.Machine

theorem Reports.tim {d e : Dev} (h : Reports d e) : e.tim = d.tim := by rw [h.1]

section
variable {d : Dev} {m : Meas} {x : Ctx}

/-! The end of a measurement (R404). -/

/-- What a measurement leaves as its result (R404). -/
def Meas.result (m : Meas) (cause lat : Nat) : Meas :=
  { m with ended := lat, cause := cause, orphans := m.early.length, orphan := (m.early.head?).map (·.1) }

/-- A measurement ended: none is left, its result is the most recent, and the end is reported. -/
structure EndsMeas (m : Meas) (cause : Nat) (d e : Dev) : Prop where
  meas : e.tim.meas = none
  results : e.tim.results = m.result cause d.time.lat :: d.tim.results.take 63
  time : e.time = d.time
  pend : e.evt.pend.getLsbD 112 = true

theorem endMeas_ends (cause : Nat) (h : d.tim.meas = some m) : EndsMeas m cause d (endMeas cause d) := by
  unfold endMeas
  rw [h]
  have hreports := reports_raise { src := 112, inst := 0xFFFF, arg := m.id % 2 ^ 32, cause := cause, lat := nowFine d }
    { d with tim := { d.tim with meas := none, results := (m.result cause d.time.lat :: d.tim.results).take 64 } }
  exact ⟨congrArg Tim.meas hreports.tim, congrArg Tim.results hreports.tim, hreports.time, raise_pend_self (show 112 < 256 by decide)⟩

theorem EndsMeas.after {cause : Nat} {e f : Dev} (h : EndsMeas m cause d e) (g : SentOut e f) : EndsMeas m cause d f :=
  ⟨(congrArg Tim.meas g.reports.tim).trans h.meas, (congrArg Tim.results g.reports.tim).trans h.results, g.reports.time.trans h.time,
    g.pend 112 h.pend⟩

/-! Commands (R414 to R416). -/

theorem timRead_act_eq {c : Cmd} (h : resultOf d (c.arg 0 4) = some m) : timReadSpec.act x c d = replyCmd c 0x0900 (timResultBytes m) d := by
  simp only [timReadSpec, h]

theorem timAbort_act_idle {c : Cmd} (h : d.tim.meas = none) : timAbortSpec.act x c d = okCmd c 0x0002 0 [] true d := by
  simp only [timAbortSpec, h, Option.isSome_none, Bool.false_eq_true, if_false]

theorem timAbort_act_ends {c : Cmd} (h : d.tim.meas = some m) : EndsMeas m Cause.stopped d (timAbortSpec.act x c d) := by
  have hact : timAbortSpec.act x c d = doneCmd c 0x0900 (endMeas Cause.stopped d) := by
    simp only [timAbortSpec, h, Option.isSome_some, if_true]
  rw [hact]
  exact (endMeas_ends _ h).after (sentOut_doneCmd _ _ _)

/-! Windows (R401, R402). -/

theorem timSelfCalibrate_meas {scales : List Nat} (h : d.tim.meas = some m) (hnew : m.calibrated = false) :
    ∃ scale, (timSelfCalibrate scales x d).tim.meas = some { m with
      calibrated := true, calOk := scales.all (fun v => decide (7900 ≤ v ∧ v ≤ 15000)), scale := scale
      warming := x.fuse.oven && !d.hif.orfWarm } := by
  unfold timSelfCalibrate
  rw [h]
  simp only [hnew, Bool.false_eq_true, if_false]
  exact ⟨_, rfl⟩

theorem timWindowOpen_eq (h : d.tim.meas = some m) (hclosed : m.isOpen = false) (hcal : m.calibrated = true) : timWindowOpen x d =
    if m.calOk then { advanceTo m.openAt d with tim := { d.tim with meas := some { m with isOpen := true } } }
    else endMeas Cause.timCal (advanceTo m.openAt d) := by
  unfold timWindowOpen
  rw [h]
  simp only [hclosed, hcal]
  rfl

theorem timLatticeStart_eq (h : d.tim.meas = some m) (hopen : m.isOpen = true) (hsrc : m.startSrc = 64) (hstart : m.start = none) :
    timLatticeStart x d = latticeStart (advanceTo m.startAt d) := by
  unfold timLatticeStart
  rw [h]
  exact if_pos (by simp [hopen, hsrc, hstart])

theorem timWindowClose_eq (h : d.tim.meas = some m) (hopen : m.isOpen = true) :
    timWindowClose x d = endMeas Cause.timeout (advanceTo (m.openAt + m.window) d) := by
  unfold timWindowClose
  rw [h]
  exact if_pos hopen

/-- What a row's state says of a measurement that has ended. -/
theorem EndsMeas.ended {cause : Nat} {e t : Dev} (h : EndsMeas m cause d e) (htim : t.tim = e.tim) (htime : t.time = e.time)
    (hevt : t.evt = e.evt) : t.tim.meas = none ∧ t.evt.pend.getLsbD 112 = true ∧ ∃ q rest, t.tim.results = q :: rest ∧ q.id = m.id ∧
      q.cause = cause ∧ q.ended = t.time.lat ∧ q.stops = m.stops := by
  rw [htim, htime, hevt]
  exact ⟨h.meas, h.pend, _, _, h.results, rfl, rfl, congrArg Time.lat h.time.symm, rfl⟩

theorem next_on_ended {s : State} {f : Ctx → Dev → Dev} {cause : Nat} {e : Dev} (hrow : f s.ctx s.dev = e) (h : EndsMeas m cause d e) :
    ∃ t, (Host.Outcome.next (s.on f) : Host.Outcome State Fault Refusal) = .next t ∧ t.dev.tim.meas = none ∧
      t.dev.evt.pend.getLsbD 112 = true ∧ ∃ q rest, t.dev.tim.results = q :: rest ∧ q.id = m.id ∧ q.cause = cause ∧
        q.ended = t.dev.time.lat ∧ q.stops = m.stops :=
  ⟨_, next_on_writes hrow, h.ended rfl rfl rfl⟩

theorem State.during_ended (s : State) (h : HostSide) (c : Cmd) {cause : Nat} (f : Ctx → Dev → Dev)
    (hends : EndsMeas m cause d (f (s.sync h).ctx (putCmd c (s.sync h).dev))) :
    let t := s.during h c f
    t.dev.tim.meas = none ∧ t.dev.evt.pend.getLsbD 112 = true ∧ ∃ q rest, t.dev.tim.results = q :: rest ∧ q.id = m.id ∧
      q.cause = cause ∧ q.ended = t.dev.time.lat ∧ q.stops = m.stops := by
  obtain ⟨us, hdev⟩ := s.during_dev h c f
  intro t
  rw [hdev]
  exact hends.ended rfl rfl rfl

/-! Edges (R397, R398, R402, R403). -/

variable {src b : Nat} {falling : Bool}

theorem inputEdge_eq (hsrc : inputCode src = true) (hb : b ≤ 999) (hready : d.hif.state = .ready) : inputEdge src falling b x d =
    if !(conditionEdge src falling b d).1 then (conditionEdge src falling b d).2
    else
      let d1 := eventTriggers src falling (timEdge src falling b (conditionEdge src falling b d).2)
      if src = 8 then syncEdgeOps falling x d1 else d1 := by
  unfold inputEdge
  exact if_neg (by simp [hsrc, hready, show ¬ 999 < b by omega])

theorem conditionEdge_wr (src : Nat) (falling : Bool) (b : Nat) (d : Dev) : (conditionEdge src falling b d).2.wr = d.wr := by
  unfold conditionEdge
  extract_lets q n count left q1 put t
  have hheld (e : Dev) : (countHeld src e).wr = e.wr := by
    unfold countHeld
    split
    · rfl
    · split <;> rfl
  split
  · rfl
  · split
    · exact hheld _
    · rfl

/-- An edge that is no stop is not taken. -/
theorem takeStop_none {start e : TimEdge} (h : e.ps - start.ps ≤ -12 ∨ m.openStop e.src falling = none) :
    m.takeStop start e falling = (m, false) := by
  have hnone : (if -12 < e.ps - start.ps then m.openStop e.src falling else none) = none := by
    rcases h with h | h
    · exact if_neg (by omega)
    · rw [h, ite_self]
  unfold Meas.takeStop
  simp only [hnone]

/-- A stop more than −12 ps from the start is taken. -/
theorem takeStop_some {start e : TimEdge} {i : Nat} (hdiff : -12 < e.ps - start.ps) (h : m.openStop e.src falling = some i) :
    m.takeStop start e falling =
      ({ m with stops := Store.set none m.stops i (some { e with status := if e.ps - start.ps ≤ 12 then 1 else 0 }) }, true) := by
  have hnear : (e.ps - start.ps).natAbs ≤ 12 ↔ e.ps - start.ps ≤ 12 := by omega
  unfold Meas.takeStop
  simp only [if_pos hdiff, h, hnear]

/-- A stop that is still open has not been taken. -/
theorem openStop_open {i : Nat} (h : m.openStop src falling = some i) : m.stop i = none := by
  have hfound := List.find?_some h
  simp only [Bool.and_eq_true, Option.isNone_iff_eq_none] at hfound
  exact hfound.1

/-- The edge that timEdge sees at this tick. -/
def edgeNow (d : Dev) (src b : Nat) : TimEdge := { tick := d.time.lat, before := b, src := src, status := 0 }

/-- A measurement with one more orphan edge. -/
def Meas.orphaned (m : Meas) (e : TimEdge) (falling : Bool) : Meas := { m with early := m.early ++ [(e, falling)] }

section
variable (h : d.tim.meas = some m) (hopen : m.isOpen = true) (hfrom : 1000 * (m.openAt : Int) ≤ (edgeNow d src b).ps)
  (hto : (edgeNow d src b).ps ≤ 1000 * ((m.openAt + m.window : Nat) : Int))
include h hopen hfrom hto

/-- An edge in the window of an open measurement reaches it. -/
theorem timEdge_open {m1 : Meas} (hcomplete : m1.complete = false) (hm1 : m1 = match m.start with
      | none =>
        let m2 := if (m.openStop src falling).isSome then m.orphaned (edgeNow d src b) falling else m
        if m.startSrc = src ∧ m.startFalling = falling then m2.takeStart (edgeNow d src b) else m2
      | some s =>
        if decide ((edgeNow d src b).ps - s.ps ≤ -12) && m.stopSource src falling then m.orphaned (edgeNow d src b) falling
        else (m.takeStop s (edgeNow d src b) falling).1) :
    (timEdge src falling b d).tim = { d.tim with meas := some m1 } := by
  have hwindow : ¬((!m.isOpen || decide ((edgeNow d src b).ps < 1000 * (m.openAt : Int)) ||
      decide (1000 * ((m.openAt + m.window : Nat) : Int) < (edgeNow d src b).ps)) = true) := by
    simp [hopen]
    omega
  have heq : timEdge src falling b d = let d1 : Dev := { d with tim := { d.tim with meas := some m1 } }
      if m1.complete then endMeas 0 d1 else d1 := by
    rw [hm1]
    unfold timEdge
    rw [h]
    exact if_neg hwindow
  rw [heq, hcomplete]
  rfl

/-- An edge of a stop before the start is captured is an orphan. -/
theorem timEdge_before (hstart : m.start = none) (hstop : (m.openStop src falling).isSome = true)
    (hother : ¬(m.startSrc = src ∧ m.startFalling = falling)) :
    (timEdge src falling b d).tim = { d.tim with meas := some (m.orphaned (edgeNow d src b) falling) } := by
  refine timEdge_open h hopen hfrom hto ?_ ?_
  · simp [Meas.complete, Meas.orphaned, hstart]
  · simp only [hstart, if_pos hstop, if_neg hother]

/-- An edge of a stop source 12 ps or more before the start is an orphan. -/
theorem timEdge_early {start : TimEdge} (hstart : m.start = some start) (hdiff : (edgeNow d src b).ps - start.ps ≤ -12)
    (hstop : m.stopSource src falling = true) (hmore : m.complete = false) :
    (timEdge src falling b d).tim = { d.tim with meas := some (m.orphaned (edgeNow d src b) falling) } := by
  refine timEdge_open h hopen hfrom hto hmore ?_
  simp only [hstart, hdiff, hstop, decide_true, Bool.and_self, if_true]

end

end

/-- Settles O53: a measurement's end is said once, for every way it ends; an edge is an orphan, a stop or neither by its distance from the
start. -/
theorem timRows : Obligations.TimRows := by
  refine ⟨?_, fun m start e falling hwf => ⟨takeStop_none, fun i hdiff hopen => ⟨_, takeStop_some hdiff hopen, openStop_open hopen,
    Store.get_set_same hwf, fun j hj => Store.get_set_other hj⟩⟩, fun d m src b cause falling hmeas => ⟨fun hopen hfrom hto =>
    ⟨timEdge_before hmeas hopen hfrom hto, fun start => timEdge_early hmeas hopen hfrom hto⟩, ?_⟩⟩
  · intro mb h s c m scales src b falling tim ended
    refine ⟨fun hb => cmdRow_effect hb rfl, fun hb => cmdRow_effect hb rfl, fun hb hres => cmdRow_effect hb (timRead_act_eq hres),
      fun hb => ⟨fun hnone => cmdRow_effect hb (timAbort_act_idle hnone), fun hmeas => ⟨_, cmdRow_begins hb, ?_⟩⟩,
      fun hmeas hnew => ?_, fun hmeas hclosed hcal => ⟨fun hok => ?_, fun hbad => ?_⟩,
      fun hmeas hopen hsrc hstart => next_on_congr (timLatticeStart_eq hmeas hopen hsrc hstart), fun hmeas hopen => ?_,
      fun hsrc hb hready hwr => ⟨fun hturned => ?_, fun hcaptured hother => ?_⟩⟩
    · exact s.during_ended h c _ (timAbort_act_ends (d := putCmd c (s.sync h).dev) hmeas)
    · obtain ⟨scale, hcal⟩ := timSelfCalibrate_meas (x := s.ctx) (scales := scales) hmeas hnew
      exact ⟨_, _, next_on_writes rfl, hcal, rfl⟩
    · exact ⟨_, next_on_writes ((timWindowOpen_eq hmeas hclosed hcal).trans (if_pos hok)), rfl⟩
    · exact next_on_ended ((timWindowOpen_eq hmeas hclosed hcal).trans (if_neg (ne_true_of_eq_false hbad)))
        (endMeas_ends (d := advanceTo _ s.dev) _ hmeas)
    · exact next_on_ended (timWindowClose_eq hmeas hopen) (endMeas_ends (d := advanceTo _ s.dev) _ hmeas)
    · refine next_on_eq ((inputEdge_eq hsrc hb hready).trans ?_) ((conditionEdge_wr src falling b s.dev).trans hwr)
      rw [hturned]
      rfl
    · refine next_on_congr ((inputEdge_eq hsrc hb hready).trans ?_)
      rw [hcaptured]
      exact if_neg hother
  · exact ⟨_, _, (endMeas_ends cause hmeas).results, rfl, rfl⟩

end Sys2Proof.Machine
end

section
/-! Calibration (R366, R370 to R382, R389 to R395). -/

namespace Sys2Proof.Machine

section
variable {d : Dev} {x : Ctx}

/-! Commits (R381, R382). -/

theorem length_slotHead (ports gen wt : Nat) : (slotHead ports gen wt).length = 60 := by simp [slotHead]

/-- The fields of a slot's header that a reader checks. -/
theorem slotHead_fields {ports gen wt : Nat} (hports : ports < 2 ^ 8) (rest : List Byte) :
    let h := slotHead ports gen wt ++ rest
    fld h 0 4 = slotMagic ∧ fld h 8 2 = 1 ∧ fld h 10 1 = ports ∧ fld h 11 1 = 8 ∧ fld h 12 4 = tableLen ∧ h.take 60 = slotHead ports gen wt := by
  refine ⟨?_, ?_, ?_, ?_, ?_, List.take_left' (length_slotHead ports gen wt)⟩
  all_goals
    simp only [slotHead, List.append_assoc, fld_append_right, fld_append_le, length_le, Nat.reduceLeDiff, Nat.reduceSub, Nat.reduceMul]
  · rfl
  · rfl
  · exact Nat.mod_eq_of_lt hports
  · rfl
  · rfl

theorem portsCode_lt (f : Fuse) : f.portsCode < 2 ^ 8 := by
  unfold Fuse.portsCode
  split <;> decide

/-- What a table of a slot holds goes by the store and by how much of it has been written. -/
theorem slotTable_congr {g q : Cal} {n : Nat} (hstores : g.stores = q.stores) (hwritten : (ofSlot n g.slots).written = (ofSlot n q.slots).written) :
    slotTable g n = slotTable q n := by
  simp only [slotTable, hstores, hwritten]

theorem ofSlot_setSlot_other {α : Type} (n : Nat) (v : α) (p : α × α) : ofSlot n (setSlot (1 - n) v p) = ofSlot n p := by
  rcases n with _ | n
  · rfl
  · simp [ofSlot, setSlot]

theorem ofSlot_setSlot_same {α : Type} (n : Nat) (v : α) (p : α × α) : ofSlot n (setSlot n v p) = v := by
  unfold ofSlot setSlot
  split <;> rfl

/-- A slot filled with a table under its whole header is valid (R381). -/
theorem slotValid_filled {g : Cal} {n gen : Nat} {table : Store Entry} (hstores : g.stores = d.cal.stores) :
    slotValid x (fillSlot n table tableLen (fullHeader x d n gen table) g) n = true := by
  obtain ⟨hmagic, hformat, hports, hfacets, hlength, htake⟩ := slotHead_fields (gen := gen) (wt := wallNow d) (portsCode_lt x.fuse)
    (le 4 (crc32c (slotHead x.fuse.portsCode gen (wallNow d) ++ slotTable (fillSlot n table tableLen [] d.cal) n)))
  have hheader : (ofSlot n (fillSlot n table tableLen (fullHeader x d n gen table) g).slots).header = fullHeader x d n gen table := by
    simp only [fillSlot, ofSlot_setSlot_same]
  have htable : slotTable (fillSlot n table tableLen (fullHeader x d n gen table) g) n = slotTable (fillSlot n table tableLen [] d.cal) n := by
    apply slotTable_congr
    · simp only [fillSlot, hstores]
    · simp only [fillSlot, ofSlot_setSlot_same]
  have hcrc : fld (fullHeader x d n gen table) 60 4 =
      crc32c (slotHead x.fuse.portsCode gen (wallNow d) ++ slotTable (fillSlot n table tableLen [] d.cal) n) := by
    unfold fullHeader
    simp only
    rw [fld_append_right _ _ _ _ (length_slotHead _ _ _).le, length_slotHead, fld_le, Nat.mod_eq_of_lt (crc32c_lt _)]
  unfold slotValid
  simp only [hheader, htable, hcrc]
  unfold fullHeader
  simp only [hmagic, hformat, hports, hfacets, hlength, htake, decide_true, Bool.and_self]

theorem Reports.cal {d e : Dev} (h : Reports d e) : e.cal = d.cal := by rw [h.1]

theorem Raised.core {d e : Dev} (h : Raised d e) : e.core = d.core := by rw [h.frame]

/-- The block once a commit has matched. -/
def Cal.committed (g : Cal) (x : Ctx) (d : Dev) (table : Store Entry) : Cal :=
  fillSlot (1 - g.slot) table tableLen (fullHeader x d (1 - g.slot) ((g.gen + 1) % 2 ^ 32) table)
    { g with committing := none, commitSeq := none, slot := 1 - g.slot, gen := (g.gen + 1) % 2 ^ 32, empty := false, commitWt := wallNow d }

/-- The block once a commit has not matched: the slot has no CRC, and the table is changed again. -/
def Cal.uncommitted (g : Cal) (x : Ctx) (d : Dev) (table : Store Entry) : Cal :=
  fillSlot (1 - g.slot) table tableLen
    ((fullHeader x d (1 - g.slot) ((g.gen + 1) % 2 ^ 32) table).take 60 ++ List.replicate 4 0xFF)
    { g with committing := none, commitSeq := none, changed := true }

theorem endSeq_none (g : Cmd → Dev → Dev) (d : Dev) : endSeq none g d = d := rfl

/-- The next commit that waits begins. -/
def commitNext (d : Dev) : Dev :=
  match d.cal.commitQueue with
  | [] => d
  | q :: rest => beginCommit q { d with cal := { d.cal with commitQueue := rest } }

theorem commitNext_none (h : d.cal.commitQueue = []) : commitNext d = d := by
  unfold commitNext
  rw [h]

section
variable {table : Store Entry} (htable : d.cal.committing = some table) (hqueue : d.cal.commitQueue = []) (hseq : d.cal.commitSeq = none)
include htable hqueue hseq

/-- With no command waiting and no commit queued, the end of a commit that matches is its report on the block that it leaves. -/
theorem endCommit_matching : endCommit true x d =
    event 107 (1 - d.cal.slot) ((d.cal.gen + 1) % 2 ^ 32) { d with cal := d.cal.committed x d table } := by
  have hrow : endCommit true x d =
      commitNext (event 107 (1 - d.cal.slot) ((d.cal.gen + 1) % 2 ^ 32) { d with cal := d.cal.committed x d table }) := by
    unfold endCommit
    rw [htable, hseq]
    simp only [endSeq_none, if_true]
    rfl
  exact hrow.trans (commitNext_none ((congrArg Cal.commitQueue (reports_event _ _ _ _).cal).trans hqueue))

/-- So is that of one that does not match. -/
theorem endCommit_failing : endCommit false x d =
    event 108 (1 - d.cal.slot) ((d.cal.gen + 1) % 2 ^ 32) { d with cal := d.cal.uncommitted x d table } := by
  have hrow : endCommit false x d =
      commitNext (event 108 (1 - d.cal.slot) ((d.cal.gen + 1) % 2 ^ 32) { d with cal := d.cal.uncommitted x d table }) := by
    unfold endCommit
    rw [htable, hseq]
    simp only [endSeq_none, Bool.false_eq_true, if_false]
    rfl
  exact hrow.trans (commitNext_none ((congrArg Cal.commitQueue (reports_event _ _ _ _).cal).trans hqueue))

end

/-! Runs (R378 to R380). -/

/-- The entry that a run's measurement becomes (R379). -/
def RunDone.entry (r : RunDone) (fluxDc : Bool) (old : Entry) : Entry :=
  let m := r.meas
  let keep := decide (portKind m.port = .flux) && !fluxDc
  let v := usedTrim m.port { delay := m.delay, phase := m.phase % 2 ^ 32, gain := m.gain
                             dcofs := if keep then old.dcofs else m.dcofs, dcgain := if keep then old.dcgain else m.dcgain }
  { delay := v.delay, phase := v.phase, gain := v.gain, temp := r.temp, dcofs := v.dcofs, dcgain := v.dcgain, valid := true
    source := 1, wt := r.wt }

/-- The residual that a run's measurement becomes where no facet takes it (R379). -/
def RunDone.residual (r : RunDone) (t : Trim) : Resid where
  delay := r.meas.delay - t.delay
  phase := if portKind r.meas.port = .flux ∨ r.meas.port = 96 then 0 else (arc t.phase r.meas.phase % 2 ^ 32).toNat
  gain := if (usedTrim r.meas.port t).gain = 0 then 32768 else (roundHalfUp ((r.meas.gain * 32768 : Nat) : Int) t.gain).toNat

variable {r : RunDone} {fluxDc : Bool}

theorem applyRunMeas_taken {f : Nat} (h : r.facet = some f) :
    (applyRunMeas fluxDc r d).core.facets = Store.set {} d.core.facets (97 * f + r.meas.port) (r.entry fluxDc (d.facet f r.meas.port)) ∧
      (applyRunMeas fluxDc r d).core.resid = Store.set {} d.core.resid r.meas.port {} := by
  unfold applyRunMeas
  rw [h]
  exact ⟨rfl, rfl⟩

theorem applyRunMeas_left (h : r.facet = none) : (applyRunMeas fluxDc r d).core.facets = d.core.facets ∧
    (applyRunMeas fluxDc r d).core.resid = Store.set {} d.core.resid r.meas.port (r.residual (facetTrim d r.meas.port r.temp)) := by
  unfold applyRunMeas
  rw [h]
  exact ⟨rfl, rfl⟩

/-- The phase that a residual adds to the facets' leads to the phase measured. -/
theorem phase_residual (u v : Nat) : (u + (arc u v % 2 ^ 32).toNat) % 2 ^ 32 = v % 2 ^ 32 := by
  unfold arc signed
  split <;> omega

/-- A measurement changes no setting of the run, and no commit. -/
theorem applyRunMeas_cal (fluxDc : Bool) (r : RunDone) (d : Dev) :
    ∃ changed, (applyRunMeas fluxDc r d).cal = { d.cal with changed := changed } := by
  unfold applyRunMeas
  cases r.facet with
  | none => exact ⟨_, rfl⟩
  | some f => exact ⟨true, rfl⟩

/-- The measurements of a run, one after another. -/
def applyRun (done : List RunDone) (fluxDc : Bool) (d : Dev) : Dev := done.foldl (fun d m => applyRunMeas fluxDc m d) d

theorem applyRun_cal (done : List RunDone) (fluxDc : Bool) (d : Dev) :
    ∃ changed, (applyRun done fluxDc d).cal = { d.cal with changed := changed } :=
  List.foldlRecOn (motive := fun e : Dev => ∃ changed, e.cal = { d.cal with changed := changed }) done _ ⟨d.cal.changed, rfl⟩ fun e he r _ => by
    obtain ⟨_, he⟩ := he
    obtain ⟨changed, hr⟩ := applyRunMeas_cal fluxDc r e
    exact ⟨changed, by rw [hr, he]⟩

/-- Each measurement meets the setting that the run began with. -/
theorem applyRun_eq (done : List RunDone) (d : Dev) :
    done.foldl (fun d m => applyRunMeas d.cal.runFluxDc m d) d = applyRun done d.cal.runFluxDc d := by
  unfold applyRun
  induction done generalizing d with
  | nil => rfl
  | cons r rest ih =>
    obtain ⟨changed, hr⟩ := applyRunMeas_cal d.cal.runFluxDc r d
    rw [List.foldl_cons, List.foldl_cons, ih, hr]

/-- The block once a run has ended: complete, with what its measurements went to. -/
def Cal.ranOut (g : Cal) (done : List RunDone) (lat : Nat) : Cal :=
  { g with
    runOn := false, runState := 2, runCause := 0, runDone := [], runEnd := lat
    assigned := done.foldl (fun s m => match m.facet with | some f => Store.set 0 s f (Store.get 0 s f + 1) | none => s) []
    unassigned := (done.filter (fun m => m.facet.isNone)).length }

theorem calRunEnd_eq (hon : d.cal.runOn = true) (hports : d.cal.runPorts = []) : calRunEnd x d =
    let d1 := applyRun d.cal.runDone d.cal.runFluxDc d
    requestCommit none (eventCause 106 0xFFFF 0 0 { d1 with cal := d1.cal.ranOut d.cal.runDone d1.time.lat }) := by
  have hrun : ¬((!d.cal.runOn || !d.cal.runPorts.isEmpty) = true) := by simp [hon, hports]
  unfold calRunEnd
  rw [if_neg hrun, ← applyRun_eq]
  rfl

theorem requestCommit_none (seq : Option Nat) (h : d.cal.committing = none) : requestCommit seq d = beginCommit seq d := by
  unfold requestCommit
  rw [h]
  rfl

/-- A complete run ends, and asks for a commit of the table as its measurements leave it. -/
theorem calRunEnd_ends (hon : d.cal.runOn = true) (hports : d.cal.runPorts = []) (hidle : d.cal.committing = none) :
    let e := calRunEnd x d
    let d1 := applyRun d.cal.runDone d.cal.runFluxDc d
    e.cal.runOn = false ∧ e.cal.runState = 2 ∧ e.cal.committing = some e.core.facets ∧ e.evt.pend.getLsbD 106 = true ∧
      e.core.facets = d1.core.facets ∧ e.core.resid = d1.core.resid := by
  obtain ⟨changed, hcal⟩ := applyRun_cal d.cal.runDone d.cal.runFluxDc d
  intro e d1
  obtain ⟨base, hbase⟩ : ∃ b : Dev, b = { d1 with cal := d1.cal.ranOut d.cal.runDone d1.time.lat } := ⟨_, rfl⟩
  have hraised : Raised base (eventCause 106 0xFFFF 0 0 base) := raised_raise _ _
  have hpend : (eventCause 106 0xFFFF 0 0 base).evt.pend.getLsbD 106 = true := raise_pend_self (show 106 < 256 by decide)
  have hrow : e = requestCommit none (eventCause 106 0xFFFF 0 0 base) := by rw [hbase]; exact calRunEnd_eq hon hports
  have hcal : base.cal = { d.cal with changed := changed }.ranOut d.cal.runDone d1.time.lat := by rw [hbase, ← hcal]
  have hcore : base.core = d1.core := by rw [hbase]
  rw [← hraised.reports.cal] at hcal
  rw [← hraised.core] at hcore
  rw [hrow]
  generalize eventCause 106 0xFFFF 0 0 base = ev at hcal hcore hpend
  rw [requestCommit_none none (by rw [hcal]; exact hidle), ← hcore]
  refine ⟨(congrArg Cal.runOn hcal : ev.cal.runOn = false), (congrArg Cal.runState hcal : ev.cal.runState = 2), rfl, hpend, rfl, rfl⟩

/-! Slices and starved ports (R372, R376). -/

theorem sliceStart_idle {tie : List Nat} (hpaused : slicesPaused d = false) (hruns : firmwareRuns d = true) (hslice : d.cal.slice = [])
    (hidle : running d = false) (hfirst : d.cal.slices = 0) : sliceStart tie x d = connectSlice true tie x (advance 0 d) := by
  unfold sliceStart
  simp only [hpaused, hruns, hslice, hidle, hfirst, Bool.not_true, List.isEmpty_nil, Bool.or_self, Bool.false_eq_true, if_false, if_true]

/-- While a program runs no slice starts but where a meridian has planned one. -/
theorem sliceStart_unplanned {tie : List Nat} (hrun : running d = true) (hnone : d.cal.sliceAt = none) : sliceStart tie x d = d := by
  unfold sliceStart
  simp only [hrun, hnone, if_true, ite_self]

theorem sliceEnd_eq {ms : List SliceMeas} (hslice : d.cal.slice ≠ []) : sliceEnd ms x d =
    (ms.filter (fun m => d.cal.slice.contains m.port)).foldl (fun d m => sliceMeasured m d)
      { advance (d.cal.sliceRaw + 640 - d.time.raw) d with
        cal := { d.cal with slice := [], errors := ms.filter (fun m => d.cal.slice.contains m.port) } } := by
  have hempty : ¬(d.cal.slice.isEmpty = true) := by rwa [List.isEmpty_iff]
  unfold sliceEnd
  rw [if_neg hempty]
  rfl

/-- A port that is due stays as it is when others are looked at. -/
theorem noteDue_due (hwf : Store.wf {} d.core.due = true) : Store.wf {} (noteDue x d).core.due = true ∧
    ∀ p, (d.due p).due = true → (noteDue x d).due p = d.due p := by
  unfold noteDue Dev.forAll
  refine List.foldlRecOn (motive := fun e : Dev => Store.wf {} e.core.due = true ∧ ∀ p, (d.due p).due = true → e.due p = d.due p) _ _
    ⟨hwf, fun _ _ => rfl⟩ fun e he q _ => ?_
  obtain ⟨hwfe, hkept⟩ := he
  have hset (v : Due) (hq : (e.due q).due ≠ true) : Store.wf {} (e.setDue q v).core.due = true ∧
      ∀ p, (d.due p).due = true → (e.setDue q v).due p = d.due p := by
    refine ⟨Store.wf_set hwfe, fun p hp => ?_⟩
    have hne : p ≠ q := fun h => hq (by rw [← h, hkept p hp]; exact hp)
    exact (Store.get_set_other hne).trans (hkept p hp)
  beta_reduce
  extract_lets v
  split
  · exact ⟨hwfe, hkept⟩
  next hq =>
    split
    · exact hset _ hq
    · split
      · exact hset _ hq
      · exact ⟨hwfe, hkept⟩

theorem Reports.due {d e : Dev} (h : Raised d e) (p : Nat) : e.due p = d.due p := by rw [Dev.due, h.core, Dev.due]

/-- A port due for more than 60 s is reported, once. -/
theorem calStarved_due {p : Nat} (hdue : (d.due p).due = true) (hfirst : (d.due p).starved = false) (hwf : Store.wf {} d.core.due = true) :
    ((calStarved p x d).due p).starved = true ∧ (calStarved p x d).evt.pend.getLsbD 105 = true := by
  obtain ⟨hwf1, hkept⟩ := noteDue_due (x := x) hwf
  have hsame := hkept p hdue
  unfold calStarved
  generalize noteDue x d = d1 at hwf1 hsame
  simp only [hsame, hdue, hfirst, Bool.not_false, Bool.and_self, if_true]
  refine ⟨?_, event_pend_self _ _ _ (by decide)⟩
  rw [Reports.due (raised_event _ _ _ _)]
  exact congrArg Due.starved (Store.get_set_same hwf1)

/-! The rows of commits and runs. -/

/-- What a row leaves of calibration, the core and events is what its operation leaves of them. -/
theorem next_on_cal {s : State} {f : Ctx → Dev → Dev} {e : Dev} (h : f s.ctx s.dev = e) :
    ∃ t, (Host.Outcome.next (s.on f) : Host.Outcome State Fault Refusal) = .next t ∧ t.dev.cal = e.cal ∧ t.dev.core = e.core ∧
      t.dev.evt = e.evt :=
  ⟨_, next_on_writes h, rfl, rfl, rfl⟩

end

/-- Settles O51: each command and row has its own effect; a filled slot is valid because its CRC runs over what it holds, and a run's
measurements meet one setting. -/
theorem calibrationCommandsAndRows : Obligations.CalibrationCommandsAndRows := by
  intro mb h s c table ms rs tie p g other gen
  refine ⟨fun hb => cmdRow_effect hb rfl, fun hb => cmdRow_effect hb rfl, fun hb => ?_, fun hb => ⟨fun hoff => ?_, fun hon => ?_⟩,
    fun hb hview => cmdRow_effect hb ?_, fun hb => ?_, fun htable hqueue hseq => ⟨?_, ?_⟩, fun hperiod hruns => ?_, fun hon hports => ?_,
    fun hon hports hidle => ?_, fun d r fluxDc hfacets hresid => ?_,
    fun hpaused hruns hslice hidle hfirst => next_on_congr (sliceStart_idle hpaused hruns hslice hidle hfirst),
    fun hpaused hruns hslice hrun hnone hwr => next_on_eq (sliceStart_unplanned hrun hnone) hwr,
    fun hslice => next_on_congr (sliceEnd_eq hslice), fun hidle hruns => next_on_congr ?_, fun hdue hfirst hp hwf => ?_⟩
  · intro ports g1
    refine ⟨fun hempty => cmdRow_effect hb ?_, fun hsome => cmdRow_effect hb ?_⟩
    · simp only [calRunSpec, show (List.range 97).filter (fun i => bitOf (c.arg 0 13) i) = [] from hempty, List.isEmpty_nil, if_true]
    · simp only [calRunSpec, List.isEmpty_iff, show (List.range 97).filter (fun i => bitOf (c.arg 0 13) i) ≠ [] from hsome, if_false]
      rfl
  · refine cmdRow_effect hb ?_
    simp only [calAbortSpec, show (putCmd c (s.sync h).dev).cal.runOn = false from hoff, Bool.false_eq_true, if_false]
  · refine cmdRow_effect hb ?_
    simp only [calAbortSpec, show (putCmd c (s.sync h).dev).cal.runOn = true from hon, if_true]
  · simp only [calReadSpec, if_neg hview]
  · refine ⟨fun hsame => cmdRow_effect hb ?_, fun hchanged hfree => cmdRow_effect hb ?_, fun hchanged hbusy => cmdRow_effect hb ?_⟩
    · simp only [calCommitSpec, show (putCmd c (s.sync h).dev).cal.changed = false from hsame, Bool.false_eq_true, if_false]
    · simp only [calCommitSpec, show (putCmd c (s.sync h).dev).cal.changed = true from hchanged, if_true]
      exact requestCommit_none (d := putCmd c (s.sync h).dev) (some c.seq) hfree
    · simp only [calCommitSpec, show (putCmd c (s.sync h).dev).cal.changed = true from hchanged, if_true]
      exact if_pos (Option.isSome_iff_ne_none.mpr hbusy)
  · obtain ⟨t, ht, hcal, hcore, hevt⟩ := next_on_cal (endCommit_matching (x := s.ctx) htable hqueue hseq)
    refine ⟨t, ht, ?_⟩
    rw [hcal, hcore, hevt, (reports_event _ _ _ _).cal, (raised_event _ _ _ _).core]
    exact ⟨rfl, rfl, rfl, slotValid_filled rfl, ofSlot_setSlot_other _ _ _, rfl, event_pend_self _ _ _ (by decide), rfl⟩
  · obtain ⟨t, ht, hcal, hcore, hevt⟩ := next_on_cal (endCommit_failing (x := s.ctx) htable hqueue hseq)
    refine ⟨t, ht, ?_⟩
    rw [hcal, hcore, hevt, (reports_event _ _ _ _).cal, (raised_event _ _ _ _).core]
    exact ⟨rfl, rfl, rfl, rfl, rfl, ofSlot_setSlot_other _ _ _, event_pend_self _ _ _ (by decide), rfl⟩
  · intro timed
    have hrow : calTimedCommit s.ctx s.dev = if s.dev.cal.changed then requestCommit none (timed s.dev) else timed s.dev := by
      unfold calTimedCommit
      rw [if_neg (by simp [hruns, show s.dev.cal.commitS ≠ 0 from hperiod])]
      rfl
    exact ⟨fun hchanged => next_on_congr (hrow.trans (if_pos hchanged)),
      fun hsame => next_on_congr (hrow.trans (if_neg (ne_true_of_eq_false hsame)))⟩
  · refine next_on_congr ?_
    unfold calGroupEnd
    rw [if_neg (by simp [show s.dev.cal.runOn = true from hon, show s.dev.cal.runPorts ≠ [] from hports])]
    rfl
  · obtain ⟨t, ht, hcal, hcore, hevt⟩ := next_on_cal (s := s) (f := calRunEnd) rfl
    refine ⟨t, ht, ?_⟩
    rw [hcal, hcore, hevt]
    exact calRunEnd_ends hon hports hidle
  · intro m q t
    refine ⟨fun f hfacet => ?_, fun hnone => ?_⟩
    · obtain ⟨hset, hzero⟩ := applyRunMeas_taken (d := d) (fluxDc := fluxDc) hfacet
      refine ⟨?_, ?_, fun k hk => ?_⟩
      · exact (congrArg (fun st => Store.get {} st (97 * f + q)) hset).trans (Store.get_set_same hfacets)
      · exact (congrArg (fun st => Store.get {} st q) hzero).trans (Store.get_set_same hresid)
      · exact (congrArg (fun st => Store.get {} st k) hset).trans (Store.get_set_other hk)
    · obtain ⟨hkept, hset⟩ := applyRunMeas_left (d := d) (fluxDc := fluxDc) hnone
      have hself : t.resid q = r.residual (facetTrim d q r.temp) :=
        (congrArg (fun st => Store.get ({} : Resid) st q) hset).trans (Store.get_set_same hresid)
      intro u
      rw [hself]
      refine ⟨hkept, rfl, fun hkind hq => ?_, rfl, fun i hi => ?_⟩
      · have hphase : (r.residual u).phase = (arc u.phase m.phase % 2 ^ 32).toNat := if_neg (not_or.mpr ⟨hkind, hq⟩)
        rw [hphase]
        exact phase_residual _ _
      · exact (congrArg (fun st => Store.get {} st i) hset).trans (Store.get_set_other hi)
  · exact if_neg (by simp [hidle, hruns])
  · obtain ⟨t, ht, hcal, hcore, hevt⟩ := next_on_cal (s := s) (f := calStarved p) rfl
    refine ⟨t, ht, ?_⟩
    rw [Dev.due, hcore, hevt]
    exact calStarved_due hdue hfirst hwf

end Sys2Proof.Machine
end

section
/-! Capture units and groups (R339 to R352). -/

namespace Sys2Proof.Machine

section
variable {d : Dev} {x : Ctx} {u : Nat}

theorem Dev.unit_setUnit_same (h : Store.wf {} d.acq.units = true) (u : Nat) (q : CapUnit) : (d.setUnit u q).unit u = q := Store.get_set_same h

/-! Rings (R339, R340). -/

/-- A READ that the ring can have is taken. -/
theorem pollRing_taken {n : Nat} (hon : (d.acqRing n).enabled = true) (hstaged : (d.acqRing n).staged = none)
    (hfit : ((d.acqRing n).written + 2 ^ 64 - fromLe (Mem.read x.ddr ((d.acqRing n).ctrl + 64) 8)) % 2 ^ 64 ≤ (d.acqRing n).geo.length) :
    pollRing n x d = d.setAcqRing n { d.acqRing n with
      read := fromLe (Mem.read x.ddr ((d.acqRing n).ctrl + 64) 8), badRead := false } := by
  unfold pollRing
  simp only [hon, Bool.not_true, Bool.false_eq_true, if_false, if_neg (Nat.not_lt.mpr hfit), hstaged, Option.isSome_none, and_false]

/-- A READ that the ring cannot have is not taken, and reported once. -/
theorem pollRing_refused {n : Nat} (hon : (d.acqRing n).enabled = true)
    (hbad : (d.acqRing n).geo.length < ((d.acqRing n).written + 2 ^ 64 - fromLe (Mem.read x.ddr ((d.acqRing n).ctrl + 64) 8)) % 2 ^ 64) :
    pollRing n x d = let d1 := d.setAcqRing n { d.acqRing n with badRead := true }
      if (d.acqRing n).badRead then d1 else event 89 n (fromLe (Mem.read x.ddr ((d.acqRing n).ctrl + 64) 8)) d1 := by
  unfold pollRing
  simp only [hon, Bool.not_true, Bool.false_eq_true, if_false, if_pos hbad]

/-! Triggers and records (R343 to R349). -/

theorem triggerFire_edge {adc : List (BitVec 12)} (h : (d.unit u).cfg.edge = true) : triggerFire u adc x d =
    advanceTo (if adc.length / 8 = 0 then 0 else feedFrom d u / 8 + adc.length / 8 - 1)
      ((triggerValues d (d.unit u).cfg (feedFrom d u) (adc.length / 8) adc).foldl (watchOne u) (feedUnit u adc d)) := by
  unfold triggerFire
  simp only [h, if_true]

/-- A RAY-mode unit only keeps its history. -/
theorem triggerFire_ray {adc : List (BitVec 12)} (h : (d.unit u).cfg.edge = false) : triggerFire u adc x d =
    advanceTo (if adc.length / 8 = 0 then 0 else feedFrom d u / 8 + adc.length / 8 - 1) (feedUnit u adc d) := by
  unfold triggerFire
  simp only [h, Bool.false_eq_true, if_false, List.foldl_nil]

theorem unitRearm_eq (h : (d.unit u).st = .rearming) : unitRearm u x d =
    let d1 := advanceTo (((d.unit u).trig + (8 * (d.unit u).cfg.holdoff + 7 : Nat)) / 8).toNat d
    let q1 := { d.unit u with st := .armed, primed := (false, false), armedAt := 8 * d1.time.lat }
    d1.setUnit u { q1 with deadMax := max (d.unit u).deadMax q1.dead } := by
  unfold unitRearm
  exact if_neg (not_not_intro h)

/-! Triggers (R346). -/

/-- A unit with a record in progress, or waiting to be armed again, counts the trigger as missed. -/
theorem unitTrigger_missed {t8 shot : Nat} (h : (d.unit u).st = .capturing ∨ (d.unit u).st = .rearming) (hgroup : (d.unit u).cfg.group = false)
    (hfiring : (d.unit u).cfg.firing = false) : unitTrigger u t8 shot d =
      d.setUnit u { d.unit u with missed := ((d.unit u).missed + 1) % 2 ^ 64, missedNow := (d.unit u).missedNow + 1 } := by
  unfold unitTrigger missTrigger
  rcases h with h | h <;> simp only [h, hgroup, hfiring, Bool.false_eq_true, if_false, addW]

/-- An armed unit begins its record. -/
theorem unitTrigger_armed {t8 shot : Nat} (h : (d.unit u).st = .armed) (hgroup : (d.unit u).cfg.group = false)
    (hfiring : (d.unit u).cfg.firing = false) : unitTrigger u t8 shot d = beginCapture u t8 shot d.domain.dev d := by
  unfold unitTrigger
  simp only [h, hgroup, hfiring, Bool.false_eq_true, if_false]

section
variable {g : UnitCfg} (hrising : bits g.tflags.toNat 1 0 = 0)
include hrising

/-- A rising trigger that was primed fires at its level. -/
theorem watch_fires {v : Int} (hlevel : g.level ≤ v) : watch g (true, false) v = (true, (false, false)) := by
  simp [watch, hrising, hlevel]

/-- Unprimed, it is primed below its level less the hysteresis. -/
theorem watch_primes (v : Int) : watch g (false, false) v = (false, (decide (v ≤ g.level - g.hyst), false)) := by
  simp [watch, hrising]

end

/-- A unit that begins a record at `t8` of a trigger of this device (R344). -/
def CapUnit.begins (q : CapUnit) (t8 dev shot : Nat) : CapUnit :=
  { q with st := .capturing, trig := t8, origin := dev, trigRemote := false, missedRec := q.missedNow, missedNow := 0, trigShot := shot }

theorem beginCapture_unit {t8 shot : Nat} (hwf : Store.wf {} d.acq.units = true) :
    (beginCapture u t8 shot d.domain.dev d).unit u = (d.unit u).begins t8 d.domain.dev shot := by
  unfold beginCapture
  rw [Dev.unit_setUnit_same hwf]
  simp only [ne_eq, not_true, decide_false]
  rfl

/-- A record begins at its trigger's instant, with the device that gave it. -/
theorem beginCapture_records {t8 shot origin : Nat} (hwf : Store.wf {} d.acq.units = true) :
    let q := (beginCapture u t8 shot origin d).unit u
    q.st = .capturing ∧ q.trig = t8 ∧ q.origin = origin := by
  unfold beginCapture
  rw [Dev.unit_setUnit_same hwf]
  exact ⟨rfl, rfl, rfl⟩

theorem watchOne_fires {t8 : Nat} {v : Int} (hwf : Store.wf {} d.acq.units = true) (hrising : bits (d.unit u).cfg.tflags.toNat 1 0 = 0)
    (hprimed : (d.unit u).primed = (true, false)) (hlevel : (d.unit u).cfg.level ≤ v) (harmed : (d.unit u).st = .armed)
    (hgroup : (d.unit u).cfg.group = false) (hfiring : (d.unit u).cfg.firing = false) : (watchOne u d (t8, v)).unit u =
      CapUnit.begins { d.unit u with primed := (false, false) } t8 d.domain.dev (shotAt d t8) := by
  obtain ⟨d2, hd2⟩ : ∃ d2, d2 = advanceTo (t8 / 8) (d.setUnit u { d.unit u with primed := (false, false) }) := ⟨_, rfl⟩
  have hunit : d2.unit u = { d.unit u with primed := (false, false) } := by rw [hd2]; exact Dev.unit_setUnit_same hwf u _
  have hwf2 : Store.wf {} d2.acq.units = true := by rw [hd2]; exact Store.wf_set hwf
  have hdev : d2.domain.dev = d.domain.dev := by rw [hd2]; rfl
  have hshot : shotAt d2 t8 = shotAt d t8 := by rw [hd2]; rfl
  have hrow : watchOne u d (t8, v) = unitTrigger u t8 (shotAt d2 t8) d2 := by
    unfold watchOne
    simp only [hprimed, watch_fires hrising hlevel, if_true]
    rw [hd2]
  rw [hrow, unitTrigger_armed (by rw [hunit]; exact harmed) (by rw [hunit]; exact hgroup) (by rw [hunit]; exact hfiring),
    beginCapture_unit hwf2, hunit, hdev, hshot]

theorem watchOne_primes {t8 : Nat} {v : Int} (hwf : Store.wf {} d.acq.units = true) (hrising : bits (d.unit u).cfg.tflags.toNat 1 0 = 0)
    (hprimed : (d.unit u).primed = (false, false)) : (watchOne u d (t8, v)).unit u =
      { d.unit u with primed := (decide (v ≤ (d.unit u).cfg.level - (d.unit u).cfg.hyst), false) } := by
  unfold watchOne
  simp only [hprimed, watch_primes hrising, Bool.false_eq_true, if_false]
  exact Dev.unit_setUnit_same hwf u _

/-! Group arms (R351). -/

/-- A link with its first control message taken. -/
def ctrlTaken (l : Nat) (ms : List CtrlMsg) (d : Dev) : Dev := d.setLink l { d.link l with ctrlIn := ms }

section
variable {l : Nat} {m : CtrlMsg} {ms : List CtrlMsg} (hmsg : (d.link l).ctrlIn = m :: ms)
include hmsg

/-- What an answer leaves of an arm that this device is master of. -/
def MasterArm.hears (m : CtrlMsg) (a : MasterArm) : MasterArm :=
  if m.armAt = a.armAt then { a with
    replied := a.replied ||| BitVec.ofNat 16 (2 ^ m.origin)
    acks := if m.type = 3 then a.acks ||| (BitVec.ofNat 16 (2 ^ m.origin) &&& a.members) else a.acks } else a

theorem groupArmMessage_answer (htype : m.type ≠ 2) : groupArmMessage l x d =
    { ctrlTaken l ms d with acq := { d.acq with masters := d.acq.masters.map (MasterArm.hears m) } } := by
  unfold groupArmMessage
  rw [hmsg]
  exact if_neg htype

theorem groupArmMessage_other (htype : m.type = 2) (h : isMember (ctrlTaken l ms d) m.members = false ∨ m.armAt < d.time.lat) :
    groupArmMessage l x d = ctrlTaken l ms d := by
  unfold groupArmMessage
  rw [hmsg]
  refine (if_pos htype).trans (if_pos ?_)
  rcases h with h | h
  · exact .inl (by rw [Bool.not_eq_true']; exact h)
  · exact .inr h

theorem groupArmMessage_arm (htype : m.type = 2) (hmember : isMember (ctrlTaken l ms d) m.members = true) (hat : d.time.lat ≤ m.armAt) :
    groupArmMessage l x d =
      if groupReady x (ctrlTaken l ms d) && (groupFit (ctrlTaken l ms d) m.fireDelay m.cycle).1 && (groupFit (ctrlTaken l ms d) m.fireDelay m.cycle).2
      then sendCtrl { type := 3, origin := d.domain.dev, armAt := m.armAt } (waitGroup {
        waiting := true, continuous := m.continuous, count := m.count, armAt := m.armAt, fireDelay := m.fireDelay, cycle := m.cycle }
        (ctrlTaken l ms d))
      else sendCtrl { type := 4, origin := d.domain.dev, armAt := m.armAt } (ctrlTaken l ms d) := by
  unfold groupArmMessage
  rw [hmsg]
  refine (if_pos htype).trans (if_neg ?_)
  rintro (h | h)
  · rw [Bool.not_eq_true'] at h
    exact absurd (h.symm.trans hmember) (by decide)
  · exact absurd h (Nat.not_lt.mpr hat)

end

/-- With no group waiting here, ARM_AT is that of the arm this device is master of, whose command ends. -/
theorem groupArmAt_master {p : MasterArm} {c : Cmd} (hnone : d.acq.group.waiting = false) (hmasters : d.acq.masters = [p])
    (hcmd : cmdOf d p.seq = some c) (hlive : c.dead = false) : groupArmAt x d =
      okCmd c (if p.acks = p.members then 0x0700 else 0x0701) p.acks.toNat [] false
        { advanceTo p.armAt d with acq := { d.acq with masters := [] } } := by
  have hnext : nextArmAt d = some p.armAt := by simp [nextArmAt, hnone, hmasters]
  have hmasters1 : (advanceTo p.armAt d).acq.masters = [p] := hmasters
  have hnone1 : (advanceTo p.armAt d).acq.group.waiting = false := hnone
  have hstands : (fun d : Dev => if d.acq.group.waiting ∧ d.acq.group.armAt = p.armAt then armGroup d else d) (advanceTo p.armAt d) =
      advanceTo p.armAt d := if_neg fun h => absurd (hnone1.symm.trans h.1) (by decide)
  have hjournal : journal p.seq (fun d => if d.acq.group.waiting ∧ d.acq.group.armAt = p.armAt then armGroup d else d) (advanceTo p.armAt d) =
      advanceTo p.armAt d := (journal_same (congrArg sharedOf hstands)).trans hstands
  unfold groupArmAt
  rw [hnext]
  simp only [hmasters1, List.filter_cons, List.filter_nil, decide_true, if_true, hjournal, List.foldl_cons, List.foldl_nil, ne_eq, not_true,
    decide_false, Bool.false_eq_true, if_false, endMaster]
  exact endSeq_live hcmd hlive

/-- The one unit of the group that waits here is armed at ARM_AT. -/
theorem groupArmAt_unit (hwaiting : d.acq.group.waiting = true) (hmasters : d.acq.masters = []) (hunits : groupUnits d = [u])
    (hst : (d.unit u).st = .waitingGroup) (hwf : Store.wf {} d.acq.units = true) :
    let e := groupArmAt x d
    (e.unit u).st = .armed ∧ (e.unit u).left = d.acq.group.count ∧ e.acq.group.armed = true ∧ e.acq.group.waiting = false := by
  have hnext : nextArmAt d = some d.acq.group.armAt := by simp [nextArmAt, hwaiting, hmasters]
  obtain ⟨base, hbase⟩ : ∃ b : Dev, b = { advanceTo d.acq.group.armAt d with acq := { d.acq with group := { d.acq.group with
      waiting := false, armed := true, fires := [], busyUntil := 0, prevBusy := 0 } } } := ⟨_, rfl⟩
  have hwf1 : Store.wf {} base.acq.units = true := by rw [hbase]; exact hwf
  have hfilter : (groupUnits d).filter (fun v => (d.unit v).st = .waitingGroup) = [u] := by
    rw [hunits, List.filter_cons, if_pos (decide_eq_true hst), List.filter_nil]
  have harm : armGroup (advanceTo d.acq.group.armAt d) = armUnit u d.acq.group.count d.acq.group.continuous base := by
    show Dev.forAll _ ((groupUnits d).filter fun v => (d.unit v).st = .waitingGroup) _ = _
    rw [hfilter, hbase]
    rfl
  obtain ⟨ms, hrow⟩ : ∃ ms, groupArmAt x d = { armGroup (advanceTo d.acq.group.armAt d) with
      acq := { (armGroup (advanceTo d.acq.group.armAt d)).acq with masters := ms } } := by
    have hmasters1 : (advanceTo d.acq.group.armAt d).acq.masters = [] := hmasters
    have hhere : (advanceTo d.acq.group.armAt d).acq.group.waiting = true ∧
      (advanceTo d.acq.group.armAt d).acq.group.armAt = d.acq.group.armAt := ⟨hwaiting, rfl⟩
    unfold groupArmAt
    rw [hnext]
    simp only [hmasters1, List.filter_nil, List.foldl_nil, if_pos hhere]
    exact ⟨_, rfl⟩
  have hunit : (armUnit u d.acq.group.count d.acq.group.continuous base).unit u = _ := Dev.unit_setUnit_same hwf1 u _
  intro e
  have he : e = _ := hrow
  rw [harm] at he
  rw [he]
  refine ⟨congrArg CapUnit.st hunit, congrArg CapUnit.left hunit, ?_, ?_⟩
  · rw [armUnit, hbase]
    rfl
  · rw [armUnit, hbase]
    rfl

/-! Fires (R352). -/

theorem fireMessage_eq {l : Nat} {f : FireMsg} {fs : List FireMsg} (h : (d.link l).fireIn = f :: fs) :
    fireMessage l x d = takeFire f.origin f.t (d.setLink l { d.link l with fireIn := fs }) := by
  unfold fireMessage
  rw [h]

/-- The group once fire `w` has won, with those of later cycles. -/
def GroupCap.decided (g : GroupCap) (w : Nat × Nat) (later : List (Nat × Nat)) : GroupCap :=
  { g with fires := later, busyUntil := w.1 + 8 * g.cycle, prevBusy := g.busyUntil, lastT := w.1, lastOrigin := w.2 }

/-- With no other fire the winner's is the only one to record from. -/
theorem groupFireDecide_eq {w : Nat × Nat} (harmed : d.acq.group.armed = true) (hwinner : winner d.acq.group.fires = some w)
    (honly : d.acq.group.fires.erase w = []) : groupFireDecide x d =
      ({ advanceTo ((w.1 + 7) / 8 + d.acq.group.fireDelay) d with acq := { d.acq with group := d.acq.group.decided w [] } } : Dev).forAll
        (groupUnits d) fun u d => if (d.unit u).st = .armed then beginCapture u w.1 (shotAt d w.1) w.2 d else d := by
  have hnext : (if d.acq.group.armed then winner d.acq.group.fires else none) = some w := by rw [if_pos harmed, hwinner]
  unfold groupFireDecide
  simp only [hnext, honly, List.filter_nil, List.foldl_nil]
  rfl

/-- Fire `a` comes before fire `b`, or with it from no higher a device. -/
def firesFirst (a b : Nat × Nat) : Prop := a.1 < b.1 ∨ (a.1 = b.1 ∧ a.2 ≤ b.2)

theorem firesFirst_trans {a b c : Nat × Nat} (h : firesFirst a b) (g : firesFirst b c) : firesFirst a c := by
  unfold firesFirst at *
  omega

/-- Of two fires the one that comes first. -/
def firstOf (w f : Nat × Nat) : Nat × Nat := if f.1 < w.1 ∨ (f.1 = w.1 ∧ f.2 < w.2) then f else w

theorem firstOf_first (w f : Nat × Nat) : (firstOf w f = w ∨ firstOf w f = f) ∧ firesFirst (firstOf w f) w ∧ firesFirst (firstOf w f) f := by
  unfold firstOf firesFirst
  split
  · exact ⟨.inr rfl, by omega, by omega⟩
  · exact ⟨.inl rfl, by omega, by omega⟩

/-- The first of several fires, one of them given. -/
theorem foldl_firstOf (fires : List (Nat × Nat)) (a : Nat × Nat) : (fires.foldl firstOf a = a ∨ fires.foldl firstOf a ∈ fires) ∧
    firesFirst (fires.foldl firstOf a) a ∧ ∀ f ∈ fires, firesFirst (fires.foldl firstOf a) f := by
  induction fires generalizing a with
  | nil => exact ⟨.inl rfl, .inr ⟨rfl, le_rfl⟩, fun f hf => absurd hf List.not_mem_nil⟩
  | cons b rest ih =>
    obtain ⟨hmem, hfirst, hall⟩ := ih (firstOf a b)
    obtain ⟨hone, ha, hb⟩ := firstOf_first a b
    rw [List.foldl_cons]
    refine ⟨?_, firesFirst_trans hfirst ha, fun f hf => ?_⟩
    · rcases hmem with h | h
      · rcases hone with ho | ho
        · exact .inl (h.trans ho)
        · exact .inr (by rw [h, ho]; exact List.mem_cons_self)
      · exact .inr (List.mem_cons_of_mem _ h)
    · rcases List.mem_cons.mp hf with rfl | hf
      · exact firesFirst_trans hfirst hb
      · exact hall f hf

theorem winner_cons_cons (a b : Nat × Nat) (rest : List (Nat × Nat)) : winner (a :: b :: rest) = winner (firstOf a b :: rest) := by
  have hfirst : (if b.1 < a.1 ∨ (b.1 = a.1 ∧ b.2 < a.2) then some b else some a) = some (firstOf a b) := by
    unfold firstOf
    split <;> rfl
  exact congrArg (fun m => List.foldl _ m rest) hfirst

/-- The winner is the first of the fires. -/
theorem winner_cons (a : Nat × Nat) (rest : List (Nat × Nat)) : winner (a :: rest) = some (rest.foldl firstOf a) := by
  induction rest generalizing a with
  | nil => rfl
  | cons b rest ih => rw [winner_cons_cons, ih, List.foldl_cons]

/-- The fire that wins is one of them, and none comes before it; of two at one instant it is that of the lower device. -/
theorem winner_least {fires : List (Nat × Nat)} {w : Nat × Nat} (h : winner fires = some w) : w ∈ fires ∧ ∀ f ∈ fires, firesFirst w f := by
  cases fires with
  | nil => exact absurd h nofun
  | cons a rest =>
    rw [winner_cons] at h
    obtain rfl := Option.some.inj h
    obtain ⟨hmem, hfirst, hall⟩ := foldl_firstOf rest a
    refine ⟨?_, fun f hf => ?_⟩
    · rcases hmem with h | h
      · exact List.mem_cons.mpr (.inl h)
      · exact List.mem_cons_of_mem _ h
    · rcases List.mem_cons.mp hf with rfl | hf
      · exact hfirst
      · exact hall f hf

/-- What a row leaves of the acquisition engine is what its operation leaves of it. -/
theorem next_on_acq {s : State} {f : Ctx → Dev → Dev} {e : Dev} (h : f s.ctx s.dev = e) :
    ∃ t, (Host.Outcome.next (s.on f) : Host.Outcome State Fault Refusal) = .next t ∧ t.dev.acq = e.acq :=
  ⟨_, next_on_writes h, rfl⟩

end

/-- Settles O50: each row goes by the state of its ring, unit or group; the winner of the fires is their first. -/
theorem captureAndGroupRows : Obligations.CaptureAndGroupRows := by
  refine ⟨fun n u l h adc m ms p f fs w c s hwr => ?_, fun u d t8 v shot hwf => ⟨fun hrising hprimed hlevel harmed hgroup hfiring =>
    watchOne_fires hwf hrising hprimed hlevel harmed hgroup hfiring, fun hrising hprimed => watchOne_primes hwf hrising hprimed,
    fun hst hgroup hfiring => unitTrigger_missed hst hgroup hfiring⟩, fun fires w hw => winner_least hw⟩
  intro r q g read
  refine ⟨fun hon hfit hstaged => next_on_eq (s := s.sync h) (pollRing_taken hon hstaged hfit) hwr,
    fun hon hbad => next_on_congr (s := s.sync h) (pollRing_refused hon hbad), ?_⟩
  intro ticks from_ until_
  refine ⟨fun hedge => next_on_congr (triggerFire_edge hedge), fun hray => next_on_congr (triggerFire_ray hray),
    fun hst => next_on_congr (if_neg (not_not_intro hst)), fun hst => next_on_eq (unitRearm_eq hst) hwr, ?_⟩
  intro taken fit reply
  refine ⟨fun hmsg htype => next_on_eq (groupArmMessage_answer hmsg htype) hwr,
    fun hmsg htype hother => next_on_eq (groupArmMessage_other hmsg htype hother) hwr, fun hmsg htype hmember hat hbad => ?_,
    fun hmsg htype hmember hat hfit => ?_, fun hnone hmasters hcmd hlive => next_on_congr (groupArmAt_master hnone hmasters hcmd hlive),
    fun hwaiting hmasters hunits hst hwf => ?_, fun hmsg => next_on_congr (fireMessage_eq hmsg), fun harmed hwinner honly hunits => ?_,
    fun harmed hwinner honly hunits hst hwf => ?_⟩
  · exact next_on_congr ((groupArmMessage_arm hmsg htype hmember hat).trans (if_neg (ne_true_of_eq_false hbad)))
  · exact next_on_congr ((groupArmMessage_arm hmsg htype hmember hat).trans (if_pos hfit))
  · obtain ⟨t, ht, hacq⟩ := next_on_acq (s := s) (f := groupArmAt) rfl
    refine ⟨t, ht, ?_⟩
    rw [Dev.unit, hacq]
    exact groupArmAt_unit hwaiting hmasters hunits hst hwf
  · refine next_on_eq ((groupFireDecide_eq harmed hwinner honly).trans ?_) hwr
    rw [hunits]
    rfl
  · have honly1 : g.fires.erase w = [] := by rw [honly, List.erase_cons_head]
    have hrow := groupFireDecide_eq (x := s.ctx) harmed hwinner honly1
    rw [hunits] at hrow
    obtain ⟨t, ht, hacq⟩ := next_on_acq (hrow.trans (if_pos hst))
    refine ⟨t, ht, ?_⟩
    rw [Dev.unit, hacq]
    exact beginCapture_records hwf

end Sys2Proof.Machine
end

section
/-! A plug-sense reading of a port for which the table of ports holds two entries (R432): such a table is not canonical. -/

namespace Sys2Proof.Machine

/-- Drive port 0 has two entries: the one that is read, with a last sense code of 1, and behind it one whose unplug may end. -/
def portTwice : State := { dev := {
  ports := [(0, { lastSense := 1 }), (0, { causes := [.unplug], sense := 2, resumed := true })] } }

/-- The device after the reading alone: its code is noted as the port's last. -/
def readingNoted : State := portTwice.on fun _ d =>
  let d1 := settlePort 0 (paced (.sense 0) d)
  d1.setPort 0 { d1.port 0 with lastSense := 0 }

/-- The entering causes of port 0. -/
def causesOf0 (s : State) : List SafeCause := (s.dev.port 0).causes

/-- Noting code 0 makes the first entry the default, which goes: the second is read from then on, and its unplug stands. -/
theorem causesOf0_readingNoted : causesOf0 readingNoted = [.unplug] := by decide

/-- The row goes on to end that unplug. -/
theorem causesOf0_plugSenseTest : causesOf0 (portTwice.on (plugSenseTest 0 0)) = [] := by decide

/-- Refutes O55: what it says of a reading that differs from the last one lacks the hypothesis, which it makes of the second equal reading,
that the table of ports is canonical. Of a port with two entries the reading can uncover one whose unplug may end, and the row ends it,
where the statement has the code noted and no more. -/
theorem not_markerAndBenchRows : ¬ Obligations.MarkerAndBenchRows := by
  intro h
  obtain ⟨-, -, -, -, -, -, -, -, -, -, -, -, hplug, -⟩ :=
    h 0 {} portTwice {} 0 0 0 0 0 0 0 0 0 { item := { kind := .play }, start128 := 0, vec := 0, rep := 0, at128 := 0 } 0 0
  obtain ⟨hfirst, -⟩ := hplug (by decide) (by decide) (by decide) (by decide) (by decide) (by decide)
  have hrow : portTwice.on (plugSenseTest 0 0) = readingNoted := Host.Outcome.next.inj (hfirst (by decide))
  have hcauses := congrArg causesOf0 hrow
  rw [causesOf0_plugSenseTest, causesOf0_readingNoted] at hcauses
  cases hcauses

end Sys2Proof.Machine
end

section
/-! What a takeover leaves as it stands (R475, R476): the port plane, brought up to now and emptied, keeps what the two cores share. -/

namespace Sys2Proof.Machine

/-- Of the device: what the items that a takeover discards, and the ports that it holds, leave as it stands. -/
structure Standing where
  hif : Hif
  time : Time
  mirror : Mirror
  env : Store (BitVec 32)
  pages : Store (Option (List Nat))
  vectors : Store MkVector
  tsets : Store TSet
  slots : CalSlot × CalSlot
  stores : Store Entry
  committing : Option (Store Entry)
  images : Images

def standing (d : Dev) : Standing where
  hif := d.hif
  time := d.time
  mirror := d.mirror
  env := d.env
  pages := d.pages
  vectors := d.marker.vectors
  tsets := d.marker.tsets
  slots := d.cal.slots
  stores := d.cal.stores
  committing := d.cal.committing
  images := d.images

/-- From `d` to `e` all that stands, and no ring has another configuration. -/
structure KeepsStanding (d e : Dev) : Prop where
  standing : standing e = standing d
  rises : d.acq.rings.Rises → e.acq.rings.Rises
  plan : d.acq.rings.Rises → ∀ n, (e.acqRing n).plan = (d.acqRing n).plan

section
variable {d e f : Dev}

theorem KeepsStanding.of_rings (h : Machine.standing e = Machine.standing d) (hrings : e.acq.rings = d.acq.rings) : KeepsStanding d e where
  standing := h
  rises hd := hrings ▸ hd
  plan _ n := by rw [Dev.acqRing, hrings, Dev.acqRing]

theorem KeepsStanding.refl (d : Dev) : KeepsStanding d d := .of_rings rfl rfl

theorem KeepsStanding.trans (h : KeepsStanding d e) (g : KeepsStanding e f) : KeepsStanding d f where
  standing := g.standing.trans h.standing
  rises := g.rises ∘ h.rises
  plan hd n := (g.plan (h.rises hd) n).trans (h.plan hd n)

/-- A step after an update of other fields. -/
theorem KeepsStanding.after (g : KeepsStanding e f) (h : Machine.standing e = Machine.standing d) (hrings : e.acq.rings = d.acq.rings) :
    KeepsStanding d f := .trans (.of_rings h hrings) g

theorem KeepsStanding.ite {p : Prop} [Decidable p] (he : KeepsStanding d e) (hf : KeepsStanding d f) :
    KeepsStanding d (if p then e else f) := by
  split
  · exact he
  · exact hf

theorem keepsStanding_foldl {α : Type} (g : Dev → α → Dev) (hg : ∀ d a, KeepsStanding d (g d a)) (xs : List α) (d : Dev) :
    KeepsStanding d (xs.foldl g d) :=
  List.foldlRecOn (motive := KeepsStanding d) xs g (.refl d) fun _ h a _ => h.trans (hg _ a)

theorem keepsStanding_forAll (g : Nat → Dev → Dev) (hg : ∀ n d, KeepsStanding d (g n d)) (ns : List Nat) (d : Dev) :
    KeepsStanding d (d.forAll ns g) := keepsStanding_foldl _ (fun d n => hg n d) ns d

theorem Raised.keepsStanding (h : Raised d e) : KeepsStanding d e := .of_rings (by rw [h.frame]; rfl) (by rw [h.frame])

theorem SettledOnly.keepsStanding (h : SettledOnly d e) (hcal : (e.cal.slots, e.cal.stores, e.cal.committing) =
    (d.cal.slots, d.cal.stores, d.cal.committing)) : KeepsStanding d e := by
  simp only [Prod.mk.injEq] at hcal
  obtain ⟨hslots, hstores, hcommitting⟩ := hcal
  refine .of_rings ?_ (by rw [h])
  unfold Machine.standing
  rw [hslots, hstores, hcommitting, h]

end

/-- The store of calibration, and what is being written to it. -/
def calStore (d : Dev) : (CalSlot × CalSlot) × Store Entry × Option (Store Entry) := (d.cal.slots, d.cal.stores, d.cal.committing)

/-! A port brought up to now (R155, R168, R170, R366) leaves the calibration store. -/

theorem calStore_countClip (i at16 : Nat) (d : Dev) : calStore (countClip i at16 d) = calStore d := by
  unfold countClip
  split
  · rfl
  · dsimp only
    split
    · rfl
    · rfl

theorem calStore_countClipsTo (to16 i : Nat) (d : Dev) : calStore (countClipsTo to16 i d) = calStore d := by
  have hfold (ns : List Nat) : calStore (ns.foldl (fun d n => countClip i n d) d) = calStore d :=
    List.foldlRecOn (motive := fun e : Dev => calStore e = calStore d) ns _ rfl fun e he n _ => (calStore_countClip i n e).trans he
  unfold countClipsTo
  extract_lets spans from16 until16 d1
  have h1 : calStore d1 = calStore d := by
    show calStore (if _ then _ else _) = _
    split
    · exact hfold _
    · rfl
  exact h1

theorem calStore_takeTrims (p : Nat) (d : Dev) : calStore (takeTrims p d) = calStore d := by
  have hput (t : Trim) (e : Dev) : calStore (putTrim p t e) = calStore e := by
    unfold putTrim
    dsimp only
    split
    · rfl
    · rfl
  unfold takeTrims
  split
  · rfl
  · extract_lets at16 d1
    have h1 : calStore d1 = calStore d := by
      show calStore (if _ then _ else _) = _
      split
      · exact calStore_countClipsTo _ _ d
      · rfl
    split
    · rfl
    · exact (hput _ _).trans h1

theorem calStore_settlePort (i : Nat) (d : Dev) : calStore (settlePort i d) = calStore d := by
  have hbusy : calStore (noteBusy i d) = calStore d := by
    unfold noteBusy
    extract_lets s ago ts p
    split
    · rfl
    · rfl
  have hunder (t : Tok) (e : Dev) : calStore (countUnderrun i t e) = calStore e := by
    unfold countUnderrun
    dsimp only
    split
    · rfl
    · rfl
  unfold settlePort
  split
  · exact (calStore_takeTrims i _).trans hbusy
  · extract_lets d1 stage1 d2 s ended
    have h1 : calStore d1 = calStore d :=
      List.foldlRecOn (motive := fun e : Dev => calStore e = calStore d) _ _ hbusy fun e he t _ => (hunder t e).trans he
    have h2 : calStore d2 = calStore d1 := (calStore_countClipsTo _ i _).trans (calStore_takeTrims i _)
    exact h2.trans h1

theorem keepsStanding_settlePort (i : Nat) (d : Dev) : KeepsStanding d (settlePort i d) :=
  (settledOnly_settlePort i d).keepsStanding (calStore_settlePort i d)

theorem keepsStanding_settlePorts (d : Dev) : KeepsStanding d (settlePorts d) := keepsStanding_forAll _ keepsStanding_settlePort _ d

/-! Items discarded (R135, R136, R262, R264, R309 to R313). -/

theorem keepsStanding_event (src inst arg : Nat) (d : Dev) : KeepsStanding d (event src inst arg d) := (raised_event src inst arg d).keepsStanding

/-- A ring written keeps its configuration where what is written of it does. -/
theorem keepsStanding_setAcqRing {d : Dev} {n : Nat} {r : AcqRing} (h : r.plan = (d.acqRing n).plan) : KeepsStanding d (d.setAcqRing n r) where
  standing := rfl
  rises hd := hd.set n r
  plan hd k := by
    by_cases hk : k = n
    · subst hk
      exact (congrArg AcqRing.plan (hd.get_set_same k r)).trans h
    · exact congrArg AcqRing.plan (Store.get_set_other hk)

theorem keepsStanding_offerResult (ring : Nat) (o : Offer) (d : Dev) : KeepsStanding d (offerResult ring o d) := by
  unfold offerResult
  split
  · exact keepsStanding_setAcqRing rfl
  · split
    · exact keepsStanding_event _ _ _ d
    · extract_lets r d1
      have h1 : KeepsStanding d d1 := .of_rings rfl rfl
      exact .ite h1 (h1.trans ((keepsStanding_event _ _ _ _).after rfl rfl))

theorem keepsStanding_sendChord (slow : Bool) (chan ord shot : Nat) (st : Option (BitVec 2)) (d : Dev) :
    KeepsStanding d (sendChord slow chan ord shot st d) := by
  unfold sendChord
  refine .ite (.refl d) ?_
  extract_lets c n d1
  have hexport (e : Dev) : KeepsStanding e (exportChord c e) := by
    refine keepsStanding_foldl _ (fun e l => ?_) _ e
    exact .ite (.of_rings rfl rfl) (.refl e)
  exact (hexport _).after rfl rfl

theorem keepsStanding_discardItem (cause : Nat) (t : Tok) (d : Dev) : KeepsStanding d (discardItem cause t d) := by
  have hwindow (e : Dev) : KeepsStanding e (discardedWindow t cause e) := by
    unfold discardedWindow
    extract_lets c cfg v fine flags o p d1
    have h1 : KeepsStanding e d1 := .of_rings rfl rfl
    exact (h1.trans (keepsStanding_offerResult _ _ _)).trans (keepsStanding_sendChord _ _ _ _ _ _)
  unfold discardItem
  extract_lets noPort v fine came arg inst failInst d1 f d2
  have h1 : KeepsStanding d d1 := (raised_raise _ d).keepsStanding
  have h2 : KeepsStanding d1 d2 := .of_rings rfl rfl
  exact .ite ((h1.trans h2).trans (hwindow _)) (h1.trans h2)

theorem keepsStanding_discardAll (cause : Nat) (ts : List Tok) (d : Dev) : KeepsStanding d (discardAll cause ts d) :=
  keepsStanding_foldl _ (fun d t => keepsStanding_discardItem cause t d) ts d

theorem keepsStanding_flushStage (cause : Nat) (playing : Bool) (stage : Nat) (d : Dev) : KeepsStanding d (flushStage cause playing stage d) := by
  unfold flushStage
  extract_lets d1 s out
  exact (keepsStanding_settlePort stage d).trans ((keepsStanding_discardAll _ _ _).after rfl rfl)

theorem keepsStanding_flushFabric (cause : Nat) (d : Dev) : KeepsStanding d (flushFabric cause d) := by
  unfold flushFabric
  obtain ⟨fs, ts, h⟩ := applyFrames_frame (fun _ => true) d
  rw [h]
  exact (keepsStanding_discardAll _ _ _).after rfl rfl

theorem keepsStanding_settleMark (d : Dev) : KeepsStanding d (settleMark d) := by
  have hdrive : KeepsStanding d (drivePins d) := by
    unfold drivePins drivePinsTo
    split
    · exact .refl d
    · exact .of_rings rfl rfl
  have hfinish (e : Dev) : KeepsStanding e (finishMark e) := by
    unfold finishMark
    split
    · exact .refl e
    · exact .ite (.of_rings rfl rfl) ((keepsStanding_event _ _ _ _).after rfl rfl)
  unfold settleMark
  split
  · exact .refl d
  · exact .ite (hdrive.trans (hfinish _)) hdrive

theorem keepsStanding_discardEverything (x : Ctx) (d : Dev) : KeepsStanding d (discardEverything x d) := by
  unfold discardEverything
  extract_lets d1 d2
  have h1 : KeepsStanding d d1 := (keepsStanding_settlePorts d).trans (keepsStanding_settleMark _)
  have h2 : KeepsStanding d1 d2 := (keepsStanding_flushFabric _ d1).trans (keepsStanding_forAll _ (keepsStanding_flushStage _ _) _ _)
  split
  · exact h1.trans h2
  · exact (h1.trans h2).trans ((keepsStanding_discardItem _ _ _).after rfl rfl)

theorem keepsStanding_holdPorts (x : Ctx) (d : Dev) : KeepsStanding d (holdPorts x d) := by
  refine keepsStanding_foldl _ (fun d i => ?_) _ d
  dsimp only
  split
  · exact .of_rings rfl rfl
  · exact .refl d

/-! Calibration's slice and run (R380, R386). -/

theorem keepsStanding_loopOut (ports : List Nat) (d : Dev) : KeepsStanding d (loopOut ports d) := by
  refine keepsStanding_foldl _ (fun _ _ => ?_) _ d
  exact .of_rings rfl rfl

theorem keepsStanding_abandonSlice (d : Dev) : KeepsStanding d (abandonSlice d) :=
  (keepsStanding_loopOut _ d).trans (.of_rings rfl rfl)

theorem keepsStanding_endCalRun (cause : Nat) (d : Dev) : KeepsStanding d (endCalRun cause d) := by
  unfold endCalRun
  extract_lets d1
  have h1 : KeepsStanding d d1 := keepsStanding_loopOut _ d
  exact .ite (.refl d) (h1.trans ((raised_raise _ _).keepsStanding.after rfl rfl))

end Sys2Proof.Machine
end

section
/-! What undoing leaves of the mirror core and of the envelope store (R80, R85, R89; log entry 106). -/

namespace Sys2Proof.Machine

/-- Between `d` and `e` the mirror core's state and the envelope store stand. -/
structure SparesEnv (d e : Dev) : Prop where
  mirror : e.mirror = d.mirror
  env : e.env = d.env

section
variable {d e f : Dev}

theorem SparesEnv.refl (d : Dev) : SparesEnv d d := ⟨rfl, rfl⟩

theorem SparesEnv.trans (h : SparesEnv d e) (g : SparesEnv e f) : SparesEnv d f := ⟨g.mirror.trans h.mirror, g.env.trans h.env⟩

/-- A step after an update of other fields. -/
theorem SparesEnv.after (g : SparesEnv e f) (hmirror : e.mirror = d.mirror) (henv : e.env = d.env) : SparesEnv d f := .trans ⟨hmirror, henv⟩ g

theorem SparesEnv.ite {p : Prop} [Decidable p] (he : SparesEnv d e) (hf : SparesEnv d f) : SparesEnv d (if p then e else f) := by
  split
  · exact he
  · exact hf

theorem sparesEnv_foldl {α : Type} (g : Dev → α → Dev) (hg : ∀ d a, SparesEnv d (g d a)) (xs : List α) (d : Dev) : SparesEnv d (xs.foldl g d) :=
  List.foldlRecOn (motive := SparesEnv d) xs g (.refl d) fun _ h a _ => h.trans (hg _ a)

theorem KeepsStanding.sparesEnv (h : KeepsStanding d e) : SparesEnv d e := ⟨congrArg Standing.mirror h.standing, congrArg Standing.env h.standing⟩

theorem LinksOnly.sparesEnv (h : LinksOnly d e) : SparesEnv d e := ⟨by rw [h], by rw [h]⟩

end

theorem sparesEnv_loadLattice (value : Nat) (d : Dev) : SparesEnv d (loadLattice value d) := by
  have hmeas : SparesEnv d (endMeas Cause.loaded d) := by
    unfold endMeas
    split
    · exact .refl d
    · exact (raised_raise _ _).keepsStanding.sparesEnv.after rfl rfl
  have h1 : SparesEnv d (settleMark (settlePorts (endMeas Cause.loaded d))) :=
    hmeas.trans ((keepsStanding_settlePorts _).trans (keepsStanding_settleMark _)).sparesEnv
  unfold loadLattice
  generalize settleMark (settlePorts (endMeas Cause.loaded d)) = e at h1 ⊢
  exact h1.trans ((keepsStanding_event 63 0xFFFF 0 _).sparesEnv.after rfl rfl)

theorem sparesEnv_configLink (l : Nat) (en idle : Bool) (codes : List Nat) (d : Dev) : SparesEnv d (configLink l en idle codes d) := by
  have hidle (e : Dev) : SparesEnv e (goIdle l e) := by
    unfold goIdle
    extract_lets d1
    have hlink : LinksOnly (advanceTo (frameBoundary e) e) d1 :=
      ((linksOnly_stopTimed l _).trans (linksOnly_loseParent l _)).trans (linksOnly_flushCrc l _)
    exact (hlink.trans (linksOnly_setLink _ _ d1)).sparesEnv.after rfl rfl
  unfold configLink
  extract_lets link d1 k
  have h1 : SparesEnv d d1 := ⟨rfl, rfl⟩
  refine h1.trans (.ite ?_ (.ite ?_ (.ite (.refl d1) (.ite (.ite ⟨rfl, rfl⟩ (hidle d1)) (.ite ⟨rfl, rfl⟩ (.refl d1))))))
  · exact (((linksOnly_leaveActive l d1).trans (linksOnly_enterStage l 0 _)).trans
      (linksOnly_endTrains l (fun c d => (reports_failCmd c _ d).linksOnly) _)).sparesEnv
  · exact ((linksOnly_enterStage l 1 _).after (linksOnly_setLink _ _ d1)).sparesEnv

/-! The parts of one undoing. -/

theorem sparesEnv_undoRef (b a : Bool × Bool) (d : Dev) : SparesEnv d (undoRef b a d) :=
  .ite ⟨rfl, rfl⟩ ((keepsStanding_event _ _ _ _).sparesEnv.after rfl rfl)

theorem sparesEnv_undoLoad (b a : Nat × Nat) (d : Dev) : SparesEnv d (undoLoad b a d) := by
  unfold undoLoad
  refine .ite (.refl d) ?_
  extract_lets d1
  have h1 : SparesEnv d d1 := sparesEnv_loadLattice _ d
  clear_value d1
  exact h1.trans ⟨rfl, rfl⟩

theorem sparesEnv_undoGen (n : Nat) (b a : WallGen) (d : Dev) : SparesEnv d (undoGen n b a d) := by
  have huse (n k : Nat) (e : Dev) : SparesEnv e (useTargets n k e) := by
    unfold useTargets
    exact .ite ⟨rfl, rfl⟩ (.ite ⟨rfl, rfl⟩ ⟨rfl, rfl⟩)
  have hskip (w n : Nat) (e : Dev) : SparesEnv e (skipTargets w n e) := .ite (.refl e) ((huse _ _ _).after rfl rfl)
  exact .ite ((hskip _ _ _).after rfl rfl) (.refl d)

theorem sparesEnv_undoRing (n : Nat) (b a : AcqRing) (d : Dev) : SparesEnv d (undoRing n b a d) := .ite (.refl d) (.ite ⟨rfl, rfl⟩ ⟨rfl, rfl⟩)

theorem sparesEnv_undoLink (l : Nat) (b a : LinkSet) (d : Dev) : SparesEnv d (undoLink l b a d) :=
  .ite ((sparesEnv_configLink _ _ _ _ _).after rfl rfl) ⟨rfl, rfl⟩

theorem sparesEnv_undoDomain (b a : Domain) (d : Dev) : SparesEnv d (undoDomain b a d) := by
  unfold undoDomain
  exact .ite (.refl d) (.ite ⟨rfl, rfl⟩ ((linksOnly_retrainActive _).sparesEnv.after rfl rfl))

theorem sparesEnv_forChanged {α : Type} [DecidableEq α] (dflt : α) (b a : Store α) {put : Nat → α → α → Dev → Dev}
    (hput : ∀ k b a d, SparesEnv d (put k b a d)) (d : Dev) : SparesEnv d (forChanged dflt b a put d) :=
  sparesEnv_foldl _ (fun d k => hput k _ _ d) _ d

/-- One undoing is that of its fields, and then of what it does by operations that spare mirror core and envelope store. -/
theorem sparesEnv_undoOne (u : Undo) (d : Dev) : SparesEnv (undoFields u.before u.after d) (undoOne u d) := by
  unfold undoOne
  extract_lets b a d1 d2 d3 d4 d5
  have h1 : SparesEnv (undoFields b a d) d1 := (sparesEnv_undoLoad _ _ _).trans (sparesEnv_undoRef _ _ _)
  have h2 : SparesEnv d1 d2 := (sparesEnv_forChanged _ _ _ (put := undoChan) (fun _ _ _ _ => ⟨rfl, rfl⟩) _).trans
    (sparesEnv_forChanged _ _ _ (put := undoPort) (fun _ _ _ _ => ⟨rfl, rfl⟩) _)
  have h3 : SparesEnv d2 d3 := (sparesEnv_forChanged _ _ _ (put := undoUnit) (fun _ _ _ _ => ⟨rfl, rfl⟩) _).trans
    (sparesEnv_forChanged _ _ _ sparesEnv_undoRing _)
  have h4 : SparesEnv d3 d4 := (sparesEnv_undoDomain _ _ _).trans (sparesEnv_forChanged _ _ _ sparesEnv_undoLink _)
  have h5 : SparesEnv d4 d5 := (sparesEnv_forChanged _ _ _ sparesEnv_undoGen _).trans
    (sparesEnv_forChanged _ _ _ (put := undoInput) (fun _ _ _ _ => ⟨rfl, rfl⟩) _)
  have h6 := (sparesEnv_forChanged (0, 0) b.rails a.rails (put := undoRail) (fun _ _ _ d => .ite (.refl d) ⟨rfl, rfl⟩) d5).trans
    (sparesEnv_forChanged (1360, 10080) b.diodes a.diodes (put := undoDiode) (fun _ _ _ _ => ⟨rfl, rfl⟩) _)
  exact ((((h1.trans h2).trans h3).trans h4).trans h5).trans (h6.trans ⟨rfl, rfl⟩)

/-! The mirror core after commands are undone. -/

/-- Of the mirror core's state nothing differs but the journal and what MIR_CONFIG sets. -/
def UndoneMirror (d e : Dev) : Prop :=
  e.mirror = { d.mirror with undo := e.mirror.undo, takeover := e.mirror.takeover, shadow := e.mirror.shadow, autoRecover := e.mirror.autoRecover }

theorem UndoneMirror.trans {d e f : Dev} (h : UndoneMirror d e) (g : UndoneMirror e f) : UndoneMirror d f := by
  unfold UndoneMirror at *
  rw [g, h]

theorem undoneMirror_undoCommands (gone : Nat → Bool) (d : Dev) : UndoneMirror d (undoCommands gone d) := by
  have hone (u : Undo) (e : Dev) : UndoneMirror e (undoOne u e) := by
    have h := (sparesEnv_undoOne u e).mirror
    unfold UndoneMirror
    rw [h]
    rfl
  have hstart : UndoneMirror d { d with mirror := { d.mirror with undo := d.mirror.undo.filter (fun u => !gone u.seq) } } := rfl
  unfold undoCommands
  extract_lets out
  have hfold := List.foldlRecOn (motive := UndoneMirror d) out (fun d u => undoOne u d) hstart fun _ h u _ => h.trans (hone u _)
  exact hfold

/-! The envelope store after one command is undone. -/

theorem Store.get_of_not_mem {α : Type} {dflt : α} {m : Store α} {k : Nat} (h : k ∉ m.map Prod.fst) : Store.get dflt m k = dflt := by
  induction m with
  | nil => rfl
  | cons p rest ih =>
    obtain ⟨hne, hrest⟩ := not_or.mp (fun hk => h (List.mem_cons.mpr hk))
    rw [Store.get, if_neg hne, ih hrest]

section
variable {α : Type} [DecidableEq α] {dflt : α}

/-- One entry taken back, of key `k`. -/
def backEntry (dflt : α) (b a : Store α) (k : Nat) (c : α) : α :=
  if Store.get dflt b k = Store.get dflt a k then c else back (Store.get dflt b k) (Store.get dflt a k) c

theorem backEntry_idem (b a : Store α) (k : Nat) (c : α) : backEntry dflt b a k (backEntry dflt b a k c) = backEntry dflt b a k c := by
  unfold backEntry back
  by_cases hba : Store.get dflt b k = Store.get dflt a k
  · simp [hba]
  · by_cases hca : c = Store.get dflt a k
    · simp [hba, hca]
    · simp [hca]

/-- An entry of a table taken back is what it was before, where nothing has written it since. -/
theorem get_backStore {b a c : Store α} (h : Store.wf dflt c = true) (k : Nat) :
    Store.get dflt (backStore dflt b a c) k = backEntry dflt b a k (Store.get dflt c k) := by
  have hstep (s : Store α) (j : Nat) (hs : s.Rises) :
      let s1 := if Store.get dflt b j = Store.get dflt a j then s
        else Store.set dflt s j (back (Store.get dflt b j) (Store.get dflt a j) (Store.get dflt s j))
      s1.Rises ∧ Store.get dflt s1 k = if k = j then backEntry dflt b a k (Store.get dflt s k) else Store.get dflt s k := by
    intro s1
    by_cases hsame : Store.get dflt b j = Store.get dflt a j
    · have hs1 : s1 = s := if_pos hsame
      rw [hs1]
      refine ⟨hs, ?_⟩
      split
      next hk => rw [backEntry, hk, if_pos hsame]
      next => rfl
    · have hs1 : s1 = Store.set dflt s j (back (Store.get dflt b j) (Store.get dflt a j) (Store.get dflt s j)) := if_neg hsame
      rw [hs1]
      refine ⟨hs.set j _, ?_⟩
      split
      next hk => rw [backEntry, hk, if_neg hsame, hs.get_set_same]
      next hk => exact Store.get_set_other hk
  have hfold (js : List Nat) (s : Store α) (hs : s.Rises) : Store.get dflt (js.foldl (fun s j =>
      if Store.get dflt b j = Store.get dflt a j then s
      else Store.set dflt s j (back (Store.get dflt b j) (Store.get dflt a j) (Store.get dflt s j))) s) k =
        if k ∈ js then backEntry dflt b a k (Store.get dflt s k) else Store.get dflt s k := by
    induction js generalizing s with
    | nil => simp
    | cons j js ih =>
      obtain ⟨hs1, hget⟩ := hstep s j hs
      rw [List.foldl_cons, ih _ hs1, hget]
      by_cases hkj : k = j
      · simp [hkj, backEntry_idem]
      · simp [hkj]
  unfold backStore
  rw [hfold _ _ (Store.rises_of_wf h)]
  split
  next => rfl
  next hnot =>
    rw [List.map_append, List.mem_append, not_or] at hnot
    rw [backEntry, Store.get_of_not_mem hnot.1, Store.get_of_not_mem hnot.2, if_pos rfl]

end

/-- A word of the envelope store, once the one command of the journal that has changed it is undone. -/
theorem undoCommands_word {gone : Nat → Bool} {u : Undo} {d : Dev} (hundo : d.mirror.undo = [u]) (hgone : gone u.seq = true)
    (hwf : Store.wf 0 d.env = true) (a : Nat) :
    let word (st : Store (BitVec 32)) : BitVec 32 := Store.get 0 st a
    word (undoCommands gone d).env =
      if word u.before.env ≠ word u.after.env ∧ word d.env = word u.after.env then word u.before.env else word d.env := by
  intro word
  have henv : (undoCommands gone d).env = backStore 0 u.before.env u.after.env d.env := by
    unfold undoCommands
    rw [hundo, List.filter_singleton, hgone, List.filter_singleton, hgone]
    exact (sparesEnv_undoOne u _).env
  rw [henv, show word (backStore 0 u.before.env u.after.env d.env) = _ from get_backStore hwf a]
  show (if word u.before.env = word u.after.env then word d.env
    else if word d.env = word u.after.env then word u.before.env else word d.env) = _
  by_cases hsame : word u.before.env = word u.after.env
  · simp [hsame]
  · simp [hsame]

end Sys2Proof.Machine
end

section
/-! The standby's states, and the takeover (R472, R473, R475, R476, R479). -/

namespace Sys2Proof.Machine

theorem Reports.mirror {d e : Dev} (h : Reports d e) : e.mirror = d.mirror := by rw [h.1]
theorem Reports.run {d e : Dev} (h : Reports d e) : e.core.run = d.core.run := by rw [h.1]

/-! The standby enters a state. -/

/-- Between `d` and `e` the standby has entered some state: of the mirror core's state only that and its self-test's passes differ, of the
device besides only REDUND and reports, and no pending bit is lost. -/
structure MovesStandby (d e : Dev) : Prop where
  mirror : e.mirror = { d.mirror with standby := e.mirror.standby, bistPasses := e.mirror.bistPasses, bistFrom := e.mirror.bistFrom,
                                      bistRest := e.mirror.bistRest }
  frame : e = { d with hif := { d.hif with redund := e.hif.redund }, mirror := e.mirror, mbs := e.mbs, evt := e.evt, ledger := e.ledger,
                       wr := e.wr, freeCtr := e.freeCtr, core := { d.core with cmds := e.core.cmds } }
  pend : ∀ n, d.evt.pend.getLsbD n = true → e.evt.pend.getLsbD n = true

section
variable {d e f : Dev}

theorem MovesStandby.refl (d : Dev) : MovesStandby d d := ⟨rfl, rfl, fun _ => id⟩

theorem MovesStandby.trans (h : MovesStandby d e) (g : MovesStandby e f) : MovesStandby d f where
  mirror := by rw [g.mirror, h.mirror]
  frame := by rw [g.frame, h.frame]
  pend n := g.pend n ∘ h.pend n

theorem MovesStandby.ite {p : Prop} [Decidable p] (he : MovesStandby d e) (hf : MovesStandby d f) : MovesStandby d (if p then e else f) := by
  split
  · exact he
  · exact hf

theorem SentOut.movesStandby (h : SentOut d e) : MovesStandby d e where
  mirror := by rw [h.reports.1]
  frame := by
    have h1 := h.reports.1
    unfold OnlyReports at h1
    rw [h1]
  pend := h.pend

end

theorem setRedund_cases (d : Dev) : ∃ n, Raised { d with hif := { d.hif with redund := n } } (setRedund d) := by
  unfold setRedund
  dsimp only
  split
  · exact ⟨d.hif.redund, .refl d⟩
  · exact ⟨_, raised_event _ _ _ _⟩

theorem movesStandby_setRedund (d : Dev) : MovesStandby d (setRedund d) := by
  obtain ⟨n, h⟩ := setRedund_cases d
  have h0 : MovesStandby d { d with hif := { d.hif with redund := n } } := ⟨rfl, rfl, fun _ => id⟩
  exact h0.trans h.sentOut.movesStandby

theorem setRedund_mirror (d : Dev) : (setRedund d).mirror = d.mirror := by
  obtain ⟨n, h⟩ := setRedund_cases d
  exact h.mirror

theorem sentOut_releaseWaiting (d : Dev) : SentOut d (releaseWaiting d) := by
  unfold releaseWaiting Dev.forAll
  split
  · exact .refl d
  · exact sentOut_foldl _ (fun e m => (sentOut_setMb m _ e).trans (sentOut_postAllHeld m _)) _ d

theorem movesStandby_settleBist (d : Dev) : MovesStandby d (settleBist d) := .ite (.refl d) ⟨rfl, rfl, fun _ => id⟩

theorem movesStandby_startBist (was : Nat) (d : Dev) : MovesStandby d (startBist was d) := .ite ⟨rfl, rfl, fun _ => id⟩ (.refl d)

theorem startBist_standby (was : Nat) (d : Dev) : (startBist was d).mirror.standby = d.mirror.standby := by
  unfold startBist
  split
  · rfl
  · rfl

theorem setStandby_enters (n : Nat) (d : Dev) : MovesStandby d (setStandby n d) ∧ (setStandby n d).mirror.standby = n := by
  unfold setStandby
  split
  next hn => exact ⟨movesStandby_setRedund d, (congrArg Mirror.standby (setRedund_mirror d)).trans hn.symm⟩
  next =>
    extract_lets d1 mirror d2
    have h1 : MovesStandby d d1 := .ite (movesStandby_settleBist d) (.refl d)
    have h2 : MovesStandby d1 d2 := by
      have hset : MovesStandby d1 { d1 with mirror := { d1.mirror with standby := n } } := ⟨rfl, rfl, fun _ => id⟩
      exact ((hset.trans (raised_event 155 0xFFFF n _).sentOut.movesStandby).trans (movesStandby_setRedund _)).trans (movesStandby_startBist _ _)
    have hn : d2.mirror.standby = n := by
      refine (startBist_standby _ _).trans ((congrArg Mirror.standby (setRedund_mirror _)).trans ?_)
      exact congrArg Mirror.standby (raised_event 155 0xFFFF n _).mirror
    have hreleased := sentOut_releaseWaiting d2
    split
    · exact ⟨(h1.trans h2).trans hreleased.movesStandby, (congrArg Mirror.standby hreleased.reports.mirror).trans hn⟩
    · exact ⟨h1.trans h2, hn⟩

/-! The steps of a takeover. -/

theorem cutCommit_frame (x : Ctx) (d : Dev) : ∃ cal n, cutCommit x d = { d with cal := cal, freeCtr := n } := by
  unfold cutCommit
  split
  · exact ⟨_, d.freeCtr, rfl⟩
  · exact ⟨_, _, rfl⟩

theorem applyClosed_frame (d : Dev) : ∃ c r n e f, applyClosed d = { d with mirror := { d.mirror with
    copy := c, copyResume := r, copyEpoch := n, closed := e, shadowFrom := f } } := by
  unfold applyClosed
  split
  · exact ⟨_, _, _, _, _, rfl⟩
  · exact ⟨_, _, _, _, _, rfl⟩

theorem pauseRps_frame (on : Bool) (d : Dev) : ∃ rps, pauseRps on d = { d with core := { d.core with rps := rps } } := by
  unfold pauseRps Dev.forAll
  refine List.foldlRecOn (motive := fun e : Dev => ∃ rps, e = { d with core := { d.core with rps := rps } }) _ _ ⟨d.core.rps, rfl⟩ fun e he p _ => ?_
  obtain ⟨rps, rfl⟩ := he
  beta_reduce
  extract_lets r
  split
  · exact ⟨_, rfl⟩
  · exact ⟨_, rfl⟩
  · exact ⟨_, rfl⟩

theorem startCopy_frame (at8 : Nat) (d : Dev) : ∃ cs, startCopy at8 d = { d with envCopies := cs } := by
  unfold startCopy
  split
  · exact ⟨d.envCopies, rfl⟩
  · split
    · exact ⟨d.envCopies, rfl⟩
    · exact ⟨_, rfl⟩

theorem resumeThrottle_frame (d : Dev) : ∃ sl rps cs, resumeThrottle d =
    { d with slack := sl, envCopies := cs, core := { d.core with rps := rps } } := by
  unfold resumeThrottle
  extract_lets was slack1 d1 slack2 d2
  obtain ⟨rps, hrps⟩ := pauseRps_frame was d2
  rw [hrps]
  obtain ⟨cs, hcs⟩ := startCopy_frame (8 * d2.time.raw) { d2 with core := { d2.core with rps := rps } }
  exact ⟨d2.slack, rps, cs, hcs⟩

theorem cutDoomedWrite_frame (d : Dev) : ∃ is, cutDoomedWrite d = { d with images := is } := by
  unfold cutDoomedWrite
  split
  · exact ⟨d.images, rfl⟩
  · split
    · exact ⟨d.images, rfl⟩
    · unfold cutWrite
      split
      · exact ⟨d.images, rfl⟩
      · exact ⟨_, rfl⟩

/-- The core restored: commands are undone, and but for mailboxes only the core differs, in which no token is in flight. -/
theorem restoreCore_frame (d : Dev) : ∃ core mbs, core.fabric = [] ∧
    restoreCore d = { undoCommands (undone d) d with core := core, mbs := mbs } := ⟨_, _, rfl, rfl⟩

/-- The device at T, its last complete epoch applied. -/
def atSwitch (x : Ctx) (d : Dev) : Dev := applyClosed (cutCommit x (endCalRun Cause.switchOver (abandonSlice d)))

/-- The device whose items are discarded and whose ports are held. -/
def emptied (x : Ctx) (d : Dev) : Dev := discardEverything x (holdPorts x (settlePorts d))

theorem keepsStanding_emptied (x : Ctx) (d : Dev) : KeepsStanding d (emptied x d) :=
  ((keepsStanding_settlePorts d).trans (keepsStanding_holdPorts x _)).trans (keepsStanding_discardEverything x _)

theorem keepsStanding_abandoned (d : Dev) : KeepsStanding d (endCalRun Cause.switchOver (abandonSlice d)) :=
  (keepsStanding_abandonSlice d).trans (keepsStanding_endCalRun _ _)

/-- Between `d` and `e` registers stand, and what a takeover goes by of the mirror core. -/
structure Goes (d e : Dev) : Prop where
  hif : e.hif = d.hif
  switchovers : e.mirror.switchovers = d.mirror.switchovers
  imgStandby : e.mirror.imgStandby = d.mirror.imgStandby

theorem Goes.trans {d e f : Dev} (h : Goes d e) (g : Goes e f) : Goes d f :=
  ⟨g.hif.trans h.hif, g.switchovers.trans h.switchovers, g.imgStandby.trans h.imgStandby⟩

theorem KeepsStanding.goes {d e : Dev} (h : KeepsStanding d e) : Goes d e :=
  ⟨congrArg Standing.hif h.standing, congrArg (fun q => q.mirror.switchovers) h.standing, congrArg (fun q => q.mirror.imgStandby) h.standing⟩

theorem goes_atSwitch (x : Ctx) (d : Dev) : Goes d (atSwitch x d) ∧ (atSwitch x d).time = d.time := by
  have habandoned := keepsStanding_abandoned d
  unfold atSwitch
  generalize endCalRun Cause.switchOver (abandonSlice d) = d1 at habandoned ⊢
  obtain ⟨cal, n, hcut⟩ := cutCommit_frame x d1
  obtain ⟨c, r, k, e, f, hclosed⟩ := applyClosed_frame { d1 with cal := cal, freeCtr := n }
  rw [hcut, hclosed]
  exact ⟨habandoned.goes.trans ⟨rfl, rfl, rfl⟩, congrArg Standing.time habandoned.standing⟩

theorem UndoneMirror.goes {d e : Dev} (h : UndoneMirror d e) (hhif : e.hif = d.hif) : Goes d e := by
  unfold UndoneMirror at h
  exact ⟨hhif, by rw [h], by rw [h]⟩

theorem goes_restoreCore (d : Dev) : Goes d (restoreCore d) := by
  obtain ⟨core, mbs, -, hframe⟩ := restoreCore_frame d
  have hundone := (undoneMirror_undoCommands (undone d) d).goes (steady_undoCommands (undone d) d).hif
  rw [hframe]
  generalize undoCommands (undone d) d = e at hundone ⊢
  exact hundone.trans ⟨rfl, rfl, rfl⟩

/-- The report that a takeover has yet to make. -/
def switchRecord (reason : Nat) (x : Ctx) (d : Dev) : SwitchOver :=
  let e := atSwitch x d
  let r := restoreCore (emptied x e)
  { hadRun := running e, t := e.time.lat, reason := reason, firstShot := r.mirror.copyResume.shot
    discarded := ((emptied x e).discardTotal + 2 ^ 64 - e.discardTotal) % 2 ^ 64, aborted := doomed r }

/-- The mirror core's state with the cores' parts exchanged. -/
def switchedMirror (reason : Nat) (x : Ctx) (d : Dev) : Mirror :=
  let m := (restoreCore (emptied x (atSwitch x d))).mirror
  { m with
    sw := some (switchRecord reason x d), switchovers := addW 32 m.switchovers 1, lastT := (atSwitch x d).time.lat, lastReason := reason
    planned := none, imgActive := m.imgStandby, imgStandby := m.imgActive, deposedRunning := true, resyncSeq := none, failed := false }

/-- The device with the standby as its active core, before that is reported. -/
def switchedCore (reason : Nat) (x : Ctx) (d : Dev) : Dev :=
  let r := restoreCore (emptied x (atSwitch x d))
  { r with hif := { r.hif with core := !r.hif.core }, mirror := switchedMirror reason x d }

theorem takeOver_eq (reason : Nat) (x : Ctx) (d : Dev) : takeOver reason x d =
    let d3 := resumeThrottle (showImage (switchedCore reason x d))
    cutDoomedWrite (setStandby 1 (event 152 (flag d3.hif.core 0) reason d3)) := rfl

/-- The new active core, as the port plane sees it, before the switch-over is reported. -/
def newActive (reason : Nat) (x : Ctx) (d : Dev) : Dev := resumeThrottle (showImage (switchedCore reason x d))

/-- The new active core has the restored core's, and the mirror core's state with the parts exchanged. -/
theorem newActive_leaves (reason : Nat) (x : Ctx) (d : Dev) :
    (newActive reason x d).hif.core = (!d.hif.core) ∧ (newActive reason x d).hif.state = d.hif.state ∧
      (newActive reason x d).hif.linkUp = d.hif.linkUp ∧ (newActive reason x d).mirror = switchedMirror reason x d ∧
      (newActive reason x d).core.fabric = [] := by
  obtain ⟨sl, rps, cs, hframe⟩ := resumeThrottle_frame (showImage (switchedCore reason x d))
  have hgoes := ((goes_atSwitch x d).1.trans (keepsStanding_emptied x _).goes).trans (goes_restoreCore _)
  have hhif : (switchedCore reason x d).hif = { d.hif with core := !d.hif.core } := by
    unfold switchedCore
    exact congrArg (fun q : Hif => { q with core := !q.core }) hgoes.hif
  have hfabric : (switchedCore reason x d).core.fabric = [] := by
    obtain ⟨core, mbs, hnone, hrestored⟩ := restoreCore_frame (emptied x (atSwitch x d))
    unfold switchedCore
    rw [hrestored]
    exact hnone
  have hmirror : (switchedCore reason x d).mirror = switchedMirror reason x d := rfl
  unfold newActive
  rw [hframe]
  unfold showImage
  generalize switchedCore reason x d = e at hhif hfabric hmirror ⊢
  refine ⟨?_, ?_, ?_, hmirror, hfabric⟩
  · show e.hif.core = _
    rw [hhif]
  · show e.hif.state = _
    rw [hhif]
  · show e.hif.linkUp = _
    rw [hhif]

/-- A takeover brings the standby's state to 1; a flash write whose command it will end is cut short. -/
theorem takeOver_moves (reason : Nat) (x : Ctx) (d : Dev) : ∃ e, MovesStandby (newActive reason x d) e ∧ e.mirror.standby = 1 ∧
    takeOver reason x d = cutDoomedWrite e := by
  rw [takeOver_eq]
  obtain ⟨hmoves, hstandby⟩ := setStandby_enters 1 (event 152 (flag (newActive reason x d).hif.core 0) reason (newActive reason x d))
  exact ⟨_, (raised_event _ _ _ _).sentOut.movesStandby.trans hmoves, hstandby, rfl⟩

/-- What a takeover leaves of registers and mirror core (R475). -/
theorem takeOver_leaves (reason : Nat) (x : Ctx) (d : Dev) :
    let t := takeOver reason x d
    t.hif.core = !d.hif.core ∧ t.hif.state = d.hif.state ∧ t.hif.linkUp = d.hif.linkUp ∧ t.mirror.standby = 1 ∧ t.mirror.planned = none ∧
      t.mirror.deposedRunning = true ∧ t.mirror.failed = false ∧ t.mirror.switchovers = (d.mirror.switchovers + 1) % 2 ^ 32 ∧
      t.mirror.lastT = d.time.lat ∧ t.mirror.lastReason = reason ∧ t.mirror.imgActive = d.mirror.imgStandby ∧ t.core.fabric = [] ∧
      ∃ g, t.mirror.sw = some g ∧ g.t = d.time.lat ∧ g.gapOver = false := by
  obtain ⟨e, hmoves, hstandby, htake⟩ := takeOver_moves reason x d
  obtain ⟨is, hcut⟩ := cutDoomedWrite_frame e
  obtain ⟨hcore, hstate, hlink, hmirror, hfabric⟩ := newActive_leaves reason x d
  have hgoes := ((goes_atSwitch x d).1.trans (keepsStanding_emptied x _).goes).trans (goes_restoreCore _)
  have htime : (atSwitch x d).time.lat = d.time.lat := congrArg Time.lat (goes_atSwitch x d).2
  have hm : e.mirror = { switchedMirror reason x d with standby := 1, bistPasses := e.mirror.bistPasses, bistFrom := e.mirror.bistFrom,
                                                        bistRest := e.mirror.bistRest } := by
    rw [← hstandby, ← hmirror]
    exact hmoves.mirror
  have hif : e.hif = { (newActive reason x d).hif with redund := e.hif.redund } := by rw [hmoves.frame]
  have hfab : e.core.fabric = (newActive reason x d).core.fabric := by rw [hmoves.frame]
  intro t
  have ht : t = { e with images := is } := htake.trans hcut
  rw [ht]
  refine ⟨?_, ?_, ?_, hstandby, by rw [hm]; rfl, by rw [hm]; rfl, by rw [hm]; rfl, ?_, ?_, by rw [hm]; rfl, ?_, hfab.trans hfabric,
    switchRecord reason x d, by rw [hm]; rfl, htime, rfl⟩
  · rw [hif]
    exact hcore
  · rw [hif]
    exact hstate
  · rw [hif]
    exact hlink
  · rw [hm]
    show addW 32 (restoreCore (emptied x (atSwitch x d))).mirror.switchovers 1 = _
    rw [hgoes.switchovers]
    rfl
  · rw [hm]
    exact htime
  · rw [hm]
    exact hgoes.imgStandby

/-! What the two cores share (R475, R476). -/

/-- What the two cores share, and a takeover takes as it is. -/
structure SharedState where
  time : Time
  env : Store (BitVec 32)
  pages : Store (Option (List Nat))
  vectors : Store MkVector
  tsets : Store TSet
  slots : CalSlot × CalSlot
  stores : Store Entry
  slot0 : Image
  slot1 : Image
  dirA : List Byte
  dirB : List Byte
  writeSeq : Option Nat

def Standing.shared (q : Standing) : SharedState where
  time := q.time
  env := q.env
  pages := q.pages
  vectors := q.vectors
  tsets := q.tsets
  slots := q.slots
  stores := q.stores
  slot0 := q.images.slot0
  slot1 := q.images.slot1
  dirA := q.images.dirA
  dirB := q.images.dirB
  writeSeq := q.images.writeSeq

/-- From `d` to `e` the shared state stands, and every ring's configuration. -/
structure KeepsShared (d e : Dev) : Prop where
  shared : (standing e).shared = (standing d).shared
  rises : d.acq.rings.Rises → e.acq.rings.Rises
  plan : d.acq.rings.Rises → ∀ n, (e.acqRing n).plan = (d.acqRing n).plan

section
variable {d e f : Dev}

theorem KeepsShared.of_rings (h : (standing e).shared = (standing d).shared) (hrings : e.acq.rings = d.acq.rings) : KeepsShared d e where
  shared := h
  rises hd := hrings ▸ hd
  plan _ n := by rw [Dev.acqRing, hrings, Dev.acqRing]

theorem KeepsShared.trans (h : KeepsShared d e) (g : KeepsShared e f) : KeepsShared d f where
  shared := g.shared.trans h.shared
  rises := g.rises ∘ h.rises
  plan hd n := (g.plan (h.rises hd) n).trans (h.plan hd n)

theorem KeepsStanding.keepsShared (h : KeepsStanding d e) : KeepsShared d e := ⟨congrArg Standing.shared h.standing, h.rises, h.plan⟩

theorem MovesStandby.keepsShared (h : MovesStandby d e) : KeepsShared d e := .of_rings (by rw [h.frame]; rfl) (by rw [h.frame])

end

theorem keepsShared_forget (gone : Nat → Bool) (d : Dev) : KeepsShared d (forget gone d) := .of_rings rfl rfl

/-- Where the journal is empty the restore of the core takes the shared state as it is. -/
theorem keepsShared_restoreCore {d : Dev} (h : d.mirror.undo = []) : KeepsShared d (restoreCore d) := by
  obtain ⟨core, mbs, -, hframe⟩ := restoreCore_frame d
  rw [hframe, undoCommands_nil h]
  refine (keepsShared_forget (undone d) d).trans ?_
  generalize forget (undone d) d = e
  exact .of_rings rfl rfl

/-- Nor does the end of calibration's work, or the last epoch's apply, where no commit is in progress. -/
theorem keepsShared_atSwitch (x : Ctx) {d : Dev} (h : d.cal.committing = none) :
    KeepsShared d (atSwitch x d) ∧ (atSwitch x d).mirror.undo = d.mirror.undo := by
  have habandoned := keepsStanding_abandoned d
  have hcommitting : (endCalRun Cause.switchOver (abandonSlice d)).cal.committing = none :=
    (congrArg Standing.committing habandoned.standing).trans h
  unfold atSwitch
  generalize endCalRun Cause.switchOver (abandonSlice d) = d1 at habandoned hcommitting ⊢
  rw [cutCommit_idle hcommitting]
  obtain ⟨c, r, k, e, f, hclosed⟩ := applyClosed_frame { d1 with cal := { d1.cal with commitQueue := [] } }
  rw [hclosed]
  exact ⟨habandoned.keepsShared.trans (.of_rings rfl rfl), congrArg (fun q => q.mirror.undo) habandoned.standing⟩

theorem keepsShared_takeOver (reason : Nat) (x : Ctx) {d : Dev} (hundo : d.mirror.undo = []) (hcommitting : d.cal.committing = none)
    (hwrite : d.images.writeSeq = none) : KeepsShared d (takeOver reason x d) := by
  obtain ⟨hswitch, hjournal⟩ := keepsShared_atSwitch x hcommitting
  have hemptied := keepsStanding_emptied x (atSwitch x d)
  have hnone : (emptied x (atSwitch x d)).mirror.undo = [] :=
    (congrArg (fun q => q.mirror.undo) hemptied.standing).trans (hjournal.trans hundo)
  have hrestored := (hswitch.trans hemptied.keepsShared).trans (keepsShared_restoreCore hnone)
  have hswitched : KeepsShared d (switchedCore reason x d) := by
    unfold switchedCore
    generalize restoreCore (emptied x (atSwitch x d)) = e at hrestored
    exact hrestored.trans (.of_rings rfl rfl)
  have hactive : KeepsShared d (newActive reason x d) := by
    obtain ⟨sl, rps, cs, hframe⟩ := resumeThrottle_frame (showImage (switchedCore reason x d))
    unfold newActive
    rw [hframe]
    unfold showImage
    generalize switchedCore reason x d = e at hswitched ⊢
    exact hswitched.trans (.of_rings rfl rfl)
  obtain ⟨e, hmoves, -, htake⟩ := takeOver_moves reason x d
  have he : KeepsShared d e := hactive.trans hmoves.keepsShared
  have hcut : cutDoomedWrite e = e := by
    unfold cutDoomedWrite
    rw [show e.images.writeSeq = none from (congrArg SharedState.writeSeq he.shared).trans hwrite]
  rw [htake, hcut]
  exact he

end Sys2Proof.Machine
end

section
/-! The mirror core's rows: epochs, heartbeats, resynchronisation, self-tests (R467 to R489), and the ledger check (R526). -/

namespace Sys2Proof.Machine

/-- What a command's row leaves of the mirror core's state is what its effect leaves, but for the journal. -/
theorem State.during_mirror (s : State) (h : HostSide) (c : Cmd) (f : Ctx → Dev → Dev) :
    ∃ us, (s.during h c f).dev.mirror = { (f (s.sync h).ctx (putCmd c (s.sync h).dev)).mirror with undo := us } := by
  obtain ⟨us, hdev⟩ := s.during_dev h c f
  exact ⟨us, by rw [hdev]⟩

/-- What a row leaves of time, mirror core, ledgers and events is what its operation leaves of them. -/
theorem next_on_mirror {s : State} {f : Ctx → Dev → Dev} {e : Dev} (h : f s.ctx s.dev = e) :
    ∃ t, (Host.Outcome.next (s.on f) : Host.Outcome State Fault Refusal) = .next t ∧ t.dev.time = e.time ∧ t.dev.mirror = e.mirror ∧
      t.dev.ledger = e.ledger ∧ t.dev.evt = e.evt :=
  ⟨_, next_on_writes h, rfl, rfl, rfl, rfl⟩

section
variable {x : Ctx} {d : Dev}

/-! Standby states entered. -/

theorem startResync_enters (d : Dev) : ∃ seen, MovesStandby { d with mirror := { d.mirror with seen := seen, heardFrom := seen } } (startResync d) ∧
    (startResync d).mirror.standby = 3 := ⟨_, setStandby_enters 3 _⟩

theorem startLoad_enters (src : Nat) (d : Dev) : MovesStandby { d with mirror := { d.mirror with loadSrc := src } } (startLoad src d) ∧
    (startLoad src d).mirror.standby = 2 := setStandby_enters 2 _

theorem sentOut_endResync (d : Dev) : SentOut { d with mirror := { d.mirror with resyncSeq := none } } (endResync d) := by
  unfold endResync
  extract_lets n done
  refine sentOut_endSeq _ (fun c e => ?_) _
  show SentOut e (if _ then _ else _)
  split
  · exact sentOut_doneCmd c _ e
  · exact sentOut_finishWith _ _ e

/-! Epochs (R467, R470). -/

theorem sentOut_checkLedgers (d : Dev) : SentOut d (checkLedgers d) := by
  unfold checkLedgers
  extract_lets now since faults suspects ledger d1
  have h1 : SentOut d d1 := ⟨⟨rfl, [], by simp [d1], by simp [HostOnly]⟩, rfl, rfl, fun _ => id⟩
  exact h1.trans (sentOut_foldl _ (fun e q => sentOut_event _ _ _ e) _ _)

/-- An epoch closed, before anything that waited for it goes out. -/
def closedAt (r : Resume) (d : Dev) : Dev := { d with mirror := { d.mirror with
  closed := some (d.mirror.epochs + 1, d.core, r), epochs := d.mirror.epochs + 1, epochLt := d.time.lat, point := r } }

theorem sentOut_closeEpoch (r : Resume) (h : x.fuse.duplex = true) (d : Dev) : SentOut (closedAt r d) (closeEpoch r x d) := by
  have hclose : SentOut (closedAt r d) (closeEpochAt r d) := by
    unfold closeEpochAt
    extract_lets n d1
    split
    · exact sentOut_releaseWaiting (closedAt r d)
    · exact .refl (closedAt r d)
  unfold closeEpoch
  rw [if_pos h]
  exact hclose.trans (sentOut_checkLedgers _)

/-- The epoch timer of a running D part closes an epoch, where no switch-over is in progress. -/
theorem epochTimerClose_closes (hduplex : x.fuse.duplex = true) (hruns : firmwareRuns d = true) (hrun : running d = true)
    (hsw : d.mirror.sw = none) : ∃ n, SentOut (closedAt (insideResume d) (advance n d)) (epochTimerClose x d) := by
  refine ⟨min 64000 (d.mirror.epochLt + 64000 - d.time.lat), ?_⟩
  unfold epochTimerClose
  have hcond : ¬((!x.fuse.duplex || !firmwareRuns d) = true) := by simp [hduplex, hruns]
  rw [if_neg hcond]
  extract_lets d1 d2
  have hclosed : SentOut (closedAt (insideResume d1) d1) (closeEpoch (insideResume d1) x d1) := sentOut_closeEpoch _ hduplex d1
  have hnone : (closeEpoch (insideResume d1) x d1).mirror.sw = none := (congrArg Mirror.sw hclosed.reports.mirror).trans hsw
  have hrunning : running (closeEpoch (insideResume d1) x d1) = true := by
    unfold running
    rw [hclosed.reports.run]
    exact hrun
  have h2 : d2 = closeEpoch (insideResume d1) x d1 := by
    show applyIdleSwitch x _ = _
    generalize closeEpoch (insideResume d1) x d1 = e at hnone
    have hsame : settleIdleSwitch e = e := by
      unfold settleIdleSwitch
      rw [hnone]
    unfold applyIdleSwitch
    rw [hsame, hnone]
    rfl
  have hcond2 : running d2 = true := h2 ▸ hrunning
  rw [if_pos hcond2, h2]
  exact hclosed

theorem insideResume_running (h : running d = true) :
    insideResume d = if 0 < d.core.run.k then d.mirror.point else d.mirror.resume := by
  simp [insideResume, h]

theorem applyClosed_of_closed {e : Nat × Core × Resume} (h : d.mirror.closed = some e) : applyClosed d = { d with mirror := { d.mirror with
    copy := e.2.1, copyResume := e.2.2, copyEpoch := e.1, closed := none
    shadowFrom := if e.2.2.shot = d.mirror.copyResume.shot ∧ d.mirror.copyEpoch ≠ 0 then d.mirror.shadowFrom else e.2.1 } } := by
  unfold applyClosed
  rw [h]

/-! Heartbeats (R471 to R474). -/

theorem heartbeatSend_up {byMirror : Bool} (hduplex : x.fuse.duplex = true) (hup : coreUp d byMirror = true) : heartbeatSend byMirror x d =
    { paced (.heartbeat byMirror) (interleaved byMirror d) with mirror := { d.mirror with
      beats := if byMirror then (d.mirror.beats.1, d.mirror.beats.2 + 1) else (d.mirror.beats.1 + 1, d.mirror.beats.2) } } := by
  have hcond : ¬((!x.fuse.duplex || !coreUp d byMirror) = true) := by simp [hduplex, hup]
  exact if_neg hcond

theorem heartbeatReceive_up {byMirror offDie healthy : Bool} (hduplex : x.fuse.duplex = true) (hup : coreUp d byMirror = true) :
    let key := flag offDie 1 + flag byMirror 0
    heartbeatReceive byMirror offDie healthy x d = { d with mirror := { d.mirror with
      seen := Store.set 0 d.mirror.seen key d.time.raw, sick := Store.set 0 d.mirror.sick key (if healthy then 0 else 1)
      heard := Store.set none d.mirror.heard key (some { mirror := !byMirror, seq := beatOf d.mirror (!byMirror), epoch := d.mirror.epochs, healthy := healthy })
      heardFrom := if Store.get 0 d.mirror.seen key + 12000 < d.time.raw then Store.set 0 d.mirror.heardFrom key d.time.raw else d.mirror.heardFrom } } := by
  have hcond : ¬((!x.fuse.duplex || !coreUp d byMirror) = true) := by simp [hduplex, hup]
  exact if_neg hcond

/-- The device once a path has been silent for 12 µs. -/
def silentDev (offDie : Bool) (d : Dev) : Dev := advance (silentAt offDie d - d.time.raw) d

theorem heartbeatTimeout_listening {offDie : Bool} (hduplex : x.fuse.duplex = true) (hready : d.hif.state = .ready)
    (hstandby : 3 ≤ d.mirror.standby) (hsw : d.mirror.sw = none) : heartbeatTimeout offDie x d = pathSilent offDie x (silentDev offDie d) := by
  have hcond : ¬((!x.fuse.duplex || decide (d.hif.state ≠ .ready) || decide (d.mirror.standby < 3) || d.mirror.sw.isSome) = true) := by
    simp [hduplex, hready, hsw, hstandby]
  exact if_neg hcond

/-- The standby hears the active core on neither path. -/
theorem pathSilent_lost {offDie : Bool} (hoff : silent d false (!d.hif.core) = true) (hon : silent d true (!d.hif.core) = true) :
    pathSilent offDie x d = if mayTakeOver d then takeOver 1 x d else activeLost x d := by
  unfold pathSilent
  dsimp only
  rw [hoff, hon, Bool.and_self, if_pos rfl]

theorem not_both_silent {offDie core : Bool} (h : silent d offDie core = false) : (silent d false core && silent d true core) = false := by
  cases offDie
  · rw [h, Bool.false_and]
  · rw [h, Bool.and_false]

/-- The standby hears the active core on the path, and the active core the standby on neither. -/
theorem pathSilent_heard {offDie : Bool} (hheard : silent d offDie (!d.hif.core) = false) (hoff : silent d false d.hif.core = true)
    (hon : silent d true d.hif.core = true) : pathSilent offDie x d = d := by
  have hall (off : Bool) : silent d off d.hif.core = true := by
    cases off
    · exact hoff
    · exact hon
  have hmiss : (missesOnly d offDie (!d.hif.core) || missesOnly d offDie d.hif.core) = false := by
    simp [missesOnly, hheard, hall]
  unfold pathSilent
  dsimp only
  rw [not_both_silent hheard, if_neg Bool.false_ne_true, hmiss, if_neg Bool.false_ne_true]

theorem pathSilent_missed {offDie : Bool} (hmissed : silent d offDie (!d.hif.core) = true) (hother : silent d (!offDie) (!d.hif.core) = false) :
    pathSilent offDie x d = bothFaulted (faultPath offDie d) := by
  have hmiss : missesOnly d offDie (!d.hif.core) = true := by simp [missesOnly, hmissed, hother]
  unfold pathSilent
  dsimp only
  rw [not_both_silent hother, if_neg Bool.false_ne_true, hmiss, Bool.true_or, if_pos rfl]

/-- A path's first fault. -/
theorem faultPath_first {offDie : Bool} (hon : d.mirror.onDieFault = false) (hoff : d.mirror.offDieFault = false) :
    let e := bothFaulted (faultPath offDie d)
    e.mirror.offDieFault = offDie ∧ e.mirror.onDieFault = (!offDie) ∧ e.evt.pend.getLsbD 153 = true := by
  have hclear : ¬(pathFaulted d offDie = true) := by cases offDie <;> simp [pathFaulted, hon, hoff]
  obtain ⟨from_, hfault⟩ : ∃ from_, faultPath offDie d =
      setRedund (event 153 (flag offDie 0) 0 (setPathFault offDie true { d with mirror := { d.mirror with heardFrom := from_ } })) :=
    ⟨_, if_neg hclear⟩
  have hset : let q := setPathFault offDie true { d with mirror := { d.mirror with heardFrom := from_ } }
      q.mirror.offDieFault = offDie ∧ q.mirror.onDieFault = !offDie := by
    cases offDie
    · exact ⟨hoff, rfl⟩
    · exact ⟨rfl, hon⟩
  have hmirror : (faultPath offDie d).mirror = (setPathFault offDie true { d with mirror := { d.mirror with heardFrom := from_ } }).mirror := by
    rw [hfault, setRedund_mirror, (raised_event _ _ _ _).mirror]
  have hpend : (faultPath offDie d).evt.pend.getLsbD 153 = true := by
    rw [hfault]
    exact (movesStandby_setRedund _).pend 153 (event_pend_self _ _ _ (by decide))
  obtain ⟨hsetoff, hseton⟩ := hset
  have hoff1 : (faultPath offDie d).mirror.offDieFault = offDie := by rw [hmirror, hsetoff]
  have hon1 : (faultPath offDie d).mirror.onDieFault = !offDie := by rw [hmirror, hseton]
  have hone : bothFaulted (faultPath offDie d) = faultPath offDie d := by
    unfold bothFaulted
    rw [hoff1, hon1]
    simp
  intro e
  rw [show e = faultPath offDie d from hone]
  exact ⟨hoff1, hon1, hpend⟩

/-- A faulted path that carries in both directions clears. -/
theorem heartbeatPathRestored_clears {offDie : Bool} (hfault : pathFaulted d offDie = true) (hoff : carries d offDie false = true)
    (hon : carries d offDie true = true) :
    let e := heartbeatPathRestored offDie x d
    pathFaulted e offDie = false ∧ e.evt.pend.getLsbD 154 = true ∧ e.time = (advance (wholeAt offDie d - d.time.raw) d).time := by
  have hcond : ¬((!pathFaulted d offDie || !carries d offDie false || !carries d offDie true) = true) := by simp [hfault, hoff, hon]
  have hrow : heartbeatPathRestored offDie x d = setRedund (event 154 (flag offDie 0) 0 (setPathFault offDie false
      (heardNow offDie (advance (wholeAt offDie d - d.time.raw) d)))) := if_neg hcond
  have htime : (heardNow offDie (advance (wholeAt offDie d - d.time.raw) d)).time = (advance (wholeAt offDie d - d.time.raw) d).time := rfl
  rw [hrow]
  generalize heardNow offDie (advance (wholeAt offDie d - d.time.raw) d) = d1 at htime ⊢
  have hraised := raised_event 154 (flag offDie 0) 0 (setPathFault offDie false d1)
  have hmirror : (setRedund (event 154 (flag offDie 0) 0 (setPathFault offDie false d1))).mirror = (setPathFault offDie false d1).mirror := by
    rw [setRedund_mirror, hraised.mirror]
  refine ⟨?_, (movesStandby_setRedund _).pend 154 (event_pend_self _ _ _ (by decide)), ?_⟩
  · unfold pathFaulted
    rw [hmirror]
    cases offDie
    · rfl
    · rfl
  · have hmoved := (hraised.sentOut.movesStandby.trans (movesStandby_setRedund _)).frame
    rw [hmoved]
    exact htime

theorem coreUp_of_ready (hready : d.hif.state = .ready) (hsw : d.mirror.sw = none) : CoreUp d := by
  cases hfailed : d.mirror.failed
  · exact .inl (by simp [firmwareRuns, hready, hfailed, inGap, hsw])
  · exact .inr ⟨hfailed, hready⟩

theorem coreResign_running (hduplex : x.fuse.duplex = true) (hruns : firmwareRuns d = true) :
    coreResign x d = if mayTakeOver d then takeOver 2 x d else reloadCore x d := by
  rw [coreResign, if_pos hduplex, activeLost_of_up (.inl hruns)]

/-! Gaps and resynchronisation (R475, R480). -/

theorem endGap_running {g : SwitchOver} {ns : Nat} (hsw : d.mirror.sw = some g) (hover : g.gapOver = false) (hns : ns ≤ 2000)
    (hrun : running d = true) : endGap ns x d =
      let d1 := advanceTo (g.t + ns) d
      gapEffects x (resumeShot d.core.run.k { d1 with mirror := { d.mirror with sw := some { g with gapOver := true }, lastGap := ns } }) := by
  have hcond : ¬(g.gapOver = true ∨ 2000 < ns) := by simp [hover, hns]
  unfold endGap
  rw [hsw]
  dsimp only
  rw [if_neg hcond]
  exact if_pos hrun

theorem resyncComplete_holds (hstandby : d.mirror.standby = 3) (hruns : firmwareRuns d = true) :
    let m := (resyncComplete x d).mirror
    m.standby = resyncState d.mirror ∧ m.copy = d.core ∧ m.copyResume = insideResume d ∧ m.shadowFrom = d.core := by
  have hcond : ¬(d.mirror.standby ≠ 3 ∨ (!firmwareRuns d) = true) := by simp [hstandby, hruns]
  unfold resyncComplete
  rw [if_neg hcond]
  extract_lets m0 m1 m
  have hstate : resyncState m1 = resyncState d.mirror := rfl
  obtain ⟨hmoves, hn⟩ := setStandby_enters (resyncState m1) { d with mirror := m1 }
  have hmirror := hmoves.mirror
  have hend : m = _ := (sentOut_endResync (setStandby (resyncState m1) { d with mirror := m1 })).reports.mirror
  rw [hend, ← hstate]
  refine ⟨hn, ?_, ?_, ?_⟩
  · rw [hmirror]
  · rw [hmirror]
  · rw [hmirror]

/-! Self-tests (R481, R482). -/

/-- A self-test event after none begins a resynchronisation. -/
theorem selfTestFailed_first (arg : Nat) (h : d.mirror.recentErrors = 0) :
    let e := selfTestFailed arg d
    e.mirror.standby = 3 ∧ e.mirror.mismatches = d.mirror.mismatches ∧ e.evt.pend.getLsbD 156 = true := by
  have hrow : selfTestFailed arg d = startResync (event 156 0xFFFF arg { d with mirror := { d.mirror with recentErrors := 1 } }) := by
    simp [selfTestFailed, h]
  have hmirror := (raised_event 156 0xFFFF arg { d with mirror := { d.mirror with recentErrors := 1 } }).mirror
  have hpend : (event 156 0xFFFF arg { d with mirror := { d.mirror with recentErrors := 1 } }).evt.pend.getLsbD 156 = true :=
    event_pend_self _ _ _ (by decide)
  rw [hrow]
  generalize event 156 0xFFFF arg { d with mirror := { d.mirror with recentErrors := 1 } } = e at hmirror hpend ⊢
  obtain ⟨seen, hmoves, hstandby⟩ := startResync_enters e
  refine ⟨hstandby, ?_, hmoves.pend 156 hpend⟩
  rw [hmoves.mirror]
  show e.mirror.mismatches = _
  rw [hmirror]

/-- The third self-test event, within 1 s of the resynchronisation's end, latches. -/
theorem selfTestFailed_third (arg : Nat) (h : d.mirror.recentErrors = 2) (hsoon : d.time.raw ≤ d.mirror.resyncEnd + 1000000000) :
    let m := (selfTestFailed arg d).mirror
    m.standby = 6 ∧ m.errLatched = true ∧ m.bistErrors = d.mirror.bistErrors := by
  have hrow : selfTestFailed arg d = endResync (setStandby 6 (let d1 := event 156 0xFFFF arg { d with mirror := { d.mirror with recentErrors := 3 } }
      { d1 with mirror := { d1.mirror with errLatched := true, recentErrors := 0 } })) := by
    simp [selfTestFailed, h, hsoon]
  have hmirror := (raised_event 156 0xFFFF arg { d with mirror := { d.mirror with recentErrors := 3 } }).mirror
  rw [hrow]
  generalize event 156 0xFFFF arg { d with mirror := { d.mirror with recentErrors := 3 } } = e at hmirror ⊢
  obtain ⟨hmoves, hn⟩ := setStandby_enters 6 { e with mirror := { e.mirror with errLatched := true, recentErrors := 0 } }
  have hset := hmoves.mirror
  dsimp only at hset
  have hend := (sentOut_endResync (setStandby 6 { e with mirror := { e.mirror with errLatched := true, recentErrors := 0 } })).reports.mirror
  intro m
  rw [show m = _ from hend]
  refine ⟨hn, ?_, ?_⟩
  · show (setStandby 6 _).mirror.errLatched = true
    rw [hset]
  · show (setStandby 6 _).mirror.bistErrors = _
    rw [hset]
    show e.mirror.bistErrors = _
    rw [hmirror]

/-! BIST_ERROR (R482). -/

/-- The device with a self-test error of the standby counted. -/
def bistCounted (d : Dev) : Dev := { d with mirror := { d.mirror with bistErrors := addW 32 d.mirror.bistErrors 1 } }

theorem bistError_fresh (hstandby : 3 ≤ d.mirror.standby) (hlatched : d.mirror.errLatched = false) :
    bistError x d = selfTestFailed 0 (bistCounted d) := by
  unfold bistError
  extract_lets m d1
  rw [if_neg (Nat.not_lt.mpr hstandby), hlatched]
  rfl

theorem bistError_latched (hstandby : 3 ≤ d.mirror.standby) (hlatched : d.mirror.errLatched = true) :
    bistError x d = event 156 0xFFFF 0 (bistCounted d) := by
  unfold bistError
  extract_lets m d1
  rw [if_neg (Nat.not_lt.mpr hstandby), hlatched]
  rfl

/-! LEDGER_CHECK (R526). -/

theorem unbalanced_paced (d : Dev) : unbalanced (paced .ledger d) = unbalanced d := rfl

/-- A check that finds every identity in balance. -/
theorem checkLedgers_balanced (h : unbalanced d = []) :
    checkLedgers d = { d with ledger := { d.ledger with suspects := [], faults := d.ledger.faults % 2 ^ 32 } } := by
  simp only [checkLedgers, h, List.filter_nil, List.map_nil, List.foldl_nil, List.length_nil, addW, Nat.add_zero]

/-- A check that finds one identity out of balance that has been so for 1 ms. -/
theorem checkLedgers_faulty {q : Nat × Nat} {since : Nat} (h : unbalanced d = [q]) (hsuspect : d.ledger.suspects = [(q, since)])
    (hlong : since + 1000000 ≤ d.time.raw) :
    let e := checkLedgers d
    e.ledger.faults = (d.ledger.faults + 1) % 2 ^ 32 ∧ e.evt.pend.getLsbD 52 = true := by
  have hsince : (((d.ledger.suspects.find? (fun s => s.1 = q)).map (·.2)).getD d.time.raw) = since := by simp [hsuspect]
  have hrow : ∃ suspects, checkLedgers d = event 52 q.2 q.1 { d with ledger := { d.ledger with
      suspects := suspects, faults := addW 32 d.ledger.faults 1 } } := by
    refine ⟨[(q, d.time.raw)], ?_⟩
    simp [checkLedgers, h, hsince, hlong]
  obtain ⟨suspects, hrow⟩ := hrow
  intro e
  rw [show e = _ from hrow]
  refine ⟨?_, event_pend_self _ _ _ (by decide)⟩
  rw [(raised_event _ _ _ _).frame]
  rfl

end
/-- Settles O59: entering a standby state changes only that state and its self-test's counts, a takeover takes the shared state through
operations that keep it, and undoing touches the envelope store in its fields alone. -/
theorem mirrorAndLedgerRows : Obligations.MirrorAndLedgerRows := by
  refine ⟨fun mb h s c byMirror offDie healthy g ns e faults hwr => ?_, fun reason x d _ => ?_,
    fun gone u d a hundo hgone hwf => undoCommands_word hundo hgone hwf a⟩
  case refine_2 =>
    intro t
    obtain ⟨hcore, hstate, hlink, hstandby, hplanned, hdeposed, hfailed, hcount, hlast, hreason, himage, hfabric, hsw⟩ := takeOver_leaves reason x d
    refine ⟨hcore, hstate, hlink, hstandby, hplanned, hdeposed, hfailed, hcount, hlast, hreason, himage, hfabric, hsw,
      fun hundo hcommitting hwrite hrings => ?_⟩
    have hshared := keepsShared_takeOver reason x hundo hcommitting hwrite
    have hsame {α : Type} (f : SharedState → α) : f (standing t).shared = f (standing d).shared := congrArg f hshared.shared
    exact ⟨hsame SharedState.time, hsame SharedState.env, hsame SharedState.pages, hsame SharedState.vectors, hsame SharedState.tsets,
      hsame SharedState.slots, hsame SharedState.stores, hsame SharedState.slot0, hsame SharedState.slot1, hsame SharedState.dirA,
      hsame SharedState.dirB, fun n => hshared.plan (Store.rises_of_wf hrings) n⟩
  case refine_1 =>
    intro m into key standby later
    refine ⟨fun hb => cmdRow_effect hb rfl, fun hb hrun => cmdRow_effect hb (if_pos hrun), fun hb hbit => ?_, fun hb => cmdRow_effect hb rfl,
      fun hduplex hruns hrun hsw => ?_, fun hfollows hclosed => ⟨?_, ?_⟩, fun hduplex hup => ⟨?_, ?_⟩,
      fun hduplex hready hstandby hsw => ⟨fun hoff hon htake => ?_, fun hoff hon htake => ?_, fun hheard hoff hon => ?_,
        fun hmissed hother hon hoff => ?_⟩, fun hfault hoff hon => ?_, fun hduplex hruns => ⟨fun htake => ?_, fun htake => ?_⟩,
      fun hsw hover hns hrun => next_on_congr (endGap_running hsw hover hns hrun), fun hdeposed => ⟨fun hauto => ?_, fun hauto => ?_⟩,
      fun hstandby hruns => ?_, fun hbad hnone => ?_, fun hstandby hlatched hrecent hsoon => ?_, fun hstandby hlatched => ?_,
      fun hruns => ⟨fun hbalanced => ?_, fun q since hq hsuspect hlong => ?_⟩⟩
    case refine_1 =>
      obtain ⟨us, hmirror⟩ := s.during_mirror h c fun x d => mirResyncSpec.act x c d
      have hact : mirResyncSpec.act (s.sync h).ctx c (putCmd c (s.sync h).dev) =
          startResync { putCmd c (s.sync h).dev with mirror := { (putCmd c (s.sync h).dev).mirror with resyncSeq := some c.seq } } :=
        if_neg (Bool.eq_false_iff.mp hbit)
      rw [hact] at hmirror
      obtain ⟨seen, hmoves, hthree⟩ := startResync_enters
        { putCmd c (s.sync h).dev with mirror := { (putCmd c (s.sync h).dev).mirror with resyncSeq := some c.seq } }
      refine ⟨_, cmdRow_begins hb, ?_, ?_⟩
      · rw [hmirror]
        exact hthree
      · rw [hmirror, hmoves.mirror]
    case refine_2 =>
      obtain ⟨n, hclosed⟩ := epochTimerClose_closes (x := s.ctx) hduplex hruns hrun hsw
      obtain ⟨t, ht, htime, hmirror, -, -⟩ := next_on_mirror (f := epochTimerClose) (s := s) rfl
      rw [hclosed.reports.mirror] at hmirror
      rw [hclosed.reports.time] at htime
      refine ⟨t, ht, by rw [hmirror]; rfl, by rw [hmirror, htime]; rfl, ?_⟩
      rw [hmirror]
      show some (m.epochs + 1, s.dev.core, insideResume s.dev) = _
      rw [insideResume_running hrun]
    case refine_3 =>
      have hrow : epochApply true s.ctx s.dev = applyClosed s.dev := by
        unfold epochApply
        rw [hfollows]
        rfl
      exact next_on_eq (hrow.trans (applyClosed_of_closed hclosed)) hwr
    case refine_4 =>
      have hrow : epochApply false s.ctx s.dev = { s.dev with mirror := { s.dev.mirror with closed := none } } := by
        unfold epochApply
        rw [hfollows]
        rfl
      exact next_on_eq hrow hwr
    case refine_5 => exact next_on_eq (heartbeatSend_up hduplex hup) hwr
    case refine_6 => exact next_on_eq (heartbeatReceive_up hduplex hup) hwr
    case refine_7 =>
      have hrow := (heartbeatTimeout_listening (x := s.ctx) (offDie := offDie) hduplex hready hstandby hsw).trans (pathSilent_lost hoff hon)
      have htake1 : mayTakeOver (silentDev offDie s.dev) = true := htake
      rw [htake1, if_pos rfl] at hrow
      exact next_on_congr hrow
    case refine_8 =>
      have hrow := (heartbeatTimeout_listening (x := s.ctx) (offDie := offDie) hduplex hready hstandby hsw).trans (pathSilent_lost hoff hon)
      have htake1 : mayTakeOver (silentDev offDie s.dev) = false := htake
      have hup : CoreUp (silentDev offDie s.dev) := coreUp_of_ready hready hsw
      rw [activeLost_of_up hup, htake1, if_neg Bool.false_ne_true, if_neg Bool.false_ne_true] at hrow
      exact next_on_congr hrow
    case refine_9 =>
      rw [show (!standby) = s.dev.hif.core from Bool.not_not _] at hoff hon
      have hrow := (heartbeatTimeout_listening (x := s.ctx) (offDie := offDie) hduplex hready hstandby hsw).trans
        (pathSilent_heard (d := silentDev offDie s.dev) hheard hoff hon)
      exact next_on_eq hrow hwr
    case refine_10 =>
      have hrow := (heartbeatTimeout_listening (x := s.ctx) (offDie := offDie) hduplex hready hstandby hsw).trans (pathSilent_missed hmissed hother)
      obtain ⟨t, ht, -, hmirror, -, hevt⟩ := next_on_mirror hrow
      obtain ⟨hoff1, hon1, hpend⟩ := faultPath_first (offDie := offDie) (d := silentDev offDie s.dev) hon hoff
      exact ⟨t, ht, by rw [hmirror]; exact hoff1, by rw [hmirror]; exact hon1, by rw [hevt]; exact hpend⟩
    case refine_11 =>
      obtain ⟨t, ht, htime, hmirror, -, hevt⟩ := next_on_mirror (f := heartbeatPathRestored offDie) (s := s) rfl
      obtain ⟨hclear, hpend, hnow⟩ := heartbeatPathRestored_clears (x := s.ctx) hfault hoff hon
      refine ⟨t, ht, ?_, by rw [hevt]; exact hpend, htime.trans hnow⟩
      unfold pathFaulted
      rw [hmirror]
      exact hclear
    case refine_12 =>
      exact next_on_congr ((coreResign_running (x := s.ctx) hduplex hruns).trans (if_pos htake))
    case refine_13 =>
      exact next_on_congr ((coreResign_running (x := s.ctx) hduplex hruns).trans (if_neg (Bool.eq_false_iff.mp htake)))
    case refine_14 =>
      have hrow : deposedLatchSeen s.ctx s.dev = { s.dev with mirror := { s.dev.mirror with deposedRunning := false } } := by
        unfold deposedLatchSeen
        rw [hdeposed, if_neg (by decide)]
        exact if_neg (Bool.eq_false_iff.mp hauto)
      exact next_on_eq hrow hwr
    case refine_15 =>
      have hrow : deposedLatchSeen s.ctx s.dev =
          startLoad s.dev.mirror.imgActive.src { s.dev with mirror := { s.dev.mirror with deposedRunning := false } } := by
        unfold deposedLatchSeen
        rw [hdeposed, if_neg (by decide)]
        exact if_pos hauto
      obtain ⟨t, ht, -, hmirror, -, -⟩ := next_on_mirror hrow
      obtain ⟨hmoves, htwo⟩ := startLoad_enters s.dev.mirror.imgActive.src { s.dev with mirror := { s.dev.mirror with deposedRunning := false } }
      exact ⟨t, ht, by rw [hmirror]; exact htwo, by rw [hmirror, hmoves.mirror]⟩
    case refine_16 =>
      obtain ⟨t, ht, -, hmirror, -, -⟩ := next_on_mirror (f := resyncComplete) (s := s) rfl
      exact ⟨t, ht, by rw [hmirror]; exact resyncComplete_holds hstandby hruns⟩
    case refine_17 =>
      have hrow : shadowMismatch faults s.ctx s.dev =
          selfTestFailed 1 { s.dev with mirror := { s.dev.mirror with mismatches := addW 64 s.dev.mirror.mismatches 1 } } := if_pos hbad
      obtain ⟨t, ht, -, hmirror, -, hevt⟩ := next_on_mirror hrow
      obtain ⟨hthree, hcount, hpend⟩ := selfTestFailed_first 1
        (d := { s.dev with mirror := { s.dev.mirror with mismatches := addW 64 s.dev.mirror.mismatches 1 } }) hnone
      exact ⟨t, ht, by rw [hmirror]; exact hthree, by rw [hmirror]; exact hcount, by rw [hevt]; exact hpend⟩
    case refine_18 =>
      have hrow := bistError_fresh (x := s.ctx) (show 3 ≤ s.dev.mirror.standby by rw [show s.dev.mirror.standby = 4 from hstandby]; decide) hlatched
      obtain ⟨t, ht, -, hmirror, -, -⟩ := next_on_mirror hrow
      obtain ⟨hsix, hlatch, hcount⟩ := selfTestFailed_third 0 (d := bistCounted s.dev) hrecent hsoon
      exact ⟨t, ht, by rw [hmirror]; exact hsix, by rw [hmirror]; exact hlatch, by rw [hmirror]; exact hcount⟩
    case refine_19 =>
      obtain ⟨t, ht, -, hmirror, -, hevt⟩ := next_on_mirror (bistError_latched (x := s.ctx) hstandby hlatched)
      rw [(raised_event _ _ _ _).mirror] at hmirror
      exact ⟨t, ht, by rw [hmirror]; rfl, by rw [hmirror]; rfl, by rw [hevt]; exact event_pend_self _ _ _ (by decide)⟩
    case refine_20 =>
      have hrow : ledgerCheck s.ctx s.dev = checkLedgers (paced .ledger s.dev) := if_pos hruns
      exact next_on_eq (hrow.trans (checkLedgers_balanced hbalanced)) hwr
    case refine_21 =>
      have hrow : ledgerCheck s.ctx s.dev = checkLedgers (paced .ledger s.dev) := if_pos hruns
      obtain ⟨t, ht, -, -, hledger, hevt⟩ := next_on_mirror hrow
      obtain ⟨hfaults, hpend⟩ := checkLedgers_faulty (d := paced .ledger s.dev) hq hsuspect hlong
      exact ⟨t, ht, by rw [hledger]; exact hfaults, by rw [hevt]; exact hpend⟩

end Sys2Proof.Machine
end
